-- ==== Sys2Proof/Word.lean ====
section
/-! DEFINITION. The word types the manual uses: register words, device addresses, instruction words, bytes. -/
namespace Sys2Proof

/-- A 32-bit register (R9). -/
abbrev Word := BitVec 32
/-- A 64-bit operand, result or register pair (R14). -/
abbrev Dword := BitVec 64
/-- One byte of memory. -/
abbrev Byte := BitVec 8
/-- A matrix-engine instruction, 128 bits (R72). -/
abbrev MeWord := BitVec 128
/-- A vector-engine instruction, 64 bits (R119). -/
abbrev VeWord := BitVec 64
/-- An object's handle, 48 bits. -/
abbrev Handle := BitVec 48
/-- A device address, 56 bits. -/
abbrev DevAddr := BitVec 56

end Sys2Proof
end

