-- ==== Sys2Proof/Syntax.lean ====
section
/-! DEFINITION. The commands of the block: one constructor of Instr per row of spec/opcode_table.json, with the operands each row carries,
and the operand types. The table gives no row any bits. -/
namespace Sys2Proof

/-- A field, 0 to 47 (R2). -/
abbrev Field := Fin 48
/-- A paddock, 0 to 3. -/
abbrev Paddock := Fin 4
/-- A ring, 0 to 3 (R3). -/
abbrev Ring := Fin 4
/-- A host port, H0 or H1 (R5). -/
abbrev HostId := Fin 2
/-- A memory site, f × 2 + k (R5). -/
abbrev Site := Fin 96

/-- A cluster of a field (R4). -/
structure ClLoc where
  f : Field
  c : Fin 6
  deriving DecidableEq, Repr

/-- An M-core slot of a cluster: slot i stands for the manual's slot i + 1 (R4). -/
structure McLoc where
  cl : ClLoc
  slot : Fin 5
  deriving DecidableEq, Repr

/-- A matrix engine of an M-core slot. -/
structure MeLoc where
  mc : McLoc
  e : Fin 4
  deriving DecidableEq, Repr

/-- A V-core of a cluster. -/
structure VcLoc where
  cl : ClLoc
  v : Fin 2
  deriving DecidableEq, Repr

/-- A vector engine: of a V-core, the epilogue VE of an M-core, or an update engine (R90, R249). -/
inductive VeLoc where
  | vcore (vc : VcLoc) (e : Fin 4)
  | epilogue (mc : McLoc)
  | update (f : Field) (e : Fin 4)
  deriving DecidableEq, Repr

/-- A cluster's router or a field's hub (R150). -/
inductive RtrLoc where
  | cluster (cl : ClLoc)
  | hub (f : Field)
  deriving DecidableEq, Repr

/-- A mover channel (R220): of a cluster, a memory site, an optical port or a host port. -/
inductive MvLoc where
  | cluster (cl : ClLoc) (ch : Fin 4)
  | site (s : Site) (ch : Fin 16)
  | port (f : Field) (ch : Fin 8)
  | host (h : HostId) (ch : Fin 8)
  deriving DecidableEq, Repr

/-- A block with a cluster memory page: a cluster's memory or field services SRAM (R422). -/
inductive CmLoc where
  | cluster (cl : ClLoc)
  | services (f : Field)
  deriving DecidableEq, Repr

/-- One link of an optical port. -/
structure LinkLoc where
  port : Field
  link : Fin 8
  deriving DecidableEq, Repr

/-- A plane of the mesh. -/
inductive Plane where
  | a | b
  deriving DecidableEq, Repr

/-- The access paths (R14) that write and read registers. -/
inductive Path where
  | rm
  | h0
  | h1
  | score (cl : ClLoc)
  | ue (f : Field) (e : Fin 4)
  deriving DecidableEq, Repr

/-- Where a register access is addressed: a device address, or an offset in the path's BAR0 (R350). -/
inductive RegAddr where
  | da (a : DevAddr)
  | bar0 (o : BitVec 25)
  deriving DecidableEq, Repr

/-- The CRC or ECC check of a memory read, as the surroundings present it: the stored code matches, it matched on the re-read, or it fails again (R68, R103, R185). -/
inductive MemCheck where
  | ok
  | corrected (n : Nat)
  | failed (off : Nat)
  deriving DecidableEq, Repr

/-- The parity check of an ME pass (R65). -/
inductive ParityCheck where
  | none | stationary | accumulator
  deriving DecidableEq, Repr

/-- The checks a VE instruction meets (R103, R121). -/
inductive VeCheck where
  | ok
  | regParity
  | imemParity
  | crcCorrected
  | crcFailed (off : Nat)
  | accParity
  deriving DecidableEq, Repr

/-- A packet of the mesh: its 128 sideband bits and its payload bytes (R159). -/
structure Flit where
  side : BitVec 128
  payload : List Byte
  deriving DecidableEq, Repr


/-- How the copy of a placement transition ended: done (with the T2 copy's bytes where it read T2), a read that failed, or no route to the T2 node (R200, R216). -/
inductive CopyResult where
  | ok (t2 : List Byte)
  | readFail
  | unreachable
  deriving DecidableEq, Repr

/-- A gathered response: the accounting endpoint and the source (field + cluster × 2^6 + unit × 2^9), the tag and the status (R167). -/
structure RespKey where
  ep : BitVec 13
  src : BitVec 13
  tag : BitVec 6
  status : BitVec 8
  deriving DecidableEq, Repr

/-- A frame of an optical link: 28 header bytes, 256 payload bytes, CRC-32 (R324). -/
structure Frame where
  head : BitVec 224
  payload : List Byte
  crc : BitVec 32
  deriving DecidableEq, Repr

/-- A round of a vote: step, attempt, round (1 step vote, 2 prepare), instance (R274). -/
structure RoundKey where
  step : Nat
  attempt : Nat
  round : Nat
  inst : Nat
  deriving DecidableEq, Repr

/-- An entry of a decision log: a round, its outcome and reason codes, APPLY_STRIDE (R276, R293). -/
structure LogEntry where
  key : RoundKey
  outcome : Nat
  reason : Nat
  applyAt : Nat
  deriving DecidableEq, Repr

/-- A DIGEST message: GROUP_ID, step, attempt, sweep run and the shard digest (R284). -/
structure DigestMsg where
  group : Nat
  step : Nat
  attempt : Nat
  run : Nat
  digest : BitVec 128
  deriving DecidableEq, Repr

/-- An ARBITRATE message with what the arbiter reads and computes for it: the owners' nodes, step and attempt, the G slots read from both owners, and the digest of the arbitration sweep (R287). -/
structure ArbRequest where
  primary : BitVec 16
  partner : BitVec 16
  step : Nat
  attempt : Nat
  slotA : List Byte
  slotB : List Byte
  digest : BitVec 128
  deriving DecidableEq, Repr

/-- An ARB_REPLY: step and attempt, UNDECIDABLE or a digest, and the other owner's G+1 slots as an owner that must copy them reads them, by handle (R287). -/
structure ArbAnswer where
  step : Nat
  attempt : Nat
  digest : Option (BitVec 128)
  slots : List (Handle × List Byte)
  deriving DecidableEq, Repr

/-- What a rejoining member reads of a peer: STEP_COMMITTED, committed slot, the logged outcome of the member's open round, CAL_COUNT, e (8 bits), LOSS_EMA, shard digest, and the committed slots copied, by handle (R294). -/
structure PeerState where
  step : Nat
  slot : Bool
  logged : Option LogEntry
  calCount : BitVec 64
  exp : Byte
  ema : Word
  digest : BitVec 128
  slots : List (Handle × List Byte)
  deriving DecidableEq, Repr

/-- A chunk of the background walk as the partner reports it: object, chunk number, its STEP_COMMITTED, its digest (R295). -/
structure ChunkReport where
  handle : Handle
  chunk : Nat
  step : Nat
  digest : BitVec 128
  deriving DecidableEq, Repr

/-- What a LINK_MGMT heartbeat or identity exchange carries: the peer's NODE_ID, port, link and OP_BOOT_COUNT (R328). -/
structure PeerId where
  node : BitVec 16
  port : BitVec 6
  link : BitVec 3
  boot : BitVec 32
  deriving DecidableEq, Repr

/-- Why an optical link goes down beside a missing heartbeat: no signal on any active lane; no frame passing CRC for 3 µs; FEC lock lost on every active lane (R345). -/
inductive LinkDownCause where
  | los | noFrame | fecLost
  deriving DecidableEq, Repr

/-- An ELECT message: the link it came on, the candidate's TB_PRIO, NODE_ID and EPOCH, and the sender's module hops and delay in ns to the candidate (R343). -/
structure ElectMsg where
  link : LinkLoc
  prio : BitVec 8
  node : BitVec 16
  epoch : BitVec 16
  hops : Nat
  delay : Nat
  deriving DecidableEq, Repr

/-- How an aperture's mesh access ends: OK, or with another status (R354). -/
inductive MeshStatus where
  | ok | failed
  deriving DecidableEq, Repr

/-- A PCIe link as it reaches DL_Up: RATE code, lanes, flit mode (R349, R366). -/
structure PcieLink where
  rate : BitVec 3
  width : BitVec 5
  flit : Bool
  deriving DecidableEq, Repr

/-- A PCIe completion: the read's number, whether it is successful and not poisoned, its data (R356). -/
structure HostCpl where
  id : Nat
  ok : Bool
  bytes : List Byte
  deriving DecidableEq, Repr

/-- A unit as FR_SEL names it: CLUSTER 6 is field services, CLUSTER 7 with UNIT 0 the whole field (R319). -/
structure UnitSel where
  field : Field
  cluster : Fin 8
  unit : Fin 16
  engine : Fin 8
  deriving DecidableEq, Repr

/-- What a MGMT flit asks of a router: a read or write of a register of its page, an override or escape entry (none: invalid), a stream slot's words, the tick ports, or an L2P word of its cluster's S-core (R35, R157, R159, R165, R171). -/
inductive MgmtOp where
  | read (off : Nat)
  | write (off : Nat) (v : Word)
  | override (i : Fin 288) (port : Option (Fin 7))
  | escape (i : Fin 288) (port : Option (Fin 7))
  | slot (i : Fin 16) (d0 d1 d2 : Word)
  | tick (ports : List (Fin 7))
  | l2p (k : Fin 5) (v : Word)
  deriving DecidableEq, Repr

/-- An error report: the reporting page, its cause, the logical engine, item-table index, and for a fetch error the word of the instruction memory (R302, R305). -/
structure ErrReport where
  page : DevAddr
  cause : Byte
  leid : BitVec 16
  item : Nat
  word : Nat
  deriving DecidableEq, Repr

/-- A result of the array test: MULTI, a single failing physical row, a single failing physical column; passed where none of them (R48). -/
structure TestResult where
  multi : Bool
  row : Option (Fin 65)
  col : Option (Fin 65)
  deriving DecidableEq, Repr

/-- The raw samples of a field's sensors, in 1/16 °C: S0 to S4, stacks 2f and 2f + 1, optical engine, power stage (R380). -/
structure FieldTemps where
  s : List Int
  stackT : List Int
  optic : Int
  stage : Int
  deriving DecidableEq, Repr

/-- The raw samples of the harness, in 1/16 °C: Ringmaster die; top inlet, top outlet, bottom inlet, bottom outlet (R378, R380). -/
structure HarnessTemps where
  die : Int
  topIn : Int
  topOut : Int
  botIn : Int
  botOut : Int
  deriving DecidableEq, Repr

/-- How the surroundings let a bring-up stage end: whether the harness base domain, ROM or self-test works, and the units that fail in it: fields, stitch planes (field × 8 + cluster, 6 for the hub; port; plane), routers (field × 8 + cluster), memory sites, failed lanes of optical links (R387). -/
structure StageReport where
  base : Bool
  fields : List Field
  planes : List (Nat × Nat × Plane)
  routers : List Nat
  sites : List Site
  lanes : List (LinkLoc × BitVec 8)
  deriving DecidableEq, Repr

/-- The commands: one constructor per row of the opcode table, in the table's order. -/
inductive Instr where
  /-- REGISTER_WRITE: A 32-bit write to a register field that has no row of its own sets the field according to its type. (R9) -/
  | registerWrite (p : Path) (a : RegAddr) (n : Nat) (v : Word)
  /-- SUBWORD_READ: A read of another width or alignment is done as ordered 32-bit reads of each word that holds an addressed byte. (R12) -/
  | subwordRead (p : Path) (a : RegAddr) (n : Nat)
  /-- LO_READ: A read of the LO half of a 64-bit pair returns LO and latches HI for the reading path. (R14) -/
  | loRead (p : Path) (a : RegAddr)
  /-- HI_READ: A read of the HI half returns the path's latched value, or the current value if no LO read preceded it. (R14) -/
  | hiRead (p : Path) (a : RegAddr)
  /-- LO_WRITE: A write to LO of a writable 64-bit pair is staged for the writing path. (R15) -/
  | loWrite (p : Path) (a : RegAddr) (v : Word)
  /-- HI_WRITE: A write to HI commits both halves of the pair in one cycle, keeping LO if nothing was staged. (R15) -/
  | hiWrite (p : Path) (a : RegAddr) (v : Word)
  /-- BLK_EVENT_CLEAR: A W1C write to BLK_EVENT clears the written bits and, for ERRLOG, re-arms the error log. (R417) -/
  | blkEventClear (p : Path) (a : RegAddr) (v : Word) (hw : Word)
  /-- BLK_EVENT_FORCE: A 1 written to BLK_EVENT_FORCE sets the event bit as if its condition had occurred. (R414) -/
  | blkEventForce (p : Path) (a : RegAddr) (v : Word)
  /-- RESET_REQ: A write of 1 to BLK_CTRL.RESET_REQ clears the page's counters, events and error log if allowed. (R413) -/
  | resetReq (p : Path) (a : RegAddr)
  /-- TICK: A tick edge ends one stride and begins the next, and STRIDE_COUNT takes the new value. (R29) -/
  | tick
  /-- SET_PERIOD: The master loads a new stride period and stretch increment to apply at stride APPLY_AT. (R30) -/
  | setPeriod (p : Path)
  /-- PERIOD_APPLY: At the APPLY_AT tick the new period takes effect, and any running plan aborts and halts with PERIOD_CHANGED. (R31) -/
  | periodApply
  /-- STRETCH_REQUEST: When carry-over reaches the stride's effective slack with work still unfinished, the S-core sends one stretch request. (R42) -/
  | stretchRequest (l : ClLoc)
  /-- TICK_FLIT_ORIGINATE: The tick root originates a TICK flit from the module's own timebase and sends it down the broadcast tree. (R158) -/
  | tickFlitOriginate
  /-- PLAN_TAKE_UP: At the next tick a PENDING plan is checked, its object table and sweep image carried out, and its segments loaded. (R360) -/
  | planTakeUp (n : Paddock)
  /-- ITEM_BEGIN: An item begins once its release stride has begun and its token count is present. (R36) -/
  | itemBegin (l : ClLoc) (i : Nat)
  /-- STICK_WAIT: The S-core waits until STRIDE_COUNT reaches the operand. (R38) -/
  | stickWait (l : ClLoc) (rd : Fin 32) (a : Dword)
  /-- STICK_WAIT_DONE: A waiting STICK.WAIT completes when STRIDE_COUNT reaches its operand. (R38) -/
  | stickWaitDone (l : ClLoc)
  /-- STICK_READ: The S-core reads STRIDE_COUNT, STRIDE_OFFSET or CUR_STRIDE_LEN into rd. (R29) -/
  | stickRead (l : ClLoc) (rd : Fin 32) (k : Fin 3)
  /-- STOK_WAIT: The S-core waits until a token reaches a count, then subtracts it. (R37) -/
  | stokWait (l : ClLoc) (rd : Fin 32) (a : Dword) (b : Dword)
  /-- STOK_WAIT_DONE: A waiting STOK.WAIT completes when the token reaches its count. (R37) -/
  | stokWaitDone (l : ClLoc)
  /-- STOK_SIG: The S-core adds a count to a token of a logical cluster. (R37) -/
  | stokSig (l : ClLoc) (rd : Fin 32) (a : Dword) (b : Dword)
  /-- SITEM_BEGIN: The S-core begins tracking the item of an absolute stride. (R41) -/
  | sitemBegin (l : ClLoc) (a : Dword) (i : Nat)
  /-- SITEM_END: The S-core ends the tracked item and returns its carry-over. (R41) -/
  | sitemEnd (l : ClLoc) (rd : Fin 32)
  /-- SMV_KICK: The S-core loads a descriptor from its SRAM into SHADOW of a cluster channel. (R222) -/
  | smvKick (l : ClLoc) (rd : Fin 32) (a : Dword) (b : Dword)
  /-- SMV_WAIT: The S-core waits for a channel's oldest completion record and takes it. (R228) -/
  | smvWait (l : ClLoc) (rd : Fin 32) (a : Dword)
  /-- SDL_MAKE: The S-core converts a step-relative stride and offset into a deadline. (R40) -/
  | sdlMake (l : ClLoc) (rd : Fin 32) (a : Dword) (b : Dword)
  /-- MPASS: An ME issues one pass of the array. (R74) -/
  | mpass (l : MeLoc) (w : MeWord) (x : MemCheck)
  /-- MLOAD: An ME loads one stationary set from the feeder or chain-in. (R75) -/
  | mload (l : MeLoc) (w : MeWord) (x : MemCheck)
  /-- MFWD: An ME passes tiles from chain-in to chain-out without loading them. (R76) -/
  | mfwd (l : MeLoc) (w : MeWord) (x : MemCheck)
  /-- MMASK: An ME loads a contraction or output mask register from local memory. (R78) -/
  | mmask (l : MeLoc) (w : MeWord) (x : MemCheck)
  /-- MSIG: An ME issues a signal to a sync counter or S-core token. (R76) -/
  | msig (l : MeLoc) (w : MeWord) (x : MemCheck)
  /-- MSIG_EFFECT: An issued MSIG adds its count once every earlier load, forward and pass has completed. (R76) -/
  | msigEffect (l : MeLoc)
  /-- MWAIT: An ME waits on a sync counter, holding later instructions. (R76) -/
  | mwait (l : MeLoc) (w : MeWord) (x : MemCheck)
  /-- MWAIT_DONE: A waiting MWAIT completes when its counter reaches the count, which is subtracted. (R83) -/
  | mwaitDone (l : MeLoc)
  /-- MEND: An ME program ends and the next queued program begins. (R71) -/
  | mend (l : MeLoc) (w : MeWord) (x : MemCheck)
  /-- PASS_START: A held pass starts once its set is loaded and accumulator and load ordering allow. (R58) -/
  | passStart (l : MeLoc) (x : ParityCheck)
  /-- ME_CLEAR_SETS: Both stationary sets become EMPTY and zero. (R55) -/
  | meClearSets (p : Path) (l : MeLoc)
  /-- ME_CLEAR_COUNTERS: The ME's pass, row, stall and parity counters are cleared. (R66) -/
  | meClearCounters (p : Path) (l : MeLoc)
  /-- MC_START_WRITE: A write to MC_START_e queues a program entry point for an engine. (R71) -/
  | mcStartWrite (p : Path) (l : McLoc) (e : Fin 5) (v : Word)
  /-- MC_CLEAR_SYNC: All 16 M-core sync counters are set to 0. (R83) -/
  | mcClearSync (p : Path) (l : McLoc)
  /-- MC_CLEAR_COUNTERS: The M-core's start, CRC and chain counters are cleared. (R89) -/
  | mcClearCounters (p : Path) (l : McLoc)
  /-- SETVL: A VE writes VTYPE and sets VL to min(xs1, VLMAX). (R94) -/
  | setvl (l : VeLoc) (w : VeWord) (x : VeCheck)
  /-- XRDCFG: A VE reads lanes, VLMAX, VL or VSTAT into a scalar register. (R119) -/
  | xrdcfg (l : VeLoc) (w : VeWord) (x : VeCheck)
  /-- XADD: Scalar 64-bit add. (R120) -/
  | xadd (l : VeLoc) (w : VeWord) (x : VeCheck)
  /-- XSUB: Scalar 64-bit subtract. (R120) -/
  | xsub (l : VeLoc) (w : VeWord) (x : VeCheck)
  /-- XADDI: Scalar add of a signed immediate. (R120) -/
  | xaddi (l : VeLoc) (w : VeWord) (x : VeCheck)
  /-- XAND: Scalar bitwise AND. (R120) -/
  | xand (l : VeLoc) (w : VeWord) (x : VeCheck)
  /-- XOR: Scalar bitwise OR. (R120) -/
  | xor (l : VeLoc) (w : VeWord) (x : VeCheck)
  /-- XSLLI: Scalar shift left by an immediate. (R120) -/
  | xslli (l : VeLoc) (w : VeWord) (x : VeCheck)
  /-- XSRLI: Scalar logical shift right by an immediate. (R120) -/
  | xsrli (l : VeLoc) (w : VeWord) (x : VeCheck)
  /-- XMUL: Scalar 64-bit multiply. (R120) -/
  | xmul (l : VeLoc) (w : VeWord) (x : VeCheck)
  /-- BEQ: Branch if two scalars are equal. (R120) -/
  | beq (l : VeLoc) (w : VeWord) (x : VeCheck)
  /-- BNE: Branch if two scalars differ. (R120) -/
  | bne (l : VeLoc) (w : VeWord) (x : VeCheck)
  /-- BLT: Branch if xs1 is less than xs2, signed. (R120) -/
  | blt (l : VeLoc) (w : VeWord) (x : VeCheck)
  /-- BGE: Branch if xs1 is at least xs2, signed. (R120) -/
  | bge (l : VeLoc) (w : VeWord) (x : VeCheck)
  /-- JMP: Unconditional branch. (R120) -/
  | jmp (l : VeLoc) (w : VeWord) (x : VeCheck)
  /-- VWAIT: A VE waits until a sync counter holds COUNT. (R123) -/
  | vwait (l : VeLoc) (w : VeWord) (x : VeCheck)
  /-- VWAIT_DONE: A waiting VWAIT completes and subtracts COUNT. (R123) -/
  | vwaitDone (l : VeLoc)
  /-- VSIG: A VE issues a signal to a sync counter or S-core token. (R123) -/
  | vsig (l : VeLoc) (w : VeWord) (x : VeCheck)
  /-- VSIG_EFFECT: An issued VSIG adds COUNT once earlier instructions have completed and their stores are written. (R123) -/
  | vsigEffect (l : VeLoc)
  /-- VSTATC: A VE clears the VSTAT bits of its mask. (R96) -/
  | vstatc (l : VeLoc) (w : VeWord) (x : VeCheck)
  /-- VMVXS: Element 0 of a vector is moved to a scalar register. (R120) -/
  | vmvxs (l : VeLoc) (w : VeWord) (x : VeCheck)
  /-- VMVSX: The low SEW bits of a scalar are moved to element 0 of a vector. (R120) -/
  | vmvsx (l : VeLoc) (w : VeWord) (x : VeCheck)
  /-- VEND: A VE program ends and the next queued program begins. (R122) -/
  | vend (l : VeLoc) (w : VeWord) (x : VeCheck)
  /-- VLD: A vector load in unit, strided or indexed mode. (R101) -/
  | vld (l : VeLoc) (w : VeWord) (x : VeCheck)
  /-- VST: A vector store in unit, strided or indexed mode. (R101) -/
  | vst (l : VeLoc) (w : VeWord) (x : VeCheck)
  /-- VLDN: A narrow block-scaled load expanded to FP32. (R105) -/
  | vldn (l : VeLoc) (w : VeWord) (x : VeCheck)
  /-- VSTN: A narrow block-scaled store through the hardware write path. (R105) -/
  | vstn (l : VeLoc) (w : VeWord) (x : VeCheck)
  /-- VLDP: A load of predicate bits 0 to VL − 1. (R120) -/
  | vldp (l : VeLoc) (w : VeWord) (x : VeCheck)
  /-- VSTP: A store of predicate bits 0 to VL − 1. (R120) -/
  | vstp (l : VeLoc) (w : VeWord) (x : VeCheck)
  /-- VFADD: Floating-point add. (R98) -/
  | vfadd (l : VeLoc) (w : VeWord) (x : VeCheck)
  /-- VFSUB: Floating-point subtract. (R98) -/
  | vfsub (l : VeLoc) (w : VeWord) (x : VeCheck)
  /-- VFMUL: Floating-point multiply. (R98) -/
  | vfmul (l : VeLoc) (w : VeWord) (x : VeCheck)
  /-- VFMA: Fused multiply-add. (R98) -/
  | vfma (l : VeLoc) (w : VeWord) (x : VeCheck)
  /-- VFMS: Fused multiply-subtract. (R98) -/
  | vfms (l : VeLoc) (w : VeWord) (x : VeCheck)
  /-- VFNMA: Negated fused multiply-add. (R98) -/
  | vfnma (l : VeLoc) (w : VeWord) (x : VeCheck)
  /-- VFMIN: Floating-point minimum. (R98) -/
  | vfmin (l : VeLoc) (w : VeWord) (x : VeCheck)
  /-- VFMAX: Floating-point maximum. (R98) -/
  | vfmax (l : VeLoc) (w : VeWord) (x : VeCheck)
  /-- VFABS: Floating-point absolute value. (R98) -/
  | vfabs (l : VeLoc) (w : VeWord) (x : VeCheck)
  /-- VFNEG: Floating-point negation. (R98) -/
  | vfneg (l : VeLoc) (w : VeWord) (x : VeCheck)
  /-- VFDIV: Correctly rounded floating-point division. (R98) -/
  | vfdiv (l : VeLoc) (w : VeWord) (x : VeCheck)
  /-- VFSQRT: Correctly rounded floating-point square root. (R98) -/
  | vfsqrt (l : VeLoc) (w : VeWord) (x : VeCheck)
  /-- VADD: Integer add. (R98) -/
  | vadd (l : VeLoc) (w : VeWord) (x : VeCheck)
  /-- VSUB: Integer subtract. (R98) -/
  | vsub (l : VeLoc) (w : VeWord) (x : VeCheck)
  /-- VMUL: Integer multiply, low 32 bits. (R98) -/
  | vmul (l : VeLoc) (w : VeWord) (x : VeCheck)
  /-- VAND: Vector bitwise AND. (R98) -/
  | vand (l : VeLoc) (w : VeWord) (x : VeCheck)
  /-- VOR: Vector bitwise OR. (R98) -/
  | vor (l : VeLoc) (w : VeWord) (x : VeCheck)
  /-- VXOR: Vector bitwise XOR. (R98) -/
  | vxor (l : VeLoc) (w : VeWord) (x : VeCheck)
  /-- VSLL: Vector shift left logical. (R98) -/
  | vsll (l : VeLoc) (w : VeWord) (x : VeCheck)
  /-- VSRL: Vector shift right logical. (R98) -/
  | vsrl (l : VeLoc) (w : VeWord) (x : VeCheck)
  /-- VSRA: Vector shift right arithmetic. (R98) -/
  | vsra (l : VeLoc) (w : VeWord) (x : VeCheck)
  /-- VMIN: Integer minimum. (R98) -/
  | vmin (l : VeLoc) (w : VeWord) (x : VeCheck)
  /-- VMAX: Integer maximum. (R98) -/
  | vmax (l : VeLoc) (w : VeWord) (x : VeCheck)
  /-- VMERGE: Each element takes vs1 or vs2 by predicate bit. (R120) -/
  | vmerge (l : VeLoc) (w : VeWord) (x : VeCheck)
  /-- VIOTA: Each element is set to its index. (R120) -/
  | viota (l : VeLoc) (w : VeWord) (x : VeCheck)
  /-- VMV: Vector register copy. (R120) -/
  | vmv (l : VeLoc) (w : VeWord) (x : VeCheck)
  /-- VCMPEQ: Compare equal into a predicate. (R98) -/
  | vcmpeq (l : VeLoc) (w : VeWord) (x : VeCheck)
  /-- VCMPNE: Compare not equal into a predicate. (R98) -/
  | vcmpne (l : VeLoc) (w : VeWord) (x : VeCheck)
  /-- VCMPLT: Compare less than into a predicate. (R98) -/
  | vcmplt (l : VeLoc) (w : VeWord) (x : VeCheck)
  /-- VCMPLE: Compare less or equal into a predicate. (R98) -/
  | vcmple (l : VeLoc) (w : VeWord) (x : VeCheck)
  /-- PAND: Predicate AND. (R120) -/
  | pand (l : VeLoc) (w : VeWord) (x : VeCheck)
  /-- POR: Predicate OR. (R120) -/
  | por (l : VeLoc) (w : VeWord) (x : VeCheck)
  /-- PXOR: Predicate XOR. (R120) -/
  | pxor (l : VeLoc) (w : VeWord) (x : VeCheck)
  /-- PNOT: Predicate NOT. (R120) -/
  | pnot (l : VeLoc) (w : VeWord) (x : VeCheck)
  /-- PPOPC: Counts predicate bits set below VL. (R120) -/
  | ppopc (l : VeLoc) (w : VeWord) (x : VeCheck)
  /-- PFIRST: Returns the index of the first set predicate bit. (R120) -/
  | pfirst (l : VeLoc) (w : VeWord) (x : VeCheck)
  /-- VCOMPRESS: Packs active elements to the front and returns their count. (R106) -/
  | vcompress (l : VeLoc) (w : VeWord) (x : VeCheck)
  /-- VEXPAND: Writes packed elements back to active positions. (R107) -/
  | vexpand (l : VeLoc) (w : VeWord) (x : VeCheck)
  /-- VSLIDEUP: Slides elements up by a scalar amount. (R108) -/
  | vslideup (l : VeLoc) (w : VeWord) (x : VeCheck)
  /-- VSLIDEDN: Slides elements down by a scalar amount. (R108) -/
  | vslidedn (l : VeLoc) (w : VeWord) (x : VeCheck)
  /-- VRGATHER: Gathers elements by an index vector. (R108) -/
  | vrgather (l : VeLoc) (w : VeWord) (x : VeCheck)
  /-- VREDSUM: Pairwise sum reduction. (R110) -/
  | vredsum (l : VeLoc) (w : VeWord) (x : VeCheck)
  /-- VREDPROD: Pairwise product reduction. (R110) -/
  | vredprod (l : VeLoc) (w : VeWord) (x : VeCheck)
  /-- VREDMAX: Maximum reduction. (R112) -/
  | vredmax (l : VeLoc) (w : VeWord) (x : VeCheck)
  /-- VREDMIN: Minimum reduction. (R112) -/
  | vredmin (l : VeLoc) (w : VeWord) (x : VeCheck)
  /-- VREDARGMAX: Index of the maximum. (R112) -/
  | vredargmax (l : VeLoc) (w : VeWord) (x : VeCheck)
  /-- VREDARGMIN: Index of the minimum. (R112) -/
  | vredargmin (l : VeLoc) (w : VeWord) (x : VeCheck)
  /-- VREDAND: Bitwise AND reduction. (R112) -/
  | vredand (l : VeLoc) (w : VeWord) (x : VeCheck)
  /-- VREDOR: Bitwise OR reduction. (R112) -/
  | vredor (l : VeLoc) (w : VeWord) (x : VeCheck)
  /-- VCVT: Conversion between FP and integer types. (R99) -/
  | vcvt (l : VeLoc) (w : VeWord) (x : VeCheck)
  /-- VSPLIT: Writes the hi and lo BF16 planes of FP32 sources. (R100) -/
  | vsplit (l : VeLoc) (w : VeWord) (x : VeCheck)
  /-- VRAND: Writes counter-based random values for each element. (R100) -/
  | vrand (l : VeLoc) (w : VeWord) (x : VeCheck)
  /-- VEXP2: Table-based exp2. (R116) -/
  | vexp2 (l : VeLoc) (w : VeWord) (x : VeCheck)
  /-- VLOG2: Table-based log2. (R116) -/
  | vlog2 (l : VeLoc) (w : VeWord) (x : VeCheck)
  /-- VRSQRT: Table-based reciprocal square root. (R116) -/
  | vrsqrt (l : VeLoc) (w : VeWord) (x : VeCheck)
  /-- VRECIP: Table-based reciprocal. (R116) -/
  | vrecip (l : VeLoc) (w : VeWord) (x : VeCheck)
  /-- VTANH: Table-based tanh. (R116) -/
  | vtanh (l : VeLoc) (w : VeWord) (x : VeCheck)
  /-- VLDACC: Copies accumulator rows of an ME into vector registers. (R113) -/
  | vldacc (l : VeLoc) (w : VeWord) (x : VeCheck)
  /-- VSTACC: The epilogue VE writes registers to accumulator rows. (R84) -/
  | vstacc (l : VeLoc) (w : VeWord) (x : VeCheck)
  /-- UMVKICK: An update engine loads a descriptor into SHADOW of a site channel. (R252) -/
  | umvkick (l : VeLoc) (w : VeWord) (x : VeCheck)
  /-- UMVWAIT: An update engine waits for and takes a channel's oldest completion status. (R251) -/
  | umvwait (l : VeLoc) (w : VeWord) (x : VeCheck)
  /-- VLDAIF: An update engine loads and decodes AIF block elements to FP32. (R251) -/
  | vldaif (l : VeLoc) (w : VeWord) (x : VeCheck)
  /-- VSTD: A unit-mode store that folds the stored bytes into the entry digest. (R283) -/
  | vstd (l : VeLoc) (w : VeWord) (x : VeCheck)
  /-- UCALRD: An update engine reads a word of a group's hyperparameter record. (R251) -/
  | ucalrd (l : VeLoc) (w : VeWord) (x : VeCheck)
  /-- VSTNT: A narrow store with quotients taken against a tensor scale T. (R251) -/
  | vstnt (l : VeLoc) (w : VeWord) (x : VeCheck)
  /-- VC_START_WRITE: A write to VC_START_e queues a program entry for a V-core VE. (R122) -/
  | vcStartWrite (p : Path) (l : VcLoc) (e : Fin 4) (v : Word)
  /-- VC_CLEAR_SYNC: All 16 V-core sync counters are set to 0. (R123) -/
  | vcClearSync (p : Path) (l : VcLoc)
  /-- VC_CLEAR_COUNTERS: VC_START_OVF and VC_ACCBUS_WAIT are cleared. (R127) -/
  | vcClearCounters (p : Path) (l : VcLoc)
  /-- VE_CLEAR_COUNTERS: The VE's instruction, stall, parity and CRC counters are cleared. (R127) -/
  | veClearCounters (p : Path) (l : VeLoc)
  /-- NW_SEL_WRITE: A write to NW_SEL copies the selected range or slot into the staging registers. (R149) -/
  | nwSelWrite (p : Path) (r : Ring) (v : Word)
  /-- WRITE_RANGE: The staging registers are written to the selected watch range. (R149) -/
  | writeRange (p : Path) (r : Ring)
  /-- WRITE_SLOT: NW_SLOT_CFG is written to the selected watch slot. (R149) -/
  | writeSlot (p : Path) (r : Ring)
  /-- NW_SNAPSHOT: The NAN, INF and SAT sums are copied to the snapshot registers and FINITE is set. (R147) -/
  | nwSnapshot (p : Path) (r : Ring)
  /-- CLEAR_COUNTS: Every watch counter, snapshot and first-non-finite record is set to 0. (R149) -/
  | clearCounts (p : Path) (r : Ring)
  /-- FLIT_WRITE: A WRITE flit is routed or consumed, and its destination accounts for it with a RESP. (R167) -/
  | flitWrite (r : RtrLoc) (q : Fin 7) (k : Flit)
  /-- FLIT_READ_REQ: A READ_REQ flit requests up to 4 KiB, answered with READ_DATA or a RESP. (R159) -/
  | flitReadReq (r : RtrLoc) (q : Fin 7) (k : Flit) (x : MemCheck)
  /-- FLIT_READ_DATA: A READ_DATA flit delivers reply data to the requester. (R167) -/
  | flitReadData (r : RtrLoc) (q : Fin 7) (k : Flit)
  /-- FLIT_RESP: A RESP flit accounts flits to a source and tag with a status. (R167) -/
  | flitResp (r : RtrLoc) (q : Fin 7) (k : Flit)
  /-- FLIT_CHAIN: A CHAIN flit is routed by its chain slot through local M-cores or discarded at the tail. (R179) -/
  | flitChain (r : RtrLoc) (q : Fin 7) (k : Flit)
  /-- FLIT_RED_UP: A reduction unit arrives at a router input toward the root. (R173) -/
  | flitRedUp (r : RtrLoc) (q : Fin 7) (k : Flit)
  /-- RED_COMBINE: A router combines the head units of all inputs once their unit indices are present and sends one unit on. (R173) -/
  | redCombine (r : RtrLoc) (i : Fin 16)
  /-- FLIT_RED_DOWN: A returned result unit is copied to every input port of the slot. (R176) -/
  | flitRedDown (r : RtrLoc) (q : Fin 7) (k : Flit)
  /-- FLIT_TICK: A TICK flit sets the fire time and STRIDE_COUNT at each router. (R157) -/
  | flitTick (r : RtrLoc) (q : Fin 7) (k : Flit)
  /-- FLIT_CRED_UP: A vote unit arrives and is combined by AND; at the root the outcome is decided and logged. (R275) -/
  | flitCredUp (r : RtrLoc) (q : Fin 7) (k : Flit)
  /-- FLIT_CRED_DOWN: A returned vote unit delivers the outcome, reason and APPLY_STRIDE to a member. (R275) -/
  | flitCredDown (r : RtrLoc) (q : Fin 7) (k : Flit)
  /-- FLIT_TOKEN: A TOKEN flit increments an S-core token, saturating, or returns FENCED. (R37) -/
  | flitToken (r : RtrLoc) (q : Fin 7) (k : Flit)
  /-- FLIT_FENCE: A FENCE flit sets or clears bits of a router's fence mask. (R169) -/
  | flitFence (r : RtrLoc) (q : Fin 7) (k : Flit)
  /-- FLIT_MGMT: A MGMT flit performs a register access or a router table write. (R165) -/
  | flitMgmt (r : RtrLoc) (q : Fin 7) (k : Flit) (m : MgmtOp)
  /-- ESCAPE_MOVE: A flit waiting ESC_WAIT cycles at a queue head moves to the escape channel. (R166) -/
  | escapeMove (r : RtrLoc) (q : Fin 7) (k : Flit)
  /-- LINK_DOWN_DETECT: 1,800 cycles without a valid flit, or a lost clock, takes a mesh link DOWN. (R163) -/
  | linkDownDetect (r : RtrLoc) (q : Fin 7)
  /-- LINK_DEGRADE: A plane that reaches its error or repeat threshold enters DEGRADED. (R163) -/
  | linkDegrade (r : RtrLoc) (q : Fin 7) (v : Plane)
  /-- CREDIT_REFRESH: A receiver refreshes each credit target at least once per 64 cycles. (R161) -/
  | creditRefresh (r : RtrLoc) (q : Fin 7) (v : Plane) (t : Fin 32)
  /-- RESP_FLUSH: A coalesced RESP is sent after 64 cycles without a further flit. (R167) -/
  | respFlush (k : RespKey)
  /-- ROUTER_TICK_MISSED: A router cut off from the tick tree fires a missed tick one period after the last. (R315) -/
  | routerTickMissed (r : RtrLoc)
  /-- RTR_CLEAR_COUNTERS: The router's error, replay and discard counters are cleared. (R183) -/
  | rtrClearCounters (p : Path) (r : RtrLoc)
  /-- DRAIN_LINK: Both ends stop granting on a plane and move its classes to the other plane. (R181) -/
  | drainLink (p : Path) (r : RtrLoc)
  /-- DRAIN_DONE: Once every replay buffer is acknowledged the plane enters DRAINED. (R181) -/
  | drainDone (r : RtrLoc) (q : Fin 7) (v : Plane)
  /-- LANE_TEST: A PRBS-31 test runs on every lane of a drained plane. (R181) -/
  | laneTest (p : Path) (r : RtrLoc)
  /-- LANE_TEST_DONE: The lane test completes and reports PASS, failing groups or UNREPAIRABLE. (R181) -/
  | laneTestDone (r : RtrLoc) (q : Fin 7) (v : Plane) (k : List (Nat × Nat))
  /-- APPLY_LANE_MAP: Soft lane entries are written and the plane retrained. (R181) -/
  | applyLaneMap (p : Path) (r : RtrLoc)
  /-- RELEASE_LINK: A drained plane returns to UP and takes back its classes. (R181) -/
  | releaseLink (p : Path) (r : RtrLoc)
  /-- EXCLUDE_LINK: A plane is taken out of service until restart. (R182) -/
  | excludeLink (p : Path) (r : RtrLoc)
  /-- ZERO_FILL_DONE: The zero fill of released space completes and the space becomes free. (R187) -/
  | zeroFillDone (i : Nat)
  /-- PLACE: A descriptor is created and space allocated at TIER, charged to quota. (R206) -/
  | place (p : Path) (f : Field)
  /-- PROMOTE: A copy of the object is brought up to T1 or T0. (R200) -/
  | promote (p : Path) (f : Field)
  /-- DEMOTE: T0 is released after writing back to T1, or dropped with DISCARD. (R203) -/
  | demote (p : Path) (f : Field)
  /-- EVICT: T0 and T1 are released after writing back to T2, or dropped with DISCARD. (R203) -/
  | evict (p : Path) (f : Field)
  /-- PIN: PIN_COUNT is incremented. (R201) -/
  | pin (p : Path) (f : Field)
  /-- UNPIN: PIN_COUNT is decremented. (R201) -/
  | unpin (p : Path) (f : Field)
  /-- FREE: The object and every copy are deleted if unpinned. (R200) -/
  | free (p : Path) (f : Field)
  /-- QUERY: The descriptor is written after the completion record. (R195) -/
  | query (p : Path) (f : Field)
  /-- SET_POLICY: The object's POLICY byte is replaced. (R199) -/
  | setPolicy (p : Path) (f : Field)
  /-- SET_ALT: ALT_NODE and ALT_DA are set or the replica removed. (R218) -/
  | setAlt (p : Path) (f : Field)
  /-- MAKE_DRAFT: An FP4 draft of a weight object is made and DRAFT_MAXERR computed. (R193) -/
  | makeDraft (p : Path) (f : Field)
  /-- DROP_DRAFT: The object's draft is released. (R193) -/
  | dropDraft (p : Path) (f : Field)
  /-- BIND_WINDOW: A T2 window of the paddock is bound to the object. (R210) -/
  | bindWindow (p : Path) (f : Field)
  /-- QUEUED_COMMAND_START: A waiting placement command starts once its object's state allows. (R200) -/
  | queuedCommandStart (f : Field) (i : Nat)
  /-- TRANSITION_DONE: A residency transition completes and joined commands complete with its status. (R200) -/
  | transitionDone (f : Field) (h : Handle) (k : CopyResult)
  /-- DEFERRED_COMMAND_START: A deferred DEMOTE or EVICT starts once the object is resident and unpinned. (R202) -/
  | deferredCommandStart (f : Field) (h : Handle)
  /-- MS_CLEAR_COUNTERS: The memory site's CRC, decompress and byte counters are cleared. (R217) -/
  | msClearCounters (p : Path) (i : Site)
  /-- DEADLINE_LATE: At a transfer's deadline it counts LATE and applies its DRAFT, ALT_SOURCE, REORDER or STALL policy. (R212) -/
  | deadlineLate (m : MvLoc)
  /-- LATE_NOTICE: On a LATE notice the S-core may run ready slack-list entries in place of the waiting item. (R214) -/
  | lateNotice (l : ClLoc) (t : BitVec 8) (le : BitVec 16)
  /-- MVR_LOAD: The staged descriptor is loaded into SHADOW if room allows and the fields check. (R226) -/
  | mvrLoad (p : Path) (m : MvLoc)
  /-- HANDOVER: SHADOW becomes ACTIVE when ACTIVE is empty and no pause is set. (R226) -/
  | handover (m : MvLoc)
  /-- TRANSFER_COMPLETE: A transfer whose reads are written and flits accounted creates its completion record. (R227) -/
  | transferComplete (m : MvLoc)
  /-- AIF_DATA_PHASE_START: AIF packing begins once every agreed exponent byte has returned. (R232) -/
  | aifDataPhaseStart (m : MvLoc)
  /-- MVR_STOP: The channel drains and ends its ACTIVE transfer with STOPPED. (R236) -/
  | mvrStop (p : Path) (m : MvLoc)
  /-- DROP_SHADOW: SHADOW is emptied and its descriptor recorded STOPPED. (R236) -/
  | dropShadow (p : Path) (m : MvLoc)
  /-- COLLECT: The oldest completion record is removed into MVR_LAST. (R228) -/
  | collect (p : Path) (m : MvLoc)
  /-- MVR_CLEAR_COUNTERS: The channel's done, error, late, Curb and byte counters are cleared. (R239) -/
  | mvrClearCounters (p : Path) (m : MvLoc)
  /-- PAUSE_SET: Setting MVR_CTRL.PAUSE stops new reads and begins draining. (R235) -/
  | pauseSet (p : Path) (m : MvLoc)
  /-- PAUSE_DONE: Once outstanding reads are written and accounted, the channel enters PAUSED. (R235) -/
  | pauseDone (m : MvLoc)
  /-- PAUSE_CLEAR: Clearing PAUSE resumes issue or cancels a pending pause. (R235) -/
  | pauseClear (p : Path) (m : MvLoc)
  /-- LIST_ELEMENT_LOAD: A plan mover list loads its next element into SHADOW once its stride has begun. (R238) -/
  | listElementLoad (m : MvLoc)
  /-- RANGE_ARRIVED: An arrival range whose byte counter reaches LENGTH signals its token and any mirror copy. (R246) -/
  | rangeArrived (f : Field) (i : Nat)
  /-- SWEEP_START: At the first tick after PROCEED, or after an ABORT_KEEP boundary, each engine's sequencer walks its entries. (R254) -/
  | sweepStart (n : Paddock) (f : Field)
  /-- DEFERRED_ENTRY_START: A deferred sweep entry runs once its state object is RESIDENT_T1. (R255) -/
  | deferredEntryStart (f : Field) (e : Fin 4)
  /-- UPDATE_WINDOW_EXPIRE: When WINDOW_STRIDES pass with entries undone, NOT_READY is set. (R255) -/
  | updateWindowExpire (f : Field)
  /-- UC_CLEAR_COUNTERS: UC_FALLBACK, UC_NOT_READY_COUNT and UC_MIRROR are cleared. (R269) -/
  | ucClearCounters (p : Path) (f : Field)
  /-- STAGE_LOAD: A group's effective Calliope values are copied into staging. (R270) -/
  | stageLoad (p : Path) (n : Paddock)
  /-- APPLY: A group's staged values take effect at the next step boundary. (R267) -/
  | apply (p : Path) (n : Paddock)
  /-- SET_COUNT: CAL_COUNT is set and every group's products recomputed from step 1. (R267) -/
  | setCount (p : Path) (n : Paddock)
  /-- SET_COUNT_DONE: Recomputation ends and Calliope leaves RECOMPUTING. (R267) -/
  | setCountDone (n : Paddock)
  /-- STEP_VOTE_CONTRIBUTE: Once every VOTE marker has begun and all ranges have arrived, the member snapshots and sends its vote unit. (R277) -/
  | stepVoteContribute (n : Paddock)
  /-- ARRIVAL_TIMEOUT: If arrival is incomplete VOTE_TIMEOUT after the step's last stride, the member votes with ARRIVED clear. (R277) -/
  | arrivalTimeout (n : Paddock)
  /-- LOSS_IN_WRITE: A write of the loss to LOSS_IN sets LOSS_VALID, or is discarded if late. (R280) -/
  | lossInWrite (p : Path) (n : Paddock) (v : Word)
  /-- DIGEST: A member's shard digest message arrives from its partner and sets DIGEST_OK. (R284) -/
  | digest (n : Paddock) (k : DigestMsg)
  /-- DIGEST_TIMEOUT: With no partner digest within VOTE_TIMEOUT the member is unpaired and acts by SOLO_POLICY. (R284) -/
  | digestTimeout (n : Paddock)
  /-- PREPARE_CONTRIBUTE: Once DIGEST_OK is known or NOT_READY is set, the member contributes to a prepare instance. (R285) -/
  | prepareContribute (n : Paddock)
  /-- PREPARE_RECONTRIBUTE: After CONTINUE a member contributes again on a state change or after 1 ms. (R285) -/
  | prepareRecontribute (n : Paddock)
  /-- SWEEP_RERUN: After a digest mismatch both owners re-run the sweep from G and the retained gradient. (R286) -/
  | sweepRerun (n : Paddock)
  /-- ARBITRATE: The arbiter reads both owners' G slots and the gradient and runs the sweep, or answers UNDECIDABLE. (R287) -/
  | arbitrate (n : Paddock) (k : ArbRequest)
  /-- ARB_REPLY: The arbiter's digest decides which owner keeps G+1 and which copies. (R287) -/
  | arbReply (n : Paddock) (k : ArbAnswer)
  /-- ARB_TIMEOUT: No arbiter answer within half COMMIT_WAIT_LIMIT sets NO_RESTORE to 0. (R287) -/
  | arbTimeout (n : Paddock)
  /-- ROUND_TIMEOUT: A round not combined within VOTE_TIMEOUT makes the root decide an abort and send DECISION messages. (R290) -/
  | roundTimeout (n : Paddock)
  /-- IN_DOUBT: A member with no outcome after VOTE_TIMEOUT + DOUBT_MARGIN enters IN_DOUBT and queries others. (R291) -/
  | inDoubt (n : Paddock)
  /-- DECISION: A DECISION message delivers an outcome with APPLY_STRIDE to a member. (R290) -/
  | decision (n : Paddock) (k : LogEntry)
  /-- DECISION_QUERY: A module answers a query from its decision log, STEP_COMMITTED and committed slot. (R276) -/
  | decisionQuery (n : Paddock) (k : RoundKey) (q : BitVec 16)
  /-- DECISION_REPLY: A reply with a logged outcome is adopted by the querying member. (R291) -/
  | decisionReply (n : Paddock) (k : Option LogEntry) (q : BitVec 16)
  /-- ABORT_REQUEST: The root decides HOLD, ABORT_KEEP or ABORT_DISCARD for the open round. (R304) -/
  | abortRequest (n : Paddock) (k : RoundKey) (b : Bool)
  /-- REJOIN: A member that left rejoins at a step boundary after reading its partner's log. (R294) -/
  | rejoin (n : Paddock) (k : Option PeerState)
  /-- WALK_CHUNK: The background walk digests a committed chunk and compares it with the partner's. (R295) -/
  | walkChunk (n : Paddock) (k : ChunkReport)
  /-- RESUME: A held paddock resumes, retrying or skipping the step by SC_ARG. (R293) -/
  | resume (p : Path) (n : Paddock)
  /-- SET_LOSS_EXP: CAL_LOSS_EXP is set from SC_ARG, clamped. (R298) -/
  | setLossExp (p : Path) (n : Paddock)
  /-- RESET_LOSS: LOSS_EMA and LOSS_COUNT are set to 0. (R298) -/
  | resetLoss (p : Path) (n : Paddock)
  /-- SC_CLEAR_COUNTERS: The skip, abort, digest and walk counters are cleared. (R298) -/
  | scClearCounters (p : Path) (n : Paddock)
  /-- ERROR_REPORT: An error report reaches the item's S-core, which records it and takes ITEM_ERROR. (R302) -/
  | errorReport (l : ClLoc) (k : ErrReport)
  /-- ERR_CLEAR: The S-core's error and taint registers are cleared. (R318) -/
  | errClear (p : Path) (l : ClLoc)
  /-- ABORT_REQ: The S-core asks the vote root to abort the open round. (R304) -/
  | abortReq (p : Path) (l : ClLoc)
  /-- FARRIER_MAIN_PATH: For a persistent unit the Farrier holds, fences, replaces, rebuilds tables and resumes. (R307) -/
  | farrierMainPath (u : UnitSel)
  /-- FARRIER_FENCE: The selected unit is fenced. (R169) -/
  | farrierFence (p : Path)
  /-- UNFENCE: The selected unit is unfenced. (R319) -/
  | unfence (p : Path)
  /-- ARRAY_TEST: The array test runs on an ME of a fenced M-core. (R48) -/
  | arrayTest (p : Path)
  /-- ARRAY_TEST_DONE: The array test completes and reports its failing row, column or MULTI. (R48) -/
  | arrayTestDone (l : MeLoc) (k : TestResult)
  /-- SOFT_REPAIR: A soft repair entry is written and recorded in flash. (R47) -/
  | softRepair (p : Path)
  /-- SWAP_SPARE: The cluster's spare slot replaces the selected M-core slot. (R308) -/
  | swapSpare (p : Path)
  /-- RETIRE: The selected unit is retired in the service map. (R312) -/
  | retire (p : Path)
  /-- REQUEST_HOLD: An abort request carrying HOLD is sent for a paddock. (R304) -/
  | requestHold (p : Path)
  /-- READMIT_FIELD: A field out for heat is powered, trained, zero-filled and returned to service. (R317) -/
  | readmitField (p : Path)
  /-- UNRETIRE: The selected unit's service-map entry is cleared for the next power-on. (R312) -/
  | unretire (p : Path)
  /-- FR_CLEAR_COUNTERS: The Farrier's counters are cleared. (R319) -/
  | frClearCounters (p : Path)
  /-- SPARE_RETEST: A replaced slot is array-tested in the background and repaired to spare or retired. (R309) -/
  | spareRetest (l : McLoc) (a : List TestResult) (b : List TestResult)
  /-- FRAME_FLIT: An inbound FLIT frame is delivered, forwarded in transit or rejected. (R337) -/
  | frameFlit (k : LinkLoc) (z : Frame)
  /-- FRAME_TIMING: A TIMING frame sets the follower's next tick and is sent on downstream. (R341) -/
  | frameTiming (k : LinkLoc) (z : Frame)
  /-- TIMING_SEND: The master sends the timing symbol for a tick TIMEBASE_LEAD_NS ahead. (R341) -/
  | timingSend
  /-- TIMING_FRAME_LOST: A tick whose TIMING frame was lost fires one stride after the previous tick. (R341) -/
  | timingFrameLost
  /-- FRAME_DELAY: A DELAY frame exchange measures the link's one-way delay. (R340) -/
  | frameDelay (k : LinkLoc) (a : Nat) (b : Nat)
  /-- DELAY_MEASURE: Every 10 ms each end starts a delay measurement. (R340) -/
  | delayMeasure (k : LinkLoc)
  /-- HEARTBEAT: A received LINK_MGMT heartbeat refreshes the peer's identity and boot count. (R328) -/
  | heartbeat (k : LinkLoc) (h : PeerId)
  /-- HEARTBEAT_SEND: Every HB_PERIOD the port sends a heartbeat on each up link. (R328) -/
  | heartbeatSend (f : Field)
  /-- HEARTBEAT_TIMEOUT: No heartbeat for HB_TIMEOUT takes the link down to TRAINING. (R328) -/
  | heartbeatTimeout (k : LinkLoc)
  /-- FRAME_OBJ: An OBJ frame requests a T2 or alternate read or write by handle. (R338) -/
  | frameObj (k : LinkLoc) (z : Frame)
  /-- FRAME_REPLAY_TIMEOUT: Acknowledgement stalled for 8 µs makes the sender resend from the oldest unacknowledged frame. (R325) -/
  | frameReplayTimeout (k : LinkLoc)
  /-- LINK_BRINGUP_ADVANCE: A link moves to its next bring-up state when the stage's exit condition holds. (R329) -/
  | linkBringupAdvance (k : LinkLoc) (h : PeerId)
  /-- LANE_FAIL_RETRAIN: A link with a failed lane retrains at half rate on a clean half, or goes down. (R330) -/
  | laneFailRetrain (k : LinkLoc) (b : BitVec 8) (c : Bool)
  /-- OPTICAL_LINK_DOWN: A link going down is removed from routes and its unacknowledged frames accounted. (R331) -/
  | opticalLinkDown (k : LinkLoc) (w : LinkDownCause)
  /-- REMOTE_TIMEOUT: A remote stream unaccounted for REMOTE_TIMEOUT is accounted LINK_DOWN. (R336) -/
  | remoteTimeout (f : Field) (i : Nat)
  /-- BUNDLE_SEND: A transit bundle is sent at 8 frames or 16 cycles after its first. (R335) -/
  | bundleSend (f : Field) (g : Field) (b : Bool)
  /-- CONTEXT_FREE: An inbound context is freed 64 cycles after its flits are all accounted. (R337) -/
  | contextFree (f : Field) (i : Fin 64)
  /-- LASER_POWER_LOW: Laser input below LOW or LOS sets an event, failing the fed lanes at LOS. (R321) -/
  | laserPowerLow (f : Field) (i : Fin 2) (j : Fin 8) (v : BitVec 16)
  /-- STRETCH_REQ: A stretch request is forwarded once per stride toward the master, which stretches the next unsent stride. (R342) -/
  | stretchReq (a : BitVec 48)
  /-- TB_TIMING_TIMEOUT: No TIMING frame for 2 strides or loss of MASTER_PORT starts holdover and an election. (R343) -/
  | tbTimingTimeout
  /-- TB_LOST: A TB_LOST message puts the module in HOLDOVER and starts an election. (R343) -/
  | tbLost
  /-- ELECT: An ELECT message updates the best candidate and is re-flooded on change. (R343) -/
  | elect (k : ElectMsg)
  /-- ELECTION_SETTLE: 200 µs after the last change the election settles and MASTER_PORT is chosen. (R343) -/
  | electionSettle
  /-- TB_REPORT: A follower's path-delay report sets the master's TIMEBASE_LEAD_NS. (R343) -/
  | tbReport (a : Nat)
  /-- TIMEBASE_SELF_MASTER: With no link up 10 s into stage TIMEBASE the timebase locks self-mastered. (R390) -/
  | timebaseSelfMaster
  /-- OP_CLEAR_COUNTERS: The port complex's error, replay, reject and transit counters are cleared. (R346) -/
  | opClearCounters (p : Path) (f : Field)
  /-- RETRAIN: The selected link returns to TUNING. (R346) -/
  | retrain (p : Path) (f : Field)
  /-- WRITE_TREE: OP_TREE_DATA is written to the port's tree entry for the RID. (R337) -/
  | writeTree (p : Path) (f : Field)
  /-- OP_NODE_ID_WRITE: A write sets the node number, or is discarded while any link is up. (R332) -/
  | opNodeIdWrite (p : Path) (v : Word)
  /-- OP_RT_DATA_WRITE: A write to OP_RT_DATA sets the route entry selected by OP_RT_SEL. (R347) -/
  | opRtDataWrite (p : Path) (v : Word)
  /-- OP_LINK_EN_WRITE: Enabling or disabling a link brings it up or darkens its transmit within 500 ns. (R322) -/
  | opLinkEnWrite (p : Path) (f : Field) (v : Word)
  /-- APERTURE_READ: A BAR2 read returns object bytes, or all ones on a fault. (R354) -/
  | apertureRead (h : HostId) (a : BitVec 36) (n : Nat) (x : MeshStatus)
  /-- APERTURE_WRITE: A posted BAR2 write becomes a mesh WRITE into the bound object. (R355) -/
  | apertureWrite (h : HostId) (a : BitVec 36) (d : List Byte) (x : MeshStatus)
  /-- HP_FIELD_WIN_WRITE: A write moves the port's BAR0 field window for later accesses. (R352) -/
  | hpFieldWinWrite (p : Path) (h : HostId) (v : Word)
  /-- BIND_AP: A BAR2 aperture begins binding to an object copy and pins it. (R353) -/
  | bindAp (p : Path) (h : HostId)
  /-- BIND_AP_DONE: The bind completes with OK or an error once the descriptor is read. (R353) -/
  | bindApDone (h : HostId)
  /-- UNBIND_AP: An aperture is unbound and its pin released. (R353) -/
  | unbindAp (p : Path) (h : HostId)
  /-- ASSIGN_CHANNEL: A host channel is assigned to a paddock. (R356) -/
  | assignChannel (p : Path) (h : HostId)
  /-- HP_CLEAR_COUNTERS: HP_DENIED, HP_AP_FAULT and HP_EVT_SENT are cleared. (R366) -/
  | hpClearCounters (p : Path) (h : HostId)
  /-- CLAIM: A host claims or extends a lease. (R357) -/
  | claim (p : Path)
  /-- RENEW: The holder extends its lease. (R357) -/
  | renew (p : Path)
  /-- RELEASE: The holder ends its lease at once. (R357) -/
  | release (p : Path)
  /-- LEASE_WARN: Three quarters of PERIOD after the last CLAIM or RENEW, LEASE_WARN fires. (R357) -/
  | leaseWarn (i : Fin 5)
  /-- LEASE_EXPIRE: A lease ends after its cycle of expiry, ending bindings and channels and possibly requesting HOLD. (R358) -/
  | leaseExpire (i : Fin 5)
  /-- SUBMIT: A plan slot begins taking a pin on its image object. (R359) -/
  | submit (p : Path)
  /-- SUBMIT_DONE: Once the pin is taken the slot records the image and enters PENDING. (R359) -/
  | submitDone (n : Paddock)
  /-- WITHDRAW: A PENDING slot releases its pin and returns to EMPTY. (R359) -/
  | withdraw (p : Path)
  /-- PS_STOP: A plan slot's plan is stopped at the next boundary, at once, or withdrawn. (R361) -/
  | psStop (p : Path)
  /-- PERST_ASSERT: A port's PERST_N resets its endpoint, stops its channels and ends bindings and leases. (R358) -/
  | perstAssert (h : HostId)
  /-- PERST_DEASSERT: The endpoint leaves reset and selects common or separate reference clocking. (R434) -/
  | perstDeassert (h : HostId) (b : Bool)
  /-- DL_DOWN: A port's link goes down, ending its host's leases, bindings and host transfers. (R358) -/
  | dlDown (h : HostId)
  /-- INPUT_SAMPLE: Every 10 µs the input voltage and power are measured and warnings set. (R369) -/
  | inputSample (v : Nat) (w : Nat) (k : List Nat)
  /-- INPUT_FAULT: Input out of 700–880 V for 100 µs removes field power and sets the latch. (R369) -/
  | inputFault (b : Bool)
  /-- FUSE_SHORT: A field drawing over 4.0 A trips its fuse in under 5 µs and the field is lost. (R371) -/
  | fuseShort (f : Field)
  /-- FUSE_OVERLOAD: Current above PT_FUSE_LIMIT for 1 ms trips the field's fuse. (R371) -/
  | fuseOverload (f : Field)
  /-- TEMP_SAMPLE: Every 10 µs each sensor is compared with its thresholds. (R380) -/
  | tempSample (f : Field) (t : FieldTemps) (u : HarnessTemps)
  /-- THROTTLE_STEP: Each 1 ms at or above THROTTLE lowers CEIL_THERM one gait, down to TROT. (R380) -/
  | throttleStep (f : Field)
  /-- CEIL_RELEASE: After 10 ms at or below WARN, CEIL_THERM rises one gait. (R381) -/
  | ceilRelease (f : Field)
  /-- POWER_AVERAGE: Each 1 ms the input power average is compared with the cap and CEIL_POWER adjusted. (R382) -/
  | powerAverage (a : Nat) (k : List Nat)
  /-- GOV_SLOT: Each 100 µs a new governor slot frees the charge limit. (R377) -/
  | govSlot
  /-- GOV_ADMIT: The governor admits a queued raise or wake that fits both limits. (R377) -/
  | govAdmit
  /-- RAIL_RAMP_DONE: A raised rail finishes rising and the divider changes. (R375) -/
  | railRampDone (f : Field)
  /-- REST_WAKE_DONE: A cluster leaving REST reaches WALK after power-up and zero fill. (R375) -/
  | restWakeDone (l : ClLoc)
  /-- ESTOP_ASSERT: ESTOP_N asserted sets the power latch and removes field supplies. (R383) -/
  | estopAssert
  /-- ESTOP_CLEAR: The power latch is cleared and bring-up restarts from field power-up. (R383) -/
  | estopClear (p : Path)
  /-- PWR_EN_ASSERT: PWR_EN asserted with the input in range starts bring-up stage 1. (R433) -/
  | pwrEnAssert (v : Nat)
  /-- PWR_EN_DEASSERT: PWR_EN deasserted removes every domain, HB last. (R383) -/
  | pwrEnDeassert
  /-- PT_CLEAR_COUNTERS: The field power page's peaks and counters are cleared. (R384) -/
  | ptClearCounters (p : Path) (f : Field)
  /-- PG_CLEAR_COUNTERS: PT_INPUT_PEAK and PT_GOV are cleared. (R385) -/
  | pgClearCounters (p : Path)
  /-- STAGE_DONE: A bring-up stage finishes and the next begins. (R386) -/
  | stageDone (k : StageReport)
  /-- STAGE_BUDGET_EXPIRE: A stage's budget expires, failing its unfinished units, and the next stage begins. (R387) -/
  | stageBudgetExpire (k : StageReport)
  /-- HOLD_LOCK_WRITE: Setting or clearing SEC_CTRL.HOLD_LOCK holds or releases stage LOCK. (R389) -/
  | holdLockWrite (p : Path) (v : Word)
  /-- ATTEST: A signed attestation report is written to SEC_BUF. (R398) -/
  | attest (p : Path)
  /-- ADVANCE_SVN: Fuse bits are burned to raise the minimum SVN to the running SVN. (R394) -/
  | advanceSvn (p : Path)
  /-- OWNER_ENROLL: An owner key hash is burned into the lowest blank slot. (R395) -/
  | ownerEnroll (p : Path)
  /-- OWNER_REVOKE: An owner key slot's revocation bit is burned. (R395) -/
  | ownerRevoke (p : Path)
  /-- DEBUG_CHALLENGE: 32 random challenge bytes are written to SEC_BUF. (R400) -/
  | debugChallenge (p : Path)
  /-- CHALLENGE_EXPIRE: A debug challenge becomes invalid after 60 s. (R400) -/
  | challengeExpire
  /-- DEBUG_RESPONSE: A signed response unlocks debug scopes until power-off. (R400) -/
  | debugResponse (p : Path)
  /-- FW_WRITE: An 8 KiB chunk of SEC_BUF is written to a firmware slot. (R401) -/
  | fwWrite (p : Path)
  /-- SAVE_CONFIG: The present record field values are written to the configuration record. (R389) -/
  | saveConfig (p : Path)
  /-- READ_CERT: The device certificate is copied to SEC_BUF. (R396) -/
  | readCert (p : Path)
  /-- SET_BOOT_SLOT: The boot record names the selected firmware slot. (R401) -/
  | setBootSlot (p : Path)
  /-- CAL_SEL_WRITE: Selecting a calibration parameter loads CAL_USER from the record. (R402) -/
  | calSelWrite (p : Path) (v : Word)
  /-- WRITE_USER: CAL_USER is written to the record for the selected parameter. (R392) -/
  | writeUser (p : Path)
  /-- CLEAR_USER: The selected user calibration value is set to 0 in the record. (R402) -/
  | clearUser (p : Path)
  /-- CAL_FLASH_DONE: The calibration flash write completes and the block leaves WRITING. (R402) -/
  | calFlashDone
  /-- MON_START: A monitor is checked, its live values cleared and it enters ARMED. (R408) -/
  | monStart (p : Path) (f : Field) (m : Fin 16)
  /-- MON_STOP: A monitor ends its window as SHORT or returns from ARMED to IDLE. (R408) -/
  | monStop (p : Path) (f : Field) (m : Fin 16)
  /-- MON_SNAPSHOT: The SNAPSHOT command ends a MANUAL window. (R407) -/
  | monSnapshot (p : Path) (f : Field) (m : Fin 16)
  /-- MON_WINDOW_END: At window end live values are copied to snapshots, or discarded under HOLD, and cleared. (R407) -/
  | monWindowEnd (f : Field) (m : Fin 16)
  /-- MON_QUEUE_SAMPLE: Every MON_SAMPLE_PERIOD cycles a QUEUE_DEPTH sample is taken. (R403) -/
  | monQueueSample (f : Field) (m : Fin 16)
  /-- CLEAR_SNAP: The snapshot registers return to reset values and VALID clears. (R409) -/
  | clearSnap (p : Path) (f : Field) (m : Fin 16)
  /-- PADDOCK_RINGS_WRITE: A write reassigns rings to paddocks as a whole, or is discarded. (R420) -/
  | paddockRingsWrite (p : Path) (v : Word)
  /-- EVLOG_SEL_WRITE: A write latches the selected event-log entry into the path's EVLOG_DATA. (R421) -/
  | evlogSelWrite (p : Path) (v : Word)
  /-- SMBUS_BLOCK_READ: An SMBus Block Read returns the selected register, little-endian. (R435) -/
  | smbusBlockRead (a : BitVec 7) (c : Byte)
  /-- CM_CLEAR_COUNTERS: CLEAR_COUNTERS on a cluster memory or field services SRAM page clears CM_CRC. (R422) -/
  | cmClearCounters (p : Path) (m : CmLoc)
  /-- DL_UP: A host port's PCIe link reaches DL_Up, sets HP_LINK and BELOW_MIN, enters LINK_UP and signals PEER_PORT to the other port. (R349) -/
  | dlUp (h : HostId) (k : PcieLink)
  /-- HOST_COMPLETION: A PCIe completion for a host channel's read arrives, delivering data or ending the transfer with READ_FAIL on UR, CA or poison. (R356) -/
  | hostCompletion (h : HostId) (i : Fin 8) (k : HostCpl)
  /-- COMPLETION_TIMEOUT: A request the host port issued gets no completion within 50 ms, and its host transfer ends with READ_FAIL. (R356) -/
  | completionTimeout (h : HostId) (i : Fin 8)
  /-- MVR_READ_ISSUE: A channel issues its next read once the Curb bucket covers it and fewer than 512 reads are outstanding. (R234) -/
  | mvrReadIssue (m : MvLoc)
  /-- WALK_WAKE_DONE: 2 µs after a wake out of WALK the cluster's clock starts and it shows its running gait. (R375) -/
  | walkWakeDone (l : ClLoc)
  /-- VDROOP_SAMPLE: Every 1 µs while a cluster runs, a VDROOP sample of the CORE rail droop is delivered to monitors. (R403) -/
  | vdroopSample (l : ClLoc) (a : Nat)
  /-- CMD_DONE: A long-running security command finishes, its result replaces BUSY, and the block returns to ACTIVE. (R401) -/
  | cmdDone
  /-- HB_POWER_LOSS: The input falls below 500 V or the HB fuse trips, and the module loses all power as at a removal of PWR_EN. (R369) -/
  | hbPowerLoss
  /-- INPUT_RETURN: The input returns to 720–860 V while PWR_EN stays asserted, and bring-up restarts at stage 1. (R433) -/
  | inputReturn (v : Nat)
  /-- PT_RING_REST_WRITE: A write to PT_RING_REST sends a ring in no paddock to REST, or wakes it to WALK through the governor. (R374) -/
  | ptRingRestWrite (p : Path) (v : Word)
  deriving DecidableEq, Repr

end Sys2Proof
end

