-- ==== Sys2Proof/Decode.lean ====
section
/-! DEFINITION. The command that a word spells by the bits of the opcode table. -/
namespace Sys2Proof

/-- No row of the table has bits: commands reach the block as writes, reads, flits, frames and events, each with its own operands, and no word spells one. -/
def decodeTableWord (_nbits _w : Nat) : Option Instr := none

end Sys2Proof
end

