-- ==== Sys2Proof/Machine/Bits.lean ====
section
/-! DEFINITION. Bit fields of words, sparse tables keyed by a number, little-endian bytes, saturating sums. -/
namespace Sys2Proof.Machine

/-- Field [lo + len - 1 : lo] of a number. -/
def bitsOf (v lo len : Nat) : Nat := (v >>> lo) % 2 ^ len
/-- Bit i of a number. -/
def bitOf (v i : Nat) : Bool := Nat.testBit v i
/-- The number with field [lo + len - 1 : lo] set to x. -/
def withBits (v lo len x : Nat) : Nat :=
  v % 2 ^ lo + (x % 2 ^ len) <<< lo + (v >>> (lo + len)) <<< (lo + len)
/-- Field of a register word. -/
def wbits (w : Word) (lo len : Nat) : Nat := bitsOf w.toNat lo len
/-- Bit of a register word. -/
def wbit (w : Word) (i : Nat) : Bool := w.toNat.testBit i
/-- Register word with one field set. -/
def wput (w : Word) (lo len x : Nat) : Word := BitVec.ofNat 32 (withBits w.toNat lo len x)
/-- A number below 2^len read as two's complement. -/
def signOf (len v : Nat) : Int := if v % 2 ^ len < 2 ^ (len - 1) then ((v % 2 ^ len : Nat) : Int) else ((v % 2 ^ len : Nat) : Int) - ((2 ^ len : Nat) : Int)
/-- Two's complement of an integer in len bits. -/
def twos (len : Nat) (x : Int) : Nat := (x % ((2 ^ len : Nat) : Int)).toNat
/-- A sum that stops at the largest value of len bits (the manual's "saturating"). -/
def satAdd (len a b : Nat) : Nat := min (a + b) (2 ^ len - 1)
/-- 1 for true. -/
def b2n (b : Bool) : Nat := if b then 1 else 0

/-- A sparse table: number and value, numbers strictly rising. -/
abbrev Tab (α : Type) := List (Nat × α)
/-- The entry at k, if any. -/
def Tab.find {α : Type} : Tab α → Nat → Option α
  | [], _ => none
  | (j, v) :: r, k => if j = k then some v else Tab.find r k
/-- The entry at k, or the default. -/
def Tab.get {α : Type} (t : Tab α) (k : Nat) (d : α) : α := (Tab.find t k).getD d
/-- The table with v at k. -/
def Tab.set {α : Type} : Tab α → Nat → α → Tab α
  | [], k, v => [(k, v)]
  | (j, u) :: r, k, v =>
    if k < j then (k, v) :: (j, u) :: r
    else if k = j then (k, v) :: r
    else (j, u) :: Tab.set r k v
/-- The table without an entry at k. -/
def Tab.erase {α : Type} (t : Tab α) (k : Nat) : Tab α := t.filter fun p => p.1 ≠ k
/-- The table with f applied to the entry at k (the default where there is none). -/
def Tab.upd {α : Type} (t : Tab α) (k : Nat) (d : α) (f : α → α) : Tab α := Tab.set t k (f (Tab.get t k d))
/-- Numbers strictly rising. -/
def Tab.sorted {α : Type} : Tab α → Bool
  | [] => true
  | [_] => true
  | (j, _) :: (k, v) :: r => decide (j < k) && Tab.sorted ((k, v) :: r)

/-- The list with f applied at position i. -/
def updAt {α : Type} (l : List α) (i : Nat) (f : α → α) : List α := l.modify i f
/-- f applied for every number below n, from 0 on. -/
def times {σ : Type} (n : Nat) (s : σ) (f : Nat → σ → σ) : σ := (List.range n).foldl (fun s i => f i s) s

/-- n bytes of a number, least significant first (registers are little-endian). -/
def leBytes (n v : Nat) : List Byte := (List.range n).map fun i => BitVec.ofNat 8 (v >>> (8 * i))
/-- The number that little-endian bytes spell. -/
def ofLeBytes : List Byte → Nat
  | [] => 0
  | b :: r => b.toNat + 256 * ofLeBytes r
/-- n elements from position i, a default where the list ends. -/
def sliceD {α : Type} (l : List α) (i n : Nat) (d : α) : List α := (List.range n).map fun j => l.getD (i + j) d
/-- The little-endian number of n bytes at position i of a byte list. -/
def leAt (l : List Byte) (i n : Nat) : Nat := ofLeBytes (sliceD l i n 0)

end Sys2Proof.Machine
end

