-- ==== Sys2Proof/Machine/Fp.lean ====
section
/-! DEFINITION. Floating-point formats and their exact arithmetic with one rounding, to nearest even (R98, R128, R129); conversions (R99). -/
namespace Sys2Proof.Machine

/-- A format: exponent and fraction widths, bias, and whether it has Inf and IEEE NaN codes (R128). -/
structure FpFmt where
  we : Nat
  wf : Nat
  bias : Nat
  ieee : Bool
  deriving DecidableEq, Repr

/-- FP64. -/
def fp64 : FpFmt := ⟨11, 52, 1023, true⟩
/-- FP32. -/
def fp32 : FpFmt := ⟨8, 23, 127, true⟩
/-- BF16. -/
def bf16 : FpFmt := ⟨8, 7, 127, true⟩
/-- FP16. -/
def fp16 : FpFmt := ⟨5, 10, 15, true⟩
/-- FP8 E4M3: one NaN magnitude, no Inf. -/
def e4m3 : FpFmt := ⟨4, 3, 7, false⟩
/-- FP8 E5M2. -/
def e5m2 : FpFmt := ⟨5, 2, 15, true⟩
/-- FP6 E3M2. -/
def e3m2 : FpFmt := ⟨3, 2, 3, false⟩
/-- FP6 E2M3. -/
def e2m3 : FpFmt := ⟨2, 3, 1, false⟩
/-- FP4 E2M1. -/
def e2m1 : FpFmt := ⟨2, 1, 1, false⟩

/-- Bits of a format. -/
def FpFmt.bits (f : FpFmt) : Nat := 1 + f.we + f.wf
/-- The magnitude code of Inf in a format that has one. -/
def FpFmt.infMag (f : FpFmt) : Nat := (2 ^ f.we - 1) * 2 ^ f.wf
/-- The largest finite magnitude code: below Inf; in E4M3 below its one NaN code; else all ones (R128). -/
def FpFmt.maxMag (f : FpFmt) : Nat :=
  if f.ieee then f.infMag - 1 else if f.we = 4 then 2 ^ 7 - 2 else 2 ^ (f.we + f.wf) - 1
/-- The canonical NaN (R98, R129). -/
def FpFmt.nanCode (f : FpFmt) : Nat :=
  if f.ieee then f.infMag + (if f.wf = 2 then 2 else 2 ^ (f.wf - 1)) else 2 ^ (f.we + f.wf) - 1
/-- The sign bit as a code. -/
def FpFmt.signCode (f : FpFmt) (neg : Bool) : Nat := if neg then 2 ^ (f.we + f.wf) else 0

/-- A value: NaN, infinity, or ± m × 2^e with the sign kept for zero. -/
inductive FpVal where
  | nan
  | inf (neg : Bool)
  | fin (neg : Bool) (m : Nat) (e : Int)
  deriving DecidableEq, Repr

/-- The value of a code (R128). -/
def FpFmt.decode (f : FpFmt) (c : Nat) : FpVal :=
  let neg := bitOf c (f.we + f.wf)
  let mag := c % 2 ^ (f.we + f.wf)
  let e := mag / 2 ^ f.wf
  let fr := mag % 2 ^ f.wf
  if f.ieee && mag = f.infMag then .inf neg
  else if (f.ieee && decide (f.infMag < mag)) || (!f.ieee && f.we = 4 && mag = 127) then .nan
  else if e = 0 then .fin neg fr (1 - (f.bias : Int) - (f.wf : Int))
  else .fin neg (2 ^ f.wf + fr) ((e : Int) - (f.bias : Int) - (f.wf : Int))

/-- VSTAT flags that an operation raises, as a mask (R96). -/
def vNV : Nat := 1
/-- Division by zero. -/
def vDZ : Nat := 2
/-- Overflow. -/
def vOF : Nat := 4
/-- Underflow. -/
def vUF : Nat := 8
/-- A conversion saturated. -/
def vSAT : Nat := 128

/-- ⌊log₂(n ÷ d)⌋ for positive n and d. -/
def log2Q (n d : Nat) : Int :=
  let k : Int := (Nat.log2 n : Int) - (Nat.log2 d : Int)
  let ge := if k ≥ 0 then decide (n ≥ d * 2 ^ k.toNat) else decide (n * 2 ^ (-k).toNat ≥ d)
  if ge then k else k - 1

/-- (n ÷ d) × 2^e rounded to nearest even to an integer. -/
def roundRat (n d : Nat) (e : Int) : Nat :=
  let n' := if e ≥ 0 then n * 2 ^ e.toNat else n
  let d' := if e ≥ 0 then d else d * 2 ^ (-e).toNat
  let q := n' / d'
  let r := n' % d'
  if 2 * r > d' ∨ (2 * r = d' ∧ q % 2 = 1) then q + 1 else q

/-- The magnitude code of (n ÷ d) × 2^e, rounded once to nearest even as if the exponent were unbounded above. -/
def FpFmt.roundMag (f : FpFmt) (n d : Nat) (e : Int) : Nat :=
  if n = 0 then 0
  else
    let emin : Int := 1 - (f.bias : Int)
    let q := max (log2Q n d + e) emin - (f.wf : Int)
    let m := roundRat n d (e - q)
    ((q + (f.wf : Int) + (f.bias : Int) - 1) * ((2 ^ f.wf : Nat) : Int)).toNat + m

/-- A non-zero exact magnitude below the smallest normal (VSTAT.UF, R96). -/
def FpFmt.tiny (f : FpFmt) (n d : Nat) (e : Int) : Bool := n ≠ 0 && decide (log2Q n d + e < 1 - (f.bias : Int))

/-- ± (n ÷ d) × 2^e rounded once; overflow gives ±Inf and OF, a tiny exact result UF (R96, R98). -/
def FpFmt.round (f : FpFmt) (neg : Bool) (n d : Nat) (e : Int) : Nat × Nat :=
  let mag := f.roundMag n d e
  let uf := if f.tiny n d e then vUF else 0
  if mag ≥ f.infMag then (f.signCode neg + f.infMag, vOF) else (f.signCode neg + mag, uf)

/-- An exact dyadic sum rounded once; an exact zero sum is +0 unless both terms were −0. -/
def FpFmt.roundInt (f : FpFmt) (x : Int) (e : Int) (zeroNeg : Bool) : Nat × Nat :=
  if x = 0 then (f.signCode zeroNeg, 0) else f.round (decide (x < 0)) x.natAbs 1 e

/-- The canonical NaN; NV unless an operand was NaN (R96). -/
def FpFmt.invalid (f : FpFmt) (anyNan : Bool) : Nat × Nat := (f.nanCode, if anyNan then 0 else vNV)

/-- A signed integer mantissa. -/
def sgnInt (neg : Bool) (m : Nat) : Int := if neg then -(m : Int) else (m : Int)
/-- Exact sum of two dyadics: mantissa and exponent. -/
def dyAdd (x : Int) (ex : Int) (y : Int) (ey : Int) : Int × Int :=
  let e := min ex ey
  (x * 2 ^ (ex - e).toNat + y * 2 ^ (ey - e).toNat, e)

/-- The negative of a value. -/
def FpVal.negate : FpVal → FpVal
  | .nan => .nan
  | .inf s => .inf (!s)
  | .fin s m e => .fin (!s) m e
/-- The magnitude of a value. -/
def FpVal.absv : FpVal → FpVal
  | .nan => .nan
  | .inf _ => .inf false
  | .fin _ m e => .fin false m e
/-- Whether a value is NaN. -/
def FpVal.isNan : FpVal → Bool
  | .nan => true
  | _ => false

/-- Exact product of values (before rounding); NaN for Inf × 0. -/
def FpVal.mul : FpVal → FpVal → FpVal
  | .nan, _ | _, .nan => .nan
  | .inf s, .inf t => .inf (s != t)
  | .inf s, .fin t m _ => if m = 0 then .nan else .inf (s != t)
  | .fin s m _, .inf t => if m = 0 then .nan else .inf (s != t)
  | .fin s m e, .fin t n k => .fin (s != t) (m * n) (e + k)

/-- The exact sum of two values, rounded once. -/
def FpFmt.sum (f : FpFmt) (a b : FpVal) (anyNan : Bool) : Nat × Nat :=
  match a, b with
  | .nan, _ | _, .nan => f.invalid anyNan
  | .inf s, .inf t => if s = t then (f.signCode s + f.infMag, 0) else f.invalid anyNan
  | .inf s, _ => (f.signCode s + f.infMag, 0)
  | _, .inf t => (f.signCode t + f.infMag, 0)
  | .fin s m e, .fin t n k =>
    let (x, ex) := dyAdd (sgnInt s m) e (sgnInt t n) k
    f.roundInt x ex (s && t)

/-- A value rounded to a format. -/
def FpFmt.ofVal (f : FpFmt) (v : FpVal) (anyNan : Bool) : Nat × Nat :=
  match v with
  | .nan => f.invalid anyNan
  | .inf s => (f.signCode s + f.infMag, 0)
  | .fin s m e => f.round s m 1 e

/-- a + b. -/
def FpFmt.add (f : FpFmt) (a b : Nat) : Nat × Nat :=
  f.sum (f.decode a) (f.decode b) ((f.decode a).isNan || (f.decode b).isNan)
/-- a − b. -/
def FpFmt.sub (f : FpFmt) (a b : Nat) : Nat × Nat :=
  f.sum (f.decode a) (f.decode b).negate ((f.decode a).isNan || (f.decode b).isNan)
/-- a × b. -/
def FpFmt.mul (f : FpFmt) (a b : Nat) : Nat × Nat :=
  f.ofVal ((f.decode a).mul (f.decode b)) ((f.decode a).isNan || (f.decode b).isNan)
/-- ± (a × b) ± c, rounded once. -/
def FpFmt.fma (f : FpFmt) (a b c : Nat) (negP negC : Bool) : Nat × Nat :=
  let p := (f.decode a).mul (f.decode b)
  let p := if negP then p.negate else p
  let c' := f.decode c
  f.sum p (if negC then c'.negate else c') ((f.decode a).isNan || (f.decode b).isNan || c'.isNan)

/-- a ÷ b, correctly rounded; DZ for a finite non-zero value over zero. -/
def FpFmt.div (f : FpFmt) (a b : Nat) : Nat × Nat :=
  match f.decode a, f.decode b with
  | .nan, _ | _, .nan => (f.nanCode, 0)
  | .inf _, .inf _ => f.invalid false
  | .inf s, .fin t _ _ => (f.signCode (s != t) + f.infMag, 0)
  | .fin s _ _, .inf t => (f.signCode (s != t), 0)
  | .fin s m e, .fin t n k =>
    if n = 0 then (if m = 0 then f.invalid false else (f.signCode (s != t) + f.infMag, vDZ))
    else f.round (s != t) m n (e - k)

/-- Integer square root by one bit after another, from bit k down. -/
def isqrtFrom (n : Nat) : Nat → Nat → Nat
  | 0, r => if (r + 1) * (r + 1) ≤ n then r + 1 else r
  | k + 1, r => isqrtFrom n k (if (r + 2 ^ (k + 1)) * (r + 2 ^ (k + 1)) ≤ n then r + 2 ^ (k + 1) else r)
/-- ⌊√n⌋. -/
def isqrt (n : Nat) : Nat := isqrtFrom n (Nat.log2 n / 2 + 1) 0

/-- √a, correctly rounded. -/
def FpFmt.sqrt (f : FpFmt) (a : Nat) : Nat × Nat :=
  match f.decode a with
  | .nan => (f.nanCode, 0)
  | .inf s => if s then f.invalid false else (f.infMag, 0)
  | .fin s m e =>
    if m = 0 then (f.signCode s, 0)
    else if s then f.invalid false
    else
      let sh := 2 * (f.wf + 3) + (e % 2).toNat
      let n := m * 2 ^ sh
      let r := isqrt n
      let st := if r * r = n then 0 else 1
      f.round false (2 * r + st) 1 ((e - (sh : Int)) / 2 - 1)

/-- A code's place in the order of the numbers, −0 below +0. -/
def FpFmt.key (f : FpFmt) (a : Nat) : Int :=
  let mag := a % 2 ^ (f.we + f.wf)
  if bitOf a (f.we + f.wf) then -(mag : Int) - 1 else (mag : Int)
/-- A code's place in the order of values, −0 equal to +0. -/
def FpFmt.vkey (f : FpFmt) (a : Nat) : Int := sgnInt (bitOf a (f.we + f.wf)) (a % 2 ^ (f.we + f.wf))
/-- Whether a code is a NaN. -/
def FpFmt.isNan (f : FpFmt) (a : Nat) : Bool := (f.decode a).isNan
/-- Minimum; NaN if either is NaN (R98). -/
def FpFmt.minc (f : FpFmt) (a b : Nat) : Nat × Nat :=
  if f.isNan a || f.isNan b then (f.nanCode, 0) else (if f.key a ≤ f.key b then a else b, 0)
/-- Maximum; NaN if either is NaN (R98). -/
def FpFmt.maxc (f : FpFmt) (a b : Nat) : Nat × Nat :=
  if f.isNan a || f.isNan b then (f.nanCode, 0) else (if f.key a ≥ f.key b then a else b, 0)

/-- Conversion between FP formats: exact or rounded once; NaN becomes canonical (R99, R136). -/
def FpFmt.convert (src dst : FpFmt) (a : Nat) : Nat × Nat :=
  match src.decode a with
  | .nan => (dst.nanCode, 0)
  | v => dst.ofVal v false

/-- FP to a 32-bit integer: nearest even or toward zero, saturating; NaN gives 0 and NV (R99). -/
def FpFmt.toInt32 (f : FpFmt) (a : Nat) (rtz signed : Bool) : Nat × Nat :=
  let lo : Int := if signed then -(2 ^ 31) else 0
  let hi : Int := if signed then 2 ^ 31 - 1 else 2 ^ 32 - 1
  match f.decode a with
  | .nan => (0, vNV)
  | .inf s => (twos 32 (if s then lo else hi), vSAT)
  | .fin s m e =>
    let q := if rtz then (if e ≥ 0 then m * 2 ^ e.toNat else m / 2 ^ (-e).toNat) else roundRat m 1 e
    let x := sgnInt s q
    if x < lo then (twos 32 lo, vSAT) else if x > hi then (twos 32 hi, vSAT) else (twos 32 x, 0)

/-- An integer to FP, rounded once (R99). -/
def FpFmt.ofInt (f : FpFmt) (x : Int) : Nat × Nat := f.roundInt x 0 false

end Sys2Proof.Machine
end

