-- ==== Sys2Proof/Machine/Numerics.lean ====
section
/-! DEFINITION. Block scales and the narrow write path (R130 to R134), the numeric format word (R137), the aligned-integer form (R138 to R142), the random generator (R143). -/
namespace Sys2Proof.Machine

/-- The value of a block scale byte as mantissa and exponent; none for the NaN code 0xFF (R130). -/
def scaleVal (e5m3 : Bool) (c : Nat) : Option (Nat × Int) :=
  if c = 255 then none
  else if e5m3 then
    (if c / 8 = 0 then some (c % 8, -17) else some (8 + c % 8, (c / 8 : Nat) - 18))
  else some (1, (c : Int) - 127)

/-- Block sizes by code: 16, 32, 64, 128 (R73). -/
def blockSize (code : Nat) : Nat := 16 * 2 ^ (code % 4)

/-- The narrow formats by NFW code 4 to 8 (R137). -/
def nfwFmt (code : Nat) : FpFmt :=
  match code with
  | 0 => fp32 | 1 => bf16 | 2 => fp16 | 3 => fp64 | 4 => e4m3 | 5 => e5m2 | 6 => e3m2 | 7 => e2m3 | _ => e2m1
/-- A format code names a narrow, block-scaled format. -/
def nfwNarrow (code : Nat) : Bool := decide (4 ≤ code ∧ code ≤ 8)
/-- Bits of an element of a format code (R137, R141). -/
def nfwBits (code : Nat) : Nat := if code = 9 then 48 else if code = 10 then 32 else (nfwFmt code).bits
/-- A numeric format word with no reserved code and no reserved bit (R137). -/
def nfwOk (w : Nat) : Bool := decide (w % 16 ≤ 10) && bitsOf w 10 2 = 0 && bitsOf w 24 8 = 0
/-- Format code of an NFW. -/
def nfwFormat (w : Nat) : Nat := w % 16
/-- Block size of an NFW. -/
def nfwBlock (w : Nat) : Nat := blockSize (bitsOf w 4 2)
/-- Scale format of an NFW: true for E5M3. -/
def nfwE5M3 (w : Nat) : Bool := bitOf w 6
/-- TWO_PASS of an NFW. -/
def nfwTwoPass (w : Nat) : Bool := bitOf w 7

/-- a × 2^ea ≤ b × 2^eb, exactly. -/
def dyLe (a : Nat) (ea : Int) (b : Nat) (eb : Int) : Bool :=
  let e := min ea eb
  decide (a * 2 ^ (ea - e).toNat ≤ b * 2 ^ (eb - e).toNat)

/-- The larger of two magnitudes. -/
def dyMax (x y : Nat × Int) : Nat × Int := if dyLe x.1 x.2 y.1 y.2 then y else x

/-- The largest finite magnitude of a list of values, as mantissa and exponent (0 if none). -/
def amaxOf (vs : List FpVal) : Nat × Int :=
  vs.foldl (fun a v => match v with | .fin _ m e => dyMax a (m, e) | _ => a) (0, 0)

/-- The block's scale code from its largest finite magnitude amax, taken against a tensor scale t: the smallest finite scale with amax ≤ maxfin × s × t, clamped to the largest; 1.0 when amax is 0 (R132, R134). -/
def chooseScale (f : FpFmt) (e5m3 : Bool) (amax : Nat × Int) (t : Nat × Int) : Nat :=
  if amax.1 = 0 then (if e5m3 then 0x78 else 0x7F)
  else match f.decode f.maxMag with
    | .fin _ mm me =>
      match (List.range 255).find? (fun c => match scaleVal e5m3 c with
          | some (sm, se) => sm ≠ 0 && dyLe amax.1 amax.2 (mm * sm * t.1) (me + se + t.2)
          | none => false) with
      | some c => c
      | none => 254
    | _ => 254

/-- One element written to a narrow format: code, saturation, underflow, and VSTAT flags (R133). -/
def narrowElem (f : FpFmt) (e5m3 : Bool) (scale : Nat) (t : Nat × Int) (v : FpVal) : Nat × Bool × Bool × Nat :=
  match v with
  | .nan => (if f.we = 4 ∨ f.we = 5 then f.nanCode else 0, false, false, 0)
  | .inf s => if f.ieee then (f.signCode s + f.infMag, false, false, 0) else (f.signCode s + f.maxMag, true, false, vSAT)
  | .fin s m e =>
    match scaleVal e5m3 scale with
    | none => (0, false, false, 0)
    | some (sm, se) =>
      let n := m
      let d := sm * t.1
      let ex := e - se - t.2
      let mag := f.roundMag n d ex
      let uf := if f.tiny n d ex then vUF else 0
      if mag > f.maxMag then (f.signCode s + f.maxMag, true, false, vSAT ||| uf)
      else (f.signCode s + mag, false, mag = 0 && n ≠ 0, uf)

/-- One written element: its code, and whether it saturated or underflowed. -/
structure NarrowOut where
  code : Nat
  sat : Bool
  under : Bool
  flags : Nat
  deriving DecidableEq, Repr

/-- A block written by the hardware write path: its scale byte and its elements; in FP6 and FP4 a NaN makes the scale 0xFF and every element +0 (R132, R133). -/
def writeBlock (f : FpFmt) (e5m3 : Bool) (t : Nat × Int) (vs : List FpVal) : Nat × List NarrowOut :=
  let sc := chooseScale f e5m3 (amaxOf vs) t
  if f.we < 4 ∧ vs.any (·.isNan) then (255, vs.map fun _ => ⟨0, false, false, 0⟩)
  else (sc, vs.map fun v => let (c, s, u, fl) := narrowElem f e5m3 sc t v; ⟨c, s, u, fl⟩)

/-- The decoded value of a narrow element under its scale: q × s; NaN scale gives NaN; Inf under a zero scale gives NaN (R131). -/
def narrowVal (f : FpFmt) (e5m3 : Bool) (scale code : Nat) : FpVal :=
  match scaleVal e5m3 scale with
  | none => .nan
  | some (sm, se) => (f.decode code).mul (.fin false sm se)

/-- The tensor scale T of a two-pass write as an FP32 code: amax ÷ (maxfin × 2^16) rounded toward +∞ for E5M3, 1.0 otherwise (R134). -/
def tensorScale (f : FpFmt) (e5m3 : Bool) (amax : Nat × Int) : Nat :=
  if amax.1 = 0 || !e5m3 then 0x3F800000
  else match f.decode f.maxMag with
    | .fin _ mm me =>
      let c := fp32.roundMag amax.1 mm (amax.2 - me - 16)
      match fp32.decode c with
      | .fin _ m e => if dyLe amax.1 amax.2 (m * mm) (e + me + 16) then min c fp32.maxMag else min (c + 1) fp32.maxMag
      | _ => fp32.maxMag
    | _ => 0x3F800000

/-- The mantissa and exponent of a finite FP32 code. -/
def fp32Mag (c : Nat) : Nat × Int :=
  match fp32.decode c with
  | .fin _ m e => (m, e)
  | _ => (1, 0)

/-- Bits [lo + b - 1 : lo] of a packed byte list, as an element code. -/
def packedElem (bytes : List Byte) (b i : Nat) : Nat :=
  let lo := i * b
  bitsOf (leAt bytes (lo / 8) ((lo % 8 + b + 7) / 8)) (lo % 8) b
/-- Element codes packed b bits each, least significant first. -/
def packElems (b : Nat) (codes : List Nat) : Nat := codes.foldr (fun c acc => c % 2 ^ b + acc * 2 ^ b) 0
/-- Element codes packed into bytes. -/
def packBytes (b : Nat) (codes : List Nat) : List Byte := leBytes ((codes.length * b + 7) / 8) (packElems b codes)

/-- A contributor's block exponent byte over the elements of a block (R138). -/
def aifExponent (vs : List FpVal) : Nat :=
  if vs.any (fun v => match v with | .fin _ _ _ => false | _ => true) then 255
  else
    let (m, e) := amaxOf vs
    if m = 0 then 0
    else
      let b := max (log2Q m 1 + e + 1) (-126)
      if b > 127 then 255 else (b + 127).toNat

/-- Width and headroom of an AIF variant: AIF-48 or AIF-32. -/
def aifWidth (w48 : Bool) : Nat := if w48 then 48 else 32
/-- The exponent of the LSB weight λ = 2^(b − (W − 1 − H)) (R141). -/
def aifLsb (w48 : Bool) (c : Nat) : Int := (c : Int) - 127 - (if w48 then 31 else 19)

/-- An element packed as trunc(x ÷ λ) in W-bit two's complement; 0 under agreed byte 0x00 or 0xFF (R140). -/
def aifPack (w48 : Bool) (c : Nat) (v : FpVal) : Nat :=
  if c = 0 ∨ c = 255 then 0
  else match v with
    | .fin s m e =>
      let k := e - aifLsb w48 c
      let q := if k ≥ 0 then m * 2 ^ k.toNat else m / 2 ^ (-k).toNat
      twos (aifWidth w48) (sgnInt s q)
    | _ => 0

/-- A summed element decoded to FP32, with saturation, underflow (R142). -/
def aifDecode (w48 : Bool) (c s : Nat) : NarrowOut :=
  if c = 0 then ⟨0, false, false, 0⟩
  else if c = 255 then ⟨fp32.nanCode, false, false, 0⟩
  else
    let x := signOf (aifWidth w48) s
    let (code, fl) := fp32.roundInt x (aifLsb w48 c) false
    ⟨code, decide (fl = vOF), decide (x ≠ 0) && decide (code % 2 ^ 31 = 0), fl⟩

/-- mix of the generator (R143). -/
def rngMix (x : BitVec 64) : BitVec 64 :=
  let x := (x ^^^ (x >>> 30)) * 0xBF58476D1CE4E5B9#64
  let x := (x ^^^ (x >>> 27)) * 0x94D049BB133111EB#64
  x ^^^ (x >>> 31)
/-- The generator: 32 bits from seed, step, tensor and element (R143). -/
def rngGen (seed step tensor element : BitVec 64) : BitVec 32 :=
  let k := rngMix (seed ^^^ 0x9E3779B97F4A7C15#64)
  let k := rngMix (k ^^^ step)
  let k := rngMix (k ^^^ tensor)
  let z := rngMix (k ^^^ element)
  let z := rngMix (z + k)
  (z >>> 32).truncate 32

end Sys2Proof.Machine
end

