-- ==== Sys2Proof/Config.lean ====
section
/-! DEFINITION. What the manual leaves to each module or leaves open: constants without a body, so that nothing can be proved of their values. -/
namespace Sys2Proof

/-- A fresh open value for every number: the machine counts them (notes/assumptions/1.md). -/
opaque Config.freeValue : Nat → BitVec 64
/-- The lane each group of a stitch plane bypasses by the fused map, 31 for none: set at test (R180). -/
opaque Config.fusedLane : BitVec 32 → BitVec 5
/-- FP32 coefficients of the transcendental tables: function, entry, which of c0 to c2; held in ROM and not listed (R118). -/
opaque Config.ttCoeff : Nat → Nat → Nat → BitVec 32
/-- The identity key's HSS signature of a message at a signature index (R396, R398; notes/assumptions/53.md). -/
opaque Config.hssSign : Nat → List (BitVec 8) → List (BitVec 8)
/-- The bytes that MEAS_FUSE, MEAS_REPAIR and MEAS_CONFIG digest, whose encoding the manual does not give: from the fuses (minimum SVN, owner hashes, revoked slots), from the repair entries and retired units, from the locked fields and user values (R398; notes/assumptions/53.md). -/
opaque Config.fuseBytes : Nat → List (Nat × BitVec 256) → List Nat → List (BitVec 8)
opaque Config.repairBytes : List Nat → List (Nat × List (Nat × Nat)) → List Nat → List (BitVec 8)
opaque Config.configBytes : List (Nat × BitVec 32) → List (Nat × Nat) → List (BitVec 8)
/-- Where a plan segment holds its token values, its item table and its slack list (offset and number of entries), which the manual does not lay out (R33; notes/assumptions/54.md). -/
opaque Config.segTokens : List (BitVec 8) → Nat
opaque Config.segItems : List (BitVec 8) → Nat × Nat
opaque Config.segSlack : List (BitVec 8) → Nat × Nat
/-- What an optical lane's sensors read: field, lane, and 0 for the received power, 1 for the heater (R330, R347; notes/assumptions/56.md). -/
opaque Config.sensed : Nat → Nat → Nat → BitVec 16

end Sys2Proof
end

