-- ==== Sys2Proof/Machine/RegTable.lean ====
section
/-! DEFINITION. The block-specific registers of every page, as the register tables of the manual's chapters give them:
offset, type, bits a write sets, reset value. A reset the manual leaves undefined (—) stands as 0 here (notes/assumptions/3.md). -/
namespace Sys2Proof.Machine

/-- Register types (R9). -/
inductive RegType where
  | ro | rw | w1c | wo | rwl
  deriving DecidableEq, Repr

/-- The kinds of register page (R418). -/
inductive PageKind where
  | timebase | score | me | mcore | vcore | ve | watch | router | msite | placement | placeGlobal | mover | ucomplex | uengine | calliope | stepCommit | farrier | port | optGlobal | hostPort | hostGlobal | fieldPower | powerGlobal | security | calib | monitor | module | evlog | clmem
  deriving DecidableEq, Repr

/-- One register of a page: its offset, type, the bits a write sets, its reset value. -/
structure RegRow where
  off : Nat
  typ : RegType
  mask : Nat
  reset : Nat
  deriving DecidableEq, Repr

def Reg.timebase.stridePeriod : Nat := 0x100
def Reg.timebase.stretchIncrement : Nat := 0x104
def Reg.timebase.strideCountLo : Nat := 0x108
def Reg.timebase.strideCountHi : Nat := 0x10C
def Reg.timebase.strideOffset : Nat := 0x110
def Reg.timebase.curStrideLen : Nat := 0x114
def Reg.timebase.stretchCountLo : Nat := 0x118
def Reg.timebase.stretchCountHi : Nat := 0x11C
def Reg.timebase.tbRole : Nat := 0x120
def Reg.timebase.timebaseLeadNs : Nat := 0x124
def Reg.timebase.stridePeriodNext : Nat := 0x128
def Reg.timebase.stretchIncrementNext : Nat := 0x12C
def Reg.timebase.applyAtLo : Nat := 0x130
def Reg.timebase.applyAtHi : Nat := 0x134
def Reg.timebase.stretchReqEn : Nat := 0x138
def Reg.timebase.stretchWithheld : Nat := 0x13C
def Reg.timebase.overrunTotal : Nat := 0x140

def Reg.score.stepBaseLo : Nat := 0x100
def Reg.score.stepBaseHi : Nat := 0x104
def Reg.score.slackNs : Nat := 0x108
def Reg.score.overrunCount : Nat := 0x10C
def Reg.score.maxCarryNs : Nat := 0x110
def Reg.score.stretchReqCount : Nat := 0x114
def Reg.score.tokenEvents : Nat := 0x118
def Reg.score.l2pCluster : Nat := 0x120
def Reg.score.l2pMcore0 : Nat := 0x124
def Reg.score.l2pMcore1 : Nat := 0x128
def Reg.score.l2pMcore2 : Nat := 0x12C
def Reg.score.l2pMcore3 : Nat := 0x130
def Reg.score.l2pEpoch : Nat := 0x134
def Reg.score.sqErrStatus : Nat := 0x140
def Reg.score.sqErrItem : Nat := 0x144
def Reg.score.sqErrStride : Nat := 0x148
def Reg.score.sqErrCount : Nat := 0x14C
def Reg.score.sqReplays : Nat := 0x150
def Reg.score.sqReplayMax : Nat := 0x154
def Reg.score.sqTaint0 : Nat := 0x160
def Reg.score.sqTaint1 : Nat := 0x164
def Reg.score.sqTaint2 : Nat := 0x168
def Reg.score.sqTaint3 : Nat := 0x16C
def Reg.score.sqSyncTaint : Nat := 0x180

def Reg.me.meGeometry : Nat := 0x100
def Reg.me.meRepairFused : Nat := 0x104
def Reg.me.meRepairSoft : Nat := 0x108
def Reg.me.meRepairEff : Nat := 0x10C
def Reg.me.meStatus : Nat := 0x110
def Reg.me.mePassCountLo : Nat := 0x114
def Reg.me.mePassCountHi : Nat := 0x118
def Reg.me.meRowCountLo : Nat := 0x11C
def Reg.me.meRowCountHi : Nat := 0x120
def Reg.me.meStallTile : Nat := 0x124
def Reg.me.meStallLoad : Nat := 0x128
def Reg.me.meStallAcc : Nat := 0x12C
def Reg.me.meStallFeed : Nat := 0x130
def Reg.me.meParityCount : Nat := 0x134
def Reg.me.meTestResult : Nat := 0x138

def Reg.mcore.mcStatus : Nat := 0x100
def Reg.mcore.mcQueueDepth : Nat := 0x104
def Reg.mcore.mcStartOvf : Nat := 0x108
def Reg.mcore.mcLmemCrc : Nat := 0x10C
def Reg.mcore.mcChainStallIn : Nat := 0x110
def Reg.mcore.mcChainStallOut : Nat := 0x114
def Reg.mcore.mcChainTagErr : Nat := 0x118
def Reg.mcore.mcStart0 : Nat := 0x120
def Reg.mcore.mcStart1 : Nat := 0x124
def Reg.mcore.mcStart2 : Nat := 0x128
def Reg.mcore.mcStart3 : Nat := 0x12C
def Reg.mcore.mcSync0 : Nat := 0x140
def Reg.mcore.mcSync1 : Nat := 0x144
def Reg.mcore.mcSync2 : Nat := 0x148
def Reg.mcore.mcSync3 : Nat := 0x14C

def Reg.vcore.vcStatus : Nat := 0x100
def Reg.vcore.vcQueueDepth : Nat := 0x104
def Reg.vcore.vcStartOvf : Nat := 0x108
def Reg.vcore.vcAccbusWait : Nat := 0x10C
def Reg.vcore.vcStart0 : Nat := 0x120
def Reg.vcore.vcStart1 : Nat := 0x124
def Reg.vcore.vcStart2 : Nat := 0x128
def Reg.vcore.vcStart3 : Nat := 0x12C
def Reg.vcore.vcSync0 : Nat := 0x140
def Reg.vcore.vcSync1 : Nat := 0x144
def Reg.vcore.vcSync2 : Nat := 0x148
def Reg.vcore.vcSync3 : Nat := 0x14C

def Reg.ve.veConfig : Nat := 0x100
def Reg.ve.veStatus : Nat := 0x104
def Reg.ve.veVl : Nat := 0x108
def Reg.ve.veVstat : Nat := 0x10C
def Reg.ve.vePc : Nat := 0x110
def Reg.ve.veInstrLo : Nat := 0x114
def Reg.ve.veInstrHi : Nat := 0x118
def Reg.ve.veStallDep : Nat := 0x11C
def Reg.ve.veStallMem : Nat := 0x120
def Reg.ve.veStallSync : Nat := 0x124
def Reg.ve.veParityCount : Nat := 0x128
def Reg.ve.veLmemCrc : Nat := 0x12C
def Reg.ve.ttSelect : Nat := 0x130
def Reg.ve.ttData0 : Nat := 0x134
def Reg.ve.ttData1 : Nat := 0x138
def Reg.ve.ttData2 : Nat := 0x13C

def Reg.watch.nwSel : Nat := 0x100
def Reg.watch.nwBaseLo : Nat := 0x104
def Reg.watch.nwBaseHi : Nat := 0x108
def Reg.watch.nwLen : Nat := 0x10C
def Reg.watch.nwRangeCfg : Nat := 0x110
def Reg.watch.nwSlotCfg : Nat := 0x114
def Reg.watch.nwWrittenLo : Nat := 0x120
def Reg.watch.nwWrittenHi : Nat := 0x124
def Reg.watch.nwZeroLo : Nat := 0x128
def Reg.watch.nwZeroHi : Nat := 0x12C
def Reg.watch.nwSatLo : Nat := 0x130
def Reg.watch.nwSatHi : Nat := 0x134
def Reg.watch.nwUnderLo : Nat := 0x138
def Reg.watch.nwUnderHi : Nat := 0x13C
def Reg.watch.nwNanLo : Nat := 0x140
def Reg.watch.nwNanHi : Nat := 0x144
def Reg.watch.nwInfLo : Nat := 0x148
def Reg.watch.nwInfHi : Nat := 0x14C
def Reg.watch.nwSnapNanLo : Nat := 0x150
def Reg.watch.nwSnapNanHi : Nat := 0x154
def Reg.watch.nwSnapInfLo : Nat := 0x158
def Reg.watch.nwSnapInfHi : Nat := 0x15C
def Reg.watch.nwSnapSatLo : Nat := 0x160
def Reg.watch.nwSnapSatHi : Nat := 0x164
def Reg.watch.nwSnapStatus : Nat := 0x168
def Reg.watch.nwFirstNf : Nat := 0x16C
def Reg.watch.nwFirstNfStride : Nat := 0x170
def Reg.watch.nwPrevNf : Nat := 0x174
def Reg.watch.nwPrevNfStride : Nat := 0x178

def Reg.router.rtrCoord : Nat := 0x100
def Reg.router.rtrLinkStateA : Nat := 0x104
def Reg.router.rtrLinkStateB : Nat := 0x108
def Reg.router.rtrFenceMask : Nat := 0x10C
def Reg.router.rtrPortSel : Nat := 0x110
def Reg.router.rtrCrcErr : Nat := 0x114
def Reg.router.rtrReplay : Nat := 0x118
def Reg.router.rtrDegradeThresh : Nat := 0x11C
def Reg.router.rtrLaneSel : Nat := 0x120
def Reg.router.rtrLaneMap : Nat := 0x124
def Reg.router.rtrLaneTest : Nat := 0x128
def Reg.router.rtrEscCfg : Nat := 0x12C
def Reg.router.rtrEscCount : Nat := 0x130
def Reg.router.rtrFencedRet : Nat := 0x134
def Reg.router.rtrDiscard : Nat := 0x138
def Reg.router.rtrCtrlWaitMax : Nat := 0x13C
def Reg.router.rtrTblSel : Nat := 0x140
def Reg.router.rtrTblData0 : Nat := 0x144
def Reg.router.rtrTblData1 : Nat := 0x148
def Reg.router.rtrTblData2 : Nat := 0x14C
def Reg.router.rtrSlotStatus : Nat := 0x150
def Reg.router.rtrAifOvf : Nat := 0x154
def Reg.router.rtrChainTail : Nat := 0x158
def Reg.router.rtrTickComp : Nat := 0x15C

def Reg.msite.msConfig : Nat := 0x100
def Reg.msite.msReadsOut : Nat := 0x104
def Reg.msite.msTemp : Nat := 0x108
def Reg.msite.msCrcErr : Nat := 0x10C
def Reg.msite.msDecompErr : Nat := 0x110
def Reg.msite.msBytesRdLo : Nat := 0x114
def Reg.msite.msBytesRdHi : Nat := 0x118
def Reg.msite.msBytesWrLo : Nat := 0x11C
def Reg.msite.msBytesWrHi : Nat := 0x120

def Reg.placement.pcArg0 : Nat := 0x100
def Reg.placement.pcArg1 : Nat := 0x104
def Reg.placement.pcArg2 : Nat := 0x108
def Reg.placement.pcArg3 : Nat := 0x10C
def Reg.placement.pcQueue : Nat := 0x140
def Reg.placement.pcObjects : Nat := 0x144
def Reg.placement.pcDeferred : Nat := 0x148
def Reg.placement.pcForwarded : Nat := 0x14C
def Reg.placement.pcRejected : Nat := 0x150
def Reg.placement.pcLast : Nat := 0x154

def Reg.placeGlobal.paddock0T0QuotaLo : Nat := 0x100
def Reg.placeGlobal.paddock0T0QuotaHi : Nat := 0x104
def Reg.placeGlobal.paddock0T0UsedLo : Nat := 0x108
def Reg.placeGlobal.paddock0T0UsedHi : Nat := 0x10C
def Reg.placeGlobal.paddock0T1QuotaLo : Nat := 0x110
def Reg.placeGlobal.paddock0T1QuotaHi : Nat := 0x114
def Reg.placeGlobal.paddock0T1UsedLo : Nat := 0x118
def Reg.placeGlobal.paddock0T1UsedHi : Nat := 0x11C
def Reg.placeGlobal.paddock0T2QuotaLo : Nat := 0x120
def Reg.placeGlobal.paddock0T2QuotaHi : Nat := 0x124
def Reg.placeGlobal.paddock0T2UsedLo : Nat := 0x128
def Reg.placeGlobal.paddock0T2UsedHi : Nat := 0x12C
def Reg.placeGlobal.paddock0MvrShare : Nat := 0x130
def Reg.placeGlobal.paddock0QuotaFail : Nat := 0x134
def Reg.placeGlobal.paddock0Late : Nat := 0x200
def Reg.placeGlobal.paddock0Stall : Nat := 0x204
def Reg.placeGlobal.paddock0Reorder : Nat := 0x208
def Reg.placeGlobal.paddock0Alt : Nat := 0x20C
def Reg.placeGlobal.paddock0Draft : Nat := 0x210
def Reg.placeGlobal.paddock0DraftRefused : Nat := 0x214
def Reg.placeGlobal.paddock0ReadFail : Nat := 0x218
def Reg.placeGlobal.paddock0Deferred : Nat := 0x21C
def Reg.placeGlobal.paddock0Win0Lo : Nat := 0x300
def Reg.placeGlobal.paddock0Win0Hi : Nat := 0x304

def Reg.mover.mvrCfg : Nat := 0x100
def Reg.mover.mvrCtrl : Nat := 0x104
def Reg.mover.mvrStatus : Nat := 0x108
def Reg.mover.mvrActSrcLo : Nat := 0x110
def Reg.mover.mvrActSrcHi : Nat := 0x114
def Reg.mover.mvrActDstLo : Nat := 0x118
def Reg.mover.mvrActDstHi : Nat := 0x11C
def Reg.mover.mvrActRemain : Nat := 0x120
def Reg.mover.mvrActRows : Nat := 0x124
def Reg.mover.mvrActUnit : Nat := 0x128
def Reg.mover.mvrLast : Nat := 0x12C
def Reg.mover.mvrLastBytesLo : Nat := 0x130
def Reg.mover.mvrLastBytesHi : Nat := 0x134
def Reg.mover.mvrDone : Nat := 0x138
def Reg.mover.mvrErr : Nat := 0x13C
def Reg.mover.mvrLateCount : Nat := 0x140
def Reg.mover.mvrCurbWait : Nat := 0x144
def Reg.mover.mvrBytesLo : Nat := 0x148
def Reg.mover.mvrBytesHi : Nat := 0x14C
def Reg.mover.mvrList : Nat := 0x150
def Reg.mover.mvrShadow0 : Nat := 0x160
def Reg.mover.mvrShadow1 : Nat := 0x164
def Reg.mover.mvrShadow2 : Nat := 0x168
def Reg.mover.mvrShadow3 : Nat := 0x16C
def Reg.mover.mvrActive0 : Nat := 0x1C0
def Reg.mover.mvrActive1 : Nat := 0x1C4
def Reg.mover.mvrActive2 : Nat := 0x1C8
def Reg.mover.mvrActive3 : Nat := 0x1CC

def Reg.ucomplex.ucStatus : Nat := 0x100
def Reg.ucomplex.ucTables : Nat := 0x104
def Reg.ucomplex.ucArrSel : Nat := 0x108
def Reg.ucomplex.ucArrCountLo : Nat := 0x10C
def Reg.ucomplex.ucArrCountHi : Nat := 0x110
def Reg.ucomplex.ucFirstNf : Nat := 0x114
def Reg.ucomplex.ucDeferred : Nat := 0x118
def Reg.ucomplex.ucSweepStartLo : Nat := 0x11C
def Reg.ucomplex.ucSweepStartHi : Nat := 0x120
def Reg.ucomplex.ucFallback : Nat := 0x124
def Reg.ucomplex.ucNotReadyCount : Nat := 0x128
def Reg.ucomplex.ucMirror : Nat := 0x12C

def Reg.uengine.ueConfig : Nat := 0x100
def Reg.uengine.ueEntry : Nat := 0x180
def Reg.uengine.ueDone : Nat := 0x184
def Reg.uengine.ueMvGuard : Nat := 0x188

def Reg.calliope.calCountLo : Nat := 0x100
def Reg.calliope.calCountHi : Nat := 0x104
def Reg.calliope.calSel : Nat := 0x108
def Reg.calliope.calLossExp : Nat := 0x10C
def Reg.calliope.calGCfg : Nat := 0x110
def Reg.calliope.calGWarm : Nat := 0x114
def Reg.calliope.calGT0 : Nat := 0x118
def Reg.calliope.calGTmult : Nat := 0x11C
def Reg.calliope.calGTbeta : Nat := 0x120
def Reg.calliope.calGPeriod : Nat := 0x124
def Reg.calliope.calGEtaMaxLo : Nat := 0x128
def Reg.calliope.calGEtaMaxHi : Nat := 0x12C
def Reg.calliope.calGEtaMinLo : Nat := 0x130
def Reg.calliope.calGEtaMinHi : Nat := 0x134
def Reg.calliope.calGGammaLo : Nat := 0x138
def Reg.calliope.calGGammaHi : Nat := 0x13C
def Reg.calliope.calGWdLo : Nat := 0x140
def Reg.calliope.calGWdHi : Nat := 0x144
def Reg.calliope.calGB1StartLo : Nat := 0x148
def Reg.calliope.calGB1StartHi : Nat := 0x14C
def Reg.calliope.calGB1EndLo : Nat := 0x150
def Reg.calliope.calGB1EndHi : Nat := 0x154
def Reg.calliope.calGB2StartLo : Nat := 0x158
def Reg.calliope.calGB2StartHi : Nat := 0x15C
def Reg.calliope.calGB2EndLo : Nat := 0x160
def Reg.calliope.calGB2EndHi : Nat := 0x164
def Reg.calliope.calGEpsLo : Nat := 0x168
def Reg.calliope.calGEpsHi : Nat := 0x16C
def Reg.calliope.calGDampenLo : Nat := 0x170
def Reg.calliope.calGDampenHi : Nat := 0x174
def Reg.calliope.calGPepsLo : Nat := 0x178
def Reg.calliope.calGPepsHi : Nat := 0x17C
def Reg.calliope.calGPdampLo : Nat := 0x180
def Reg.calliope.calGPdampHi : Nat := 0x184
def Reg.calliope.calGPtolLo : Nat := 0x188
def Reg.calliope.calGPtolHi : Nat := 0x18C
def Reg.calliope.calGProd1Lo : Nat := 0x190
def Reg.calliope.calGProd1Hi : Nat := 0x194
def Reg.calliope.calGProd2Lo : Nat := 0x198
def Reg.calliope.calGProd2Hi : Nat := 0x19C
def Reg.calliope.calGEtaLo : Nat := 0x1A0
def Reg.calliope.calGEtaHi : Nat := 0x1A4
def Reg.calliope.calArgLo : Nat := 0x1A8
def Reg.calliope.calArgHi : Nat := 0x1AC

def Reg.stepCommit.scCfg : Nat := 0x100
def Reg.stepCommit.scPartner : Nat := 0x104
def Reg.stepCommit.scGroup : Nat := 0x108
def Reg.stepCommit.scTimeout : Nat := 0x10C
def Reg.stepCommit.scLimits : Nat := 0x110
def Reg.stepCommit.scLossScale : Nat := 0x114
def Reg.stepCommit.stepCommittedLo : Nat := 0x118
def Reg.stepCommit.stepCommittedHi : Nat := 0x11C
def Reg.stepCommit.scProgress : Nat := 0x120
def Reg.stepCommit.scLastOutcome : Nat := 0x124
def Reg.stepCommit.lossIn : Nat := 0x128
def Reg.stepCommit.lossEma : Nat := 0x12C
def Reg.stepCommit.spikeK : Nat := 0x130
def Reg.stepCommit.spikeMargin : Nat := 0x134
def Reg.stepCommit.spikeAlpha : Nat := 0x138
def Reg.stepCommit.spikeWarmup : Nat := 0x13C
def Reg.stepCommit.lossCount : Nat := 0x140
def Reg.stepCommit.scWalkRate : Nat := 0x144
def Reg.stepCommit.scDigest0 : Nat := 0x148
def Reg.stepCommit.scDigest1 : Nat := 0x14C
def Reg.stepCommit.scDigest2 : Nat := 0x150
def Reg.stepCommit.scDigest3 : Nat := 0x154
def Reg.stepCommit.scPartnerDigest0 : Nat := 0x158
def Reg.stepCommit.scPartnerDigest1 : Nat := 0x15C
def Reg.stepCommit.scPartnerDigest2 : Nat := 0x160
def Reg.stepCommit.scPartnerDigest3 : Nat := 0x164
def Reg.stepCommit.scSkips : Nat := 0x168
def Reg.stepCommit.scAborts : Nat := 0x16C
def Reg.stepCommit.scDigestEvents : Nat := 0x170
def Reg.stepCommit.scWalkPos : Nat := 0x174
def Reg.stepCommit.scWalkMismatch : Nat := 0x178
def Reg.stepCommit.scArg : Nat := 0x17C

def Reg.farrier.frStatus : Nat := 0x100
def Reg.farrier.frCfg : Nat := 0x104
def Reg.farrier.frSel : Nat := 0x108
def Reg.farrier.frUnitState : Nat := 0x10C
def Reg.farrier.frArg : Nat := 0x110
def Reg.farrier.frLastAction : Nat := 0x114
def Reg.farrier.frLastUnit : Nat := 0x118
def Reg.farrier.frCountsA : Nat := 0x11C
def Reg.farrier.frCountsB : Nat := 0x120
def Reg.farrier.frTransients : Nat := 0x124
def Reg.farrier.frTickMissed : Nat := 0x128
def Reg.farrier.frRepairMs : Nat := 0x12C
def Reg.farrier.frFieldOutLo : Nat := 0x130
def Reg.farrier.frFieldOutHi : Nat := 0x134

def Reg.port.opCfg : Nat := 0x100
def Reg.port.opSel : Nat := 0x104
def Reg.port.opLinkState : Nat := 0x108
def Reg.port.opLinkPeer : Nat := 0x10C
def Reg.port.opLinkDelay : Nat := 0x110
def Reg.port.opLinkEn : Nat := 0x114
def Reg.port.opHb : Nat := 0x118
def Reg.port.opLanePower : Nat := 0x11C
def Reg.port.opLaneRing : Nat := 0x120
def Reg.port.opFecCorr : Nat := 0x124
def Reg.port.opFecUncorr : Nat := 0x128
def Reg.port.opCrcErr : Nat := 0x12C
def Reg.port.opReplay : Nat := 0x130
def Reg.port.opLaserThresh : Nat := 0x134
def Reg.port.opInbound : Nat := 0x138
def Reg.port.opReject : Nat := 0x13C
def Reg.port.opTransit : Nat := 0x140
def Reg.port.opTreeSel : Nat := 0x144
def Reg.port.opTreeData : Nat := 0x148
def Reg.port.opTbMissed : Nat := 0x14C

def Reg.optGlobal.opNodeId : Nat := 0x100
def Reg.optGlobal.opBootCount : Nat := 0x104
def Reg.optGlobal.opRtSel : Nat := 0x108
def Reg.optGlobal.opRtData : Nat := 0x10C
def Reg.optGlobal.opLimits : Nat := 0x110
def Reg.optGlobal.tbPrio : Nat := 0x114
def Reg.optGlobal.tbEpoch : Nat := 0x118
def Reg.optGlobal.tbPathDelay : Nat := 0x11C
def Reg.optGlobal.opUnreach : Nat := 0x120

def Reg.hostPort.hpLink : Nat := 0x100
def Reg.hostPort.hpPeer : Nat := 0x104
def Reg.hostPort.hpFieldWin : Nat := 0x108
def Reg.hostPort.hpDenied : Nat := 0x10C
def Reg.hostPort.hpArg : Nat := 0x110
def Reg.hostPort.hpApSel : Nat := 0x114
def Reg.hostPort.hpApHandleLo : Nat := 0x118
def Reg.hostPort.hpApHandleHi : Nat := 0x11C
def Reg.hostPort.hpApCfg : Nat := 0x120
def Reg.hostPort.hpApOffsetLo : Nat := 0x124
def Reg.hostPort.hpApOffsetHi : Nat := 0x128
def Reg.hostPort.hpApFault : Nat := 0x12C
def Reg.hostPort.hpEvtSel : Nat := 0x130
def Reg.hostPort.hpEvtRoute : Nat := 0x134
def Reg.hostPort.hpEvtSent : Nat := 0x138

def Reg.hostGlobal.hpLeaseCfg : Nat := 0x100
def Reg.hostGlobal.hpArgG : Nat := 0x104
def Reg.hostGlobal.hpLease0 : Nat := 0x108
def Reg.hostGlobal.ps0HandleLo : Nat := 0x140
def Reg.hostGlobal.ps0HandleHi : Nat := 0x144
def Reg.hostGlobal.ps0Offset : Nat := 0x148
def Reg.hostGlobal.ps0Status : Nat := 0x14C
def Reg.hostGlobal.ps0Outcome : Nat := 0x150
def Reg.hostGlobal.ps0Seq : Nat := 0x154
def Reg.hostGlobal.ps0PlanIdLo : Nat := 0x158
def Reg.hostGlobal.ps0PlanIdHi : Nat := 0x15C
def Reg.hostGlobal.paddock0SeedLo : Nat := 0x1C0
def Reg.hostGlobal.paddock0SeedHi : Nat := 0x1C4

def Reg.fieldPower.ptGait : Nat := 0x100
def Reg.fieldPower.ptClusterGait : Nat := 0x104
def Reg.fieldPower.ptTemp01 : Nat := 0x108
def Reg.fieldPower.ptTemp23 : Nat := 0x10C
def Reg.fieldPower.ptTemp4 : Nat := 0x110
def Reg.fieldPower.ptTempPeak : Nat := 0x114
def Reg.fieldPower.ptHarness : Nat := 0x118
def Reg.fieldPower.ptPower : Nat := 0x11C
def Reg.fieldPower.ptVcore : Nat := 0x120
def Reg.fieldPower.ptFuse : Nat := 0x124
def Reg.fieldPower.ptFuseLimit : Nat := 0x128
def Reg.fieldPower.ptThrottleCount : Nat := 0x12C
def Reg.fieldPower.ptWakeSpacing : Nat := 0x130

def Reg.powerGlobal.ptInputV : Nat := 0x100
def Reg.powerGlobal.ptInputP : Nat := 0x104
def Reg.powerGlobal.ptInputPeak : Nat := 0x108
def Reg.powerGlobal.ptPowerCap : Nat := 0x10C
def Reg.powerGlobal.ptThresh : Nat := 0x110
def Reg.powerGlobal.ptCoolantTop : Nat := 0x114
def Reg.powerGlobal.ptCoolantBot : Nat := 0x118
def Reg.powerGlobal.ptHarnessMax : Nat := 0x11C
def Reg.powerGlobal.ptGov : Nat := 0x120
def Reg.powerGlobal.ptGovLimit : Nat := 0x124
def Reg.powerGlobal.ptLatch : Nat := 0x128
def Reg.powerGlobal.ptRingRest : Nat := 0x12C
def Reg.powerGlobal.paddock0Gait : Nat := 0x130
def Reg.powerGlobal.ptFieldThrottledLo : Nat := 0x140
def Reg.powerGlobal.ptFieldThrottledHi : Nat := 0x144

def Reg.security.secBoot : Nat := 0x100
def Reg.security.secBootTime : Nat := 0x104
def Reg.security.secFwSvn : Nat := 0x108
def Reg.security.secPolicy : Nat := 0x10C
def Reg.security.secCtrl : Nat := 0x110
def Reg.security.secOwner : Nat := 0x114
def Reg.security.secSigNext : Nat := 0x118
def Reg.security.secSigBucket : Nat := 0x11C
def Reg.security.secDebug : Nat := 0x120
def Reg.security.secArg : Nat := 0x124
def Reg.security.secSerialLo : Nat := 0x128
def Reg.security.secSerialHi : Nat := 0x12C
def Reg.security.secMeasSel : Nat := 0x130
def Reg.security.secMeas0 : Nat := 0x134
def Reg.security.secMeas1 : Nat := 0x138
def Reg.security.secMeas2 : Nat := 0x13C
def Reg.security.secMeas3 : Nat := 0x140

def Reg.calib.calSel : Nat := 0x100
def Reg.calib.calFused : Nat := 0x104
def Reg.calib.calUser : Nat := 0x108
def Reg.calib.calEff : Nat := 0x10C
def Reg.calib.calPending : Nat := 0x110
def Reg.calib.calEffRange : Nat := 0x114
def Reg.calib.calUserRange : Nat := 0x118
def Reg.calib.calWrites : Nat := 0x11C

def Reg.monitor.monCtrl : Nat := 0x100
def Reg.monitor.monSrc : Nat := 0x104
def Reg.monitor.monWindow : Nat := 0x108
def Reg.monitor.monBinBase : Nat := 0x10C
def Reg.monitor.monBinWidth : Nat := 0x110
def Reg.monitor.monSamplePeriod : Nat := 0x114
def Reg.monitor.monSnapSeq : Nat := 0x118
def Reg.monitor.monSnapStrideLo : Nat := 0x11C
def Reg.monitor.monSnapStrideHi : Nat := 0x120
def Reg.monitor.monSnapCount : Nat := 0x124
def Reg.monitor.monSnapMin : Nat := 0x128
def Reg.monitor.monSnapMax : Nat := 0x12C
def Reg.monitor.monSnapSumLo : Nat := 0x130
def Reg.monitor.monSnapSumHi : Nat := 0x134
def Reg.monitor.monSnapFlags : Nat := 0x138
def Reg.monitor.monLiveCount : Nat := 0x140
def Reg.monitor.monLiveMin : Nat := 0x144
def Reg.monitor.monLiveMax : Nat := 0x148
def Reg.monitor.monLiveSumLo : Nat := 0x14C
def Reg.monitor.monLiveSumHi : Nat := 0x150
def Reg.monitor.monSnapBin0 : Nat := 0x180
def Reg.monitor.monSnapBin1 : Nat := 0x184
def Reg.monitor.monSnapBin2 : Nat := 0x188
def Reg.monitor.monSnapBin3 : Nat := 0x18C

def Reg.module.glbStatus : Nat := 0x100
def Reg.module.moduleId0 : Nat := 0x110
def Reg.module.moduleId1 : Nat := 0x114
def Reg.module.moduleId2 : Nat := 0x118
def Reg.module.moduleId3 : Nat := 0x11C
def Reg.module.moduleIdVec : Nat := 0x120
def Reg.module.paddockRings : Nat := 0x130

def Reg.evlog.evlogSeq : Nat := 0x100
def Reg.evlog.evlogSel : Nat := 0x104
def Reg.evlog.evlogData0 : Nat := 0x108
def Reg.evlog.evlogData1 : Nat := 0x10C
def Reg.evlog.evlogData2 : Nat := 0x110
def Reg.evlog.evlogData3 : Nat := 0x114

def Reg.clmem.cmConfig : Nat := 0x100
def Reg.clmem.cmCrc : Nat := 0x104

/-- The registers of the page: timebase (chapter 02). -/
def regRowsTimebase : List RegRow :=
  [⟨0x100, .ro, 0x0, 0x61A8⟩, ⟨0x104, .ro, 0x0, 0x1388⟩, ⟨0x108, .ro, 0x0, 0x0⟩,
   ⟨0x10C, .ro, 0x0, 0x0⟩, ⟨0x110, .ro, 0x0, 0x0⟩, ⟨0x114, .ro, 0x0, 0x61A8⟩,
   ⟨0x118, .ro, 0x0, 0x0⟩, ⟨0x11C, .ro, 0x0, 0x0⟩, ⟨0x120, .ro, 0x0, 0x0⟩,
   ⟨0x124, .ro, 0x0, 0x0⟩, ⟨0x128, .rw, 0xFFFFF, 0x61A8⟩, ⟨0x12C, .rw, 0xFFFFF, 0x1388⟩,
   ⟨0x130, .rw, 0xFFFFFFFF, 0x0⟩, ⟨0x134, .rw, 0xFFFF, 0x0⟩, ⟨0x138, .rw, 0xF, 0xF⟩,
   ⟨0x13C, .ro, 0x0, 0x0⟩, ⟨0x140, .ro, 0x0, 0x0⟩]

/-- The registers of the page: score (chapter 02). -/
def regRowsScore : List RegRow :=
  [⟨0x100, .ro, 0x0, 0x0⟩, ⟨0x104, .ro, 0x0, 0x0⟩, ⟨0x108, .ro, 0x0, 0x0⟩,
   ⟨0x10C, .ro, 0x0, 0x0⟩, ⟨0x110, .ro, 0x0, 0x0⟩, ⟨0x114, .ro, 0x0, 0x0⟩,
   ⟨0x118, .ro, 0x0, 0x0⟩, ⟨0x120, .ro, 0x0, 0x0⟩, ⟨0x124, .ro, 0x0, 0x0⟩,
   ⟨0x128, .ro, 0x0, 0x0⟩, ⟨0x12C, .ro, 0x0, 0x0⟩, ⟨0x130, .ro, 0x0, 0x0⟩,
   ⟨0x134, .ro, 0x0, 0x0⟩, ⟨0x140, .ro, 0x0, 0x0⟩, ⟨0x144, .ro, 0x0, 0x0⟩,
   ⟨0x148, .ro, 0x0, 0x0⟩, ⟨0x14C, .ro, 0x0, 0x0⟩, ⟨0x150, .ro, 0x0, 0x0⟩,
   ⟨0x154, .rw, 0xFF, 0x2⟩, ⟨0x160, .ro, 0x0, 0x0⟩, ⟨0x164, .ro, 0x0, 0x0⟩,
   ⟨0x168, .ro, 0x0, 0x0⟩, ⟨0x16C, .ro, 0x0, 0x0⟩, ⟨0x170, .ro, 0x0, 0x0⟩] ++
  [⟨0x174, .ro, 0x0, 0x0⟩, ⟨0x178, .ro, 0x0, 0x0⟩, ⟨0x17C, .ro, 0x0, 0x0⟩,
   ⟨0x180, .ro, 0x0, 0x0⟩]

/-- The registers of the page: me (chapter 03). -/
def regRowsMe : List RegRow :=
  [⟨0x100, .ro, 0x0, 0x7414040⟩, ⟨0x104, .ro, 0x0, 0x0⟩, ⟨0x108, .ro, 0x0, 0x0⟩,
   ⟨0x10C, .ro, 0x0, 0x0⟩, ⟨0x110, .ro, 0x0, 0x0⟩, ⟨0x114, .ro, 0x0, 0x0⟩,
   ⟨0x118, .ro, 0x0, 0x0⟩, ⟨0x11C, .ro, 0x0, 0x0⟩, ⟨0x120, .ro, 0x0, 0x0⟩,
   ⟨0x124, .ro, 0x0, 0x0⟩, ⟨0x128, .ro, 0x0, 0x0⟩, ⟨0x12C, .ro, 0x0, 0x0⟩,
   ⟨0x130, .ro, 0x0, 0x0⟩, ⟨0x134, .ro, 0x0, 0x0⟩, ⟨0x138, .ro, 0x0, 0x0⟩]

/-- The registers of the page: mcore (chapter 04). -/
def regRowsMcore : List RegRow :=
  [⟨0x100, .ro, 0x0, 0x0⟩, ⟨0x104, .ro, 0x0, 0x0⟩, ⟨0x108, .ro, 0x0, 0x0⟩,
   ⟨0x10C, .ro, 0x0, 0x0⟩, ⟨0x110, .ro, 0x0, 0x0⟩, ⟨0x114, .ro, 0x0, 0x0⟩,
   ⟨0x118, .ro, 0x0, 0x0⟩, ⟨0x120, .wo, 0x0, 0x0⟩, ⟨0x124, .wo, 0x0, 0x0⟩,
   ⟨0x128, .wo, 0x0, 0x0⟩, ⟨0x12C, .wo, 0x0, 0x0⟩, ⟨0x130, .wo, 0x0, 0x0⟩,
   ⟨0x140, .ro, 0x0, 0x0⟩, ⟨0x144, .ro, 0x0, 0x0⟩, ⟨0x148, .ro, 0x0, 0x0⟩,
   ⟨0x14C, .ro, 0x0, 0x0⟩, ⟨0x150, .ro, 0x0, 0x0⟩, ⟨0x154, .ro, 0x0, 0x0⟩,
   ⟨0x158, .ro, 0x0, 0x0⟩, ⟨0x15C, .ro, 0x0, 0x0⟩]

/-- The registers of the page: vcore (chapter 05). -/
def regRowsVcore : List RegRow :=
  [⟨0x100, .ro, 0x0, 0x0⟩, ⟨0x104, .ro, 0x0, 0x0⟩, ⟨0x108, .ro, 0x0, 0x0⟩,
   ⟨0x10C, .ro, 0x0, 0x0⟩, ⟨0x120, .wo, 0x0, 0x0⟩, ⟨0x124, .wo, 0x0, 0x0⟩,
   ⟨0x128, .wo, 0x0, 0x0⟩, ⟨0x12C, .wo, 0x0, 0x0⟩, ⟨0x140, .ro, 0x0, 0x0⟩,
   ⟨0x144, .ro, 0x0, 0x0⟩, ⟨0x148, .ro, 0x0, 0x0⟩, ⟨0x14C, .ro, 0x0, 0x0⟩,
   ⟨0x150, .ro, 0x0, 0x0⟩, ⟨0x154, .ro, 0x0, 0x0⟩, ⟨0x158, .ro, 0x0, 0x0⟩,
   ⟨0x15C, .ro, 0x0, 0x0⟩]

/-- The registers of the page: ve (chapter 05). -/
def regRowsVe : List RegRow :=
  [⟨0x100, .ro, 0x0, 0x18200180⟩, ⟨0x104, .ro, 0x0, 0x0⟩, ⟨0x108, .ro, 0x0, 0x0⟩,
   ⟨0x10C, .w1c, 0xFFFFFFFF, 0x0⟩, ⟨0x110, .ro, 0x0, 0x0⟩, ⟨0x114, .ro, 0x0, 0x0⟩,
   ⟨0x118, .ro, 0x0, 0x0⟩, ⟨0x11C, .ro, 0x0, 0x0⟩, ⟨0x120, .ro, 0x0, 0x0⟩,
   ⟨0x124, .ro, 0x0, 0x0⟩, ⟨0x128, .ro, 0x0, 0x0⟩, ⟨0x12C, .ro, 0x0, 0x0⟩,
   ⟨0x130, .rw, 0xFF07, 0x0⟩, ⟨0x134, .ro, 0x0, 0x0⟩, ⟨0x138, .ro, 0x0, 0x0⟩,
   ⟨0x13C, .ro, 0x0, 0x0⟩]

/-- The registers of the page: watch (chapter 06). -/
def regRowsWatch : List RegRow :=
  [⟨0x100, .rw, 0x80001FFF, 0x0⟩, ⟨0x104, .rw, 0xFFFFFFFF, 0x0⟩, ⟨0x108, .rw, 0xFFFFFF, 0x0⟩,
   ⟨0x10C, .rw, 0xFFFFFFFF, 0x0⟩, ⟨0x110, .rw, 0x8000FFFF, 0x0⟩, ⟨0x114, .rw, 0x3, 0x0⟩,
   ⟨0x120, .ro, 0x0, 0x0⟩, ⟨0x124, .ro, 0x0, 0x0⟩, ⟨0x128, .ro, 0x0, 0x0⟩,
   ⟨0x12C, .ro, 0x0, 0x0⟩, ⟨0x130, .ro, 0x0, 0x0⟩, ⟨0x134, .ro, 0x0, 0x0⟩,
   ⟨0x138, .ro, 0x0, 0x0⟩, ⟨0x13C, .ro, 0x0, 0x0⟩, ⟨0x140, .ro, 0x0, 0x0⟩,
   ⟨0x144, .ro, 0x0, 0x0⟩, ⟨0x148, .ro, 0x0, 0x0⟩, ⟨0x14C, .ro, 0x0, 0x0⟩,
   ⟨0x150, .ro, 0x0, 0x0⟩, ⟨0x154, .ro, 0x0, 0x0⟩, ⟨0x158, .ro, 0x0, 0x0⟩,
   ⟨0x15C, .ro, 0x0, 0x0⟩, ⟨0x160, .ro, 0x0, 0x0⟩, ⟨0x164, .ro, 0x0, 0x0⟩] ++
  [⟨0x168, .ro, 0x0, 0x0⟩, ⟨0x16C, .ro, 0x0, 0x0⟩, ⟨0x170, .ro, 0x0, 0x0⟩,
   ⟨0x174, .ro, 0x0, 0x0⟩, ⟨0x178, .ro, 0x0, 0x0⟩]

/-- The registers of the page: router (chapter 07). -/
def regRowsRouter : List RegRow :=
  [⟨0x100, .ro, 0x0, 0x0⟩, ⟨0x104, .ro, 0x0, 0x0⟩, ⟨0x108, .ro, 0x0, 0x0⟩,
   ⟨0x10C, .ro, 0x0, 0x0⟩, ⟨0x110, .rw, 0xF, 0x0⟩, ⟨0x114, .ro, 0x0, 0x0⟩,
   ⟨0x118, .ro, 0x0, 0x0⟩, ⟨0x11C, .rw, 0xFFFFFF, 0x80040⟩, ⟨0x120, .rw, 0x7F, 0x0⟩,
   ⟨0x124, .ro, 0x0, 0x0⟩, ⟨0x128, .ro, 0x0, 0x0⟩, ⟨0x12C, .rw, 0xFFF, 0x80⟩,
   ⟨0x130, .ro, 0x0, 0x0⟩, ⟨0x134, .ro, 0x0, 0x0⟩, ⟨0x138, .ro, 0x0, 0x0⟩,
   ⟨0x13C, .ro, 0x0, 0x0⟩, ⟨0x140, .rw, 0xFFF, 0x0⟩, ⟨0x144, .ro, 0x0, 0x0⟩,
   ⟨0x148, .ro, 0x0, 0x0⟩, ⟨0x14C, .ro, 0x0, 0x0⟩, ⟨0x150, .ro, 0x0, 0x0⟩,
   ⟨0x154, .ro, 0x0, 0x0⟩, ⟨0x158, .ro, 0x0, 0x0⟩, ⟨0x15C, .ro, 0x0, 0x0⟩]

/-- The registers of the page: msite (chapter 08). -/
def regRowsMsite : List RegRow :=
  [⟨0x100, .ro, 0x0, 0x0⟩, ⟨0x104, .ro, 0x0, 0x0⟩, ⟨0x108, .ro, 0x0, 0x0⟩,
   ⟨0x10C, .ro, 0x0, 0x0⟩, ⟨0x110, .ro, 0x0, 0x0⟩, ⟨0x114, .ro, 0x0, 0x0⟩,
   ⟨0x118, .ro, 0x0, 0x0⟩, ⟨0x11C, .ro, 0x0, 0x0⟩, ⟨0x120, .ro, 0x0, 0x0⟩]

/-- The registers of the page: placement (chapter 08). -/
def regRowsPlacement : List RegRow :=
  [⟨0x100, .rw, 0xFFFFFFFF, 0x0⟩, ⟨0x104, .rw, 0xFFFFFFFF, 0x0⟩, ⟨0x108, .rw, 0xFFFFFFFF, 0x0⟩,
   ⟨0x10C, .rw, 0xFFFFFFFF, 0x0⟩, ⟨0x110, .rw, 0xFFFFFFFF, 0x0⟩, ⟨0x114, .rw, 0xFFFFFFFF, 0x0⟩,
   ⟨0x118, .rw, 0xFFFFFFFF, 0x0⟩, ⟨0x11C, .rw, 0xFFFFFFFF, 0x0⟩, ⟨0x120, .rw, 0xFFFFFFFF, 0x0⟩,
   ⟨0x124, .rw, 0xFFFFFFFF, 0x0⟩, ⟨0x128, .rw, 0xFFFFFFFF, 0x0⟩, ⟨0x12C, .rw, 0xFFFFFFFF, 0x0⟩,
   ⟨0x130, .rw, 0xFFFFFFFF, 0x0⟩, ⟨0x134, .rw, 0xFFFFFFFF, 0x0⟩, ⟨0x138, .rw, 0xFFFFFFFF, 0x0⟩,
   ⟨0x13C, .rw, 0xFFFFFFFF, 0x0⟩, ⟨0x140, .ro, 0x0, 0x0⟩, ⟨0x144, .ro, 0x0, 0x0⟩,
   ⟨0x148, .ro, 0x0, 0x0⟩, ⟨0x14C, .ro, 0x0, 0x0⟩, ⟨0x150, .ro, 0x0, 0x0⟩,
   ⟨0x154, .ro, 0x0, 0x0⟩]

/-- The registers of the page: placeGlobal (chapter 08). -/
def regRowsPlaceGlobal : List RegRow :=
  [⟨0x100, .rw, 0xFFFFFFFF, 0xFFFFFFFF⟩, ⟨0x104, .rw, 0xFFFFFFFF, 0xFFFFFFFF⟩, ⟨0x140, .rw, 0xFFFFFFFF, 0xFFFFFFFF⟩,
   ⟨0x144, .rw, 0xFFFFFFFF, 0xFFFFFFFF⟩, ⟨0x180, .rw, 0xFFFFFFFF, 0xFFFFFFFF⟩, ⟨0x184, .rw, 0xFFFFFFFF, 0xFFFFFFFF⟩,
   ⟨0x1C0, .rw, 0xFFFFFFFF, 0xFFFFFFFF⟩, ⟨0x1C4, .rw, 0xFFFFFFFF, 0xFFFFFFFF⟩, ⟨0x108, .ro, 0x0, 0x0⟩,
   ⟨0x10C, .ro, 0x0, 0x0⟩, ⟨0x148, .ro, 0x0, 0x0⟩, ⟨0x14C, .ro, 0x0, 0x0⟩,
   ⟨0x188, .ro, 0x0, 0x0⟩, ⟨0x18C, .ro, 0x0, 0x0⟩, ⟨0x1C8, .ro, 0x0, 0x0⟩,
   ⟨0x1CC, .ro, 0x0, 0x0⟩, ⟨0x110, .rw, 0xFFFFFFFF, 0xFFFFFFFF⟩, ⟨0x114, .rw, 0xFFFFFFFF, 0xFFFFFFFF⟩,
   ⟨0x150, .rw, 0xFFFFFFFF, 0xFFFFFFFF⟩, ⟨0x154, .rw, 0xFFFFFFFF, 0xFFFFFFFF⟩, ⟨0x190, .rw, 0xFFFFFFFF, 0xFFFFFFFF⟩,
   ⟨0x194, .rw, 0xFFFFFFFF, 0xFFFFFFFF⟩, ⟨0x1D0, .rw, 0xFFFFFFFF, 0xFFFFFFFF⟩, ⟨0x1D4, .rw, 0xFFFFFFFF, 0xFFFFFFFF⟩] ++
  [⟨0x118, .ro, 0x0, 0x0⟩, ⟨0x11C, .ro, 0x0, 0x0⟩, ⟨0x158, .ro, 0x0, 0x0⟩,
   ⟨0x15C, .ro, 0x0, 0x0⟩, ⟨0x198, .ro, 0x0, 0x0⟩, ⟨0x19C, .ro, 0x0, 0x0⟩,
   ⟨0x1D8, .ro, 0x0, 0x0⟩, ⟨0x1DC, .ro, 0x0, 0x0⟩, ⟨0x120, .rw, 0xFFFFFFFF, 0xFFFFFFFF⟩,
   ⟨0x124, .rw, 0xFFFFFFFF, 0xFFFFFFFF⟩, ⟨0x160, .rw, 0xFFFFFFFF, 0xFFFFFFFF⟩, ⟨0x164, .rw, 0xFFFFFFFF, 0xFFFFFFFF⟩,
   ⟨0x1A0, .rw, 0xFFFFFFFF, 0xFFFFFFFF⟩, ⟨0x1A4, .rw, 0xFFFFFFFF, 0xFFFFFFFF⟩, ⟨0x1E0, .rw, 0xFFFFFFFF, 0xFFFFFFFF⟩,
   ⟨0x1E4, .rw, 0xFFFFFFFF, 0xFFFFFFFF⟩, ⟨0x128, .ro, 0x0, 0x0⟩, ⟨0x12C, .ro, 0x0, 0x0⟩,
   ⟨0x168, .ro, 0x0, 0x0⟩, ⟨0x16C, .ro, 0x0, 0x0⟩, ⟨0x1A8, .ro, 0x0, 0x0⟩,
   ⟨0x1AC, .ro, 0x0, 0x0⟩, ⟨0x1E8, .ro, 0x0, 0x0⟩, ⟨0x1EC, .ro, 0x0, 0x0⟩] ++
  [⟨0x130, .rw, 0x1FF, 0x40⟩, ⟨0x170, .rw, 0x1FF, 0x40⟩, ⟨0x1B0, .rw, 0x1FF, 0x40⟩,
   ⟨0x1F0, .rw, 0x1FF, 0x40⟩, ⟨0x134, .ro, 0x0, 0x0⟩, ⟨0x174, .ro, 0x0, 0x0⟩,
   ⟨0x1B4, .ro, 0x0, 0x0⟩, ⟨0x1F4, .ro, 0x0, 0x0⟩, ⟨0x200, .ro, 0x0, 0x0⟩,
   ⟨0x220, .ro, 0x0, 0x0⟩, ⟨0x240, .ro, 0x0, 0x0⟩, ⟨0x260, .ro, 0x0, 0x0⟩,
   ⟨0x204, .ro, 0x0, 0x0⟩, ⟨0x224, .ro, 0x0, 0x0⟩, ⟨0x244, .ro, 0x0, 0x0⟩,
   ⟨0x264, .ro, 0x0, 0x0⟩, ⟨0x208, .ro, 0x0, 0x0⟩, ⟨0x228, .ro, 0x0, 0x0⟩,
   ⟨0x248, .ro, 0x0, 0x0⟩, ⟨0x268, .ro, 0x0, 0x0⟩, ⟨0x20C, .ro, 0x0, 0x0⟩,
   ⟨0x22C, .ro, 0x0, 0x0⟩, ⟨0x24C, .ro, 0x0, 0x0⟩, ⟨0x26C, .ro, 0x0, 0x0⟩] ++
  [⟨0x210, .ro, 0x0, 0x0⟩, ⟨0x230, .ro, 0x0, 0x0⟩, ⟨0x250, .ro, 0x0, 0x0⟩,
   ⟨0x270, .ro, 0x0, 0x0⟩, ⟨0x214, .ro, 0x0, 0x0⟩, ⟨0x234, .ro, 0x0, 0x0⟩,
   ⟨0x254, .ro, 0x0, 0x0⟩, ⟨0x274, .ro, 0x0, 0x0⟩, ⟨0x218, .ro, 0x0, 0x0⟩,
   ⟨0x238, .ro, 0x0, 0x0⟩, ⟨0x258, .ro, 0x0, 0x0⟩, ⟨0x278, .ro, 0x0, 0x0⟩,
   ⟨0x21C, .ro, 0x0, 0x0⟩, ⟨0x23C, .ro, 0x0, 0x0⟩, ⟨0x25C, .ro, 0x0, 0x0⟩,
   ⟨0x27C, .ro, 0x0, 0x0⟩, ⟨0x300, .ro, 0x0, 0x0⟩, ⟨0x308, .ro, 0x0, 0x0⟩,
   ⟨0x310, .ro, 0x0, 0x0⟩, ⟨0x318, .ro, 0x0, 0x0⟩, ⟨0x320, .ro, 0x0, 0x0⟩,
   ⟨0x328, .ro, 0x0, 0x0⟩, ⟨0x330, .ro, 0x0, 0x0⟩, ⟨0x338, .ro, 0x0, 0x0⟩] ++
  [⟨0x340, .ro, 0x0, 0x0⟩, ⟨0x348, .ro, 0x0, 0x0⟩, ⟨0x350, .ro, 0x0, 0x0⟩,
   ⟨0x358, .ro, 0x0, 0x0⟩, ⟨0x360, .ro, 0x0, 0x0⟩, ⟨0x368, .ro, 0x0, 0x0⟩,
   ⟨0x370, .ro, 0x0, 0x0⟩, ⟨0x378, .ro, 0x0, 0x0⟩, ⟨0x380, .ro, 0x0, 0x0⟩,
   ⟨0x388, .ro, 0x0, 0x0⟩, ⟨0x390, .ro, 0x0, 0x0⟩, ⟨0x398, .ro, 0x0, 0x0⟩,
   ⟨0x3A0, .ro, 0x0, 0x0⟩, ⟨0x3A8, .ro, 0x0, 0x0⟩, ⟨0x3B0, .ro, 0x0, 0x0⟩,
   ⟨0x3B8, .ro, 0x0, 0x0⟩, ⟨0x3C0, .ro, 0x0, 0x0⟩, ⟨0x3C8, .ro, 0x0, 0x0⟩,
   ⟨0x3D0, .ro, 0x0, 0x0⟩, ⟨0x3D8, .ro, 0x0, 0x0⟩, ⟨0x3E0, .ro, 0x0, 0x0⟩,
   ⟨0x3E8, .ro, 0x0, 0x0⟩, ⟨0x3F0, .ro, 0x0, 0x0⟩, ⟨0x3F8, .ro, 0x0, 0x0⟩] ++
  [⟨0x400, .ro, 0x0, 0x0⟩, ⟨0x408, .ro, 0x0, 0x0⟩, ⟨0x410, .ro, 0x0, 0x0⟩,
   ⟨0x418, .ro, 0x0, 0x0⟩, ⟨0x420, .ro, 0x0, 0x0⟩, ⟨0x428, .ro, 0x0, 0x0⟩,
   ⟨0x430, .ro, 0x0, 0x0⟩, ⟨0x438, .ro, 0x0, 0x0⟩, ⟨0x440, .ro, 0x0, 0x0⟩,
   ⟨0x448, .ro, 0x0, 0x0⟩, ⟨0x450, .ro, 0x0, 0x0⟩, ⟨0x458, .ro, 0x0, 0x0⟩,
   ⟨0x460, .ro, 0x0, 0x0⟩, ⟨0x468, .ro, 0x0, 0x0⟩, ⟨0x470, .ro, 0x0, 0x0⟩,
   ⟨0x478, .ro, 0x0, 0x0⟩, ⟨0x480, .ro, 0x0, 0x0⟩, ⟨0x488, .ro, 0x0, 0x0⟩,
   ⟨0x490, .ro, 0x0, 0x0⟩, ⟨0x498, .ro, 0x0, 0x0⟩, ⟨0x4A0, .ro, 0x0, 0x0⟩,
   ⟨0x4A8, .ro, 0x0, 0x0⟩, ⟨0x4B0, .ro, 0x0, 0x0⟩, ⟨0x4B8, .ro, 0x0, 0x0⟩] ++
  [⟨0x4C0, .ro, 0x0, 0x0⟩, ⟨0x4C8, .ro, 0x0, 0x0⟩, ⟨0x4D0, .ro, 0x0, 0x0⟩,
   ⟨0x4D8, .ro, 0x0, 0x0⟩, ⟨0x4E0, .ro, 0x0, 0x0⟩, ⟨0x4E8, .ro, 0x0, 0x0⟩,
   ⟨0x4F0, .ro, 0x0, 0x0⟩, ⟨0x4F8, .ro, 0x0, 0x0⟩, ⟨0x304, .ro, 0x0, 0x0⟩,
   ⟨0x30C, .ro, 0x0, 0x0⟩, ⟨0x314, .ro, 0x0, 0x0⟩, ⟨0x31C, .ro, 0x0, 0x0⟩,
   ⟨0x324, .ro, 0x0, 0x0⟩, ⟨0x32C, .ro, 0x0, 0x0⟩, ⟨0x334, .ro, 0x0, 0x0⟩,
   ⟨0x33C, .ro, 0x0, 0x0⟩, ⟨0x344, .ro, 0x0, 0x0⟩, ⟨0x34C, .ro, 0x0, 0x0⟩,
   ⟨0x354, .ro, 0x0, 0x0⟩, ⟨0x35C, .ro, 0x0, 0x0⟩, ⟨0x364, .ro, 0x0, 0x0⟩,
   ⟨0x36C, .ro, 0x0, 0x0⟩, ⟨0x374, .ro, 0x0, 0x0⟩, ⟨0x37C, .ro, 0x0, 0x0⟩] ++
  [⟨0x384, .ro, 0x0, 0x0⟩, ⟨0x38C, .ro, 0x0, 0x0⟩, ⟨0x394, .ro, 0x0, 0x0⟩,
   ⟨0x39C, .ro, 0x0, 0x0⟩, ⟨0x3A4, .ro, 0x0, 0x0⟩, ⟨0x3AC, .ro, 0x0, 0x0⟩,
   ⟨0x3B4, .ro, 0x0, 0x0⟩, ⟨0x3BC, .ro, 0x0, 0x0⟩, ⟨0x3C4, .ro, 0x0, 0x0⟩,
   ⟨0x3CC, .ro, 0x0, 0x0⟩, ⟨0x3D4, .ro, 0x0, 0x0⟩, ⟨0x3DC, .ro, 0x0, 0x0⟩,
   ⟨0x3E4, .ro, 0x0, 0x0⟩, ⟨0x3EC, .ro, 0x0, 0x0⟩, ⟨0x3F4, .ro, 0x0, 0x0⟩,
   ⟨0x3FC, .ro, 0x0, 0x0⟩, ⟨0x404, .ro, 0x0, 0x0⟩, ⟨0x40C, .ro, 0x0, 0x0⟩,
   ⟨0x414, .ro, 0x0, 0x0⟩, ⟨0x41C, .ro, 0x0, 0x0⟩, ⟨0x424, .ro, 0x0, 0x0⟩,
   ⟨0x42C, .ro, 0x0, 0x0⟩, ⟨0x434, .ro, 0x0, 0x0⟩, ⟨0x43C, .ro, 0x0, 0x0⟩] ++
  [⟨0x444, .ro, 0x0, 0x0⟩, ⟨0x44C, .ro, 0x0, 0x0⟩, ⟨0x454, .ro, 0x0, 0x0⟩,
   ⟨0x45C, .ro, 0x0, 0x0⟩, ⟨0x464, .ro, 0x0, 0x0⟩, ⟨0x46C, .ro, 0x0, 0x0⟩,
   ⟨0x474, .ro, 0x0, 0x0⟩, ⟨0x47C, .ro, 0x0, 0x0⟩, ⟨0x484, .ro, 0x0, 0x0⟩,
   ⟨0x48C, .ro, 0x0, 0x0⟩, ⟨0x494, .ro, 0x0, 0x0⟩, ⟨0x49C, .ro, 0x0, 0x0⟩,
   ⟨0x4A4, .ro, 0x0, 0x0⟩, ⟨0x4AC, .ro, 0x0, 0x0⟩, ⟨0x4B4, .ro, 0x0, 0x0⟩,
   ⟨0x4BC, .ro, 0x0, 0x0⟩, ⟨0x4C4, .ro, 0x0, 0x0⟩, ⟨0x4CC, .ro, 0x0, 0x0⟩,
   ⟨0x4D4, .ro, 0x0, 0x0⟩, ⟨0x4DC, .ro, 0x0, 0x0⟩, ⟨0x4E4, .ro, 0x0, 0x0⟩,
   ⟨0x4EC, .ro, 0x0, 0x0⟩, ⟨0x4F4, .ro, 0x0, 0x0⟩, ⟨0x4FC, .ro, 0x0, 0x0⟩]

/-- The registers of the page: mover (chapter 09). -/
def regRowsMover : List RegRow :=
  [⟨0x100, .ro, 0x0, 0x0⟩, ⟨0x104, .rw, 0x31, 0x0⟩, ⟨0x108, .ro, 0x0, 0x0⟩,
   ⟨0x110, .ro, 0x0, 0x0⟩, ⟨0x114, .ro, 0x0, 0x0⟩, ⟨0x118, .ro, 0x0, 0x0⟩,
   ⟨0x11C, .ro, 0x0, 0x0⟩, ⟨0x120, .ro, 0x0, 0x0⟩, ⟨0x124, .ro, 0x0, 0x0⟩,
   ⟨0x128, .ro, 0x0, 0x0⟩, ⟨0x12C, .ro, 0x0, 0x7F⟩, ⟨0x130, .ro, 0x0, 0x0⟩,
   ⟨0x134, .ro, 0x0, 0x0⟩, ⟨0x138, .ro, 0x0, 0x0⟩, ⟨0x13C, .ro, 0x0, 0x0⟩,
   ⟨0x140, .ro, 0x0, 0x0⟩, ⟨0x144, .ro, 0x0, 0x0⟩, ⟨0x148, .ro, 0x0, 0x0⟩,
   ⟨0x14C, .ro, 0x0, 0x0⟩, ⟨0x150, .ro, 0x0, 0x0⟩, ⟨0x160, .rw, 0xFFFFFFFF, 0x0⟩,
   ⟨0x164, .rw, 0xFFFFFFFF, 0x0⟩, ⟨0x168, .rw, 0xFFFFFFFF, 0x0⟩, ⟨0x16C, .rw, 0xFFFFFFFF, 0x0⟩] ++
  [⟨0x170, .rw, 0xFFFFFFFF, 0x0⟩, ⟨0x174, .rw, 0xFFFFFFFF, 0x0⟩, ⟨0x178, .rw, 0xFFFFFFFF, 0x0⟩,
   ⟨0x17C, .rw, 0xFFFFFFFF, 0x0⟩, ⟨0x180, .rw, 0xFFFFFFFF, 0x0⟩, ⟨0x184, .rw, 0xFFFFFFFF, 0x0⟩,
   ⟨0x188, .rw, 0xFFFFFFFF, 0x0⟩, ⟨0x18C, .rw, 0xFFFFFFFF, 0x0⟩, ⟨0x190, .rw, 0xFFFFFFFF, 0x0⟩,
   ⟨0x194, .rw, 0xFFFFFFFF, 0x0⟩, ⟨0x198, .rw, 0xFFFFFFFF, 0x0⟩, ⟨0x19C, .rw, 0xFFFFFFFF, 0x0⟩,
   ⟨0x1A0, .rw, 0xFFFFFFFF, 0x0⟩, ⟨0x1A4, .rw, 0xFFFFFFFF, 0x0⟩, ⟨0x1A8, .rw, 0xFFFFFFFF, 0x0⟩,
   ⟨0x1AC, .rw, 0xFFFFFFFF, 0x0⟩, ⟨0x1B0, .rw, 0xFFFFFFFF, 0x0⟩, ⟨0x1B4, .rw, 0xFFFFFFFF, 0x0⟩,
   ⟨0x1B8, .rw, 0xFFFFFFFF, 0x0⟩, ⟨0x1BC, .rw, 0xFFFFFFFF, 0x0⟩, ⟨0x1C0, .ro, 0x0, 0x0⟩,
   ⟨0x1C4, .ro, 0x0, 0x0⟩, ⟨0x1C8, .ro, 0x0, 0x0⟩, ⟨0x1CC, .ro, 0x0, 0x0⟩] ++
  [⟨0x1D0, .ro, 0x0, 0x0⟩, ⟨0x1D4, .ro, 0x0, 0x0⟩, ⟨0x1D8, .ro, 0x0, 0x0⟩,
   ⟨0x1DC, .ro, 0x0, 0x0⟩, ⟨0x1E0, .ro, 0x0, 0x0⟩, ⟨0x1E4, .ro, 0x0, 0x0⟩,
   ⟨0x1E8, .ro, 0x0, 0x0⟩, ⟨0x1EC, .ro, 0x0, 0x0⟩, ⟨0x1F0, .ro, 0x0, 0x0⟩,
   ⟨0x1F4, .ro, 0x0, 0x0⟩, ⟨0x1F8, .ro, 0x0, 0x0⟩, ⟨0x1FC, .ro, 0x0, 0x0⟩,
   ⟨0x200, .ro, 0x0, 0x0⟩, ⟨0x204, .ro, 0x0, 0x0⟩, ⟨0x208, .ro, 0x0, 0x0⟩,
   ⟨0x20C, .ro, 0x0, 0x0⟩, ⟨0x210, .ro, 0x0, 0x0⟩, ⟨0x214, .ro, 0x0, 0x0⟩,
   ⟨0x218, .ro, 0x0, 0x0⟩, ⟨0x21C, .ro, 0x0, 0x0⟩]

/-- The registers of the page: ucomplex (chapter 10). -/
def regRowsUcomplex : List RegRow :=
  [⟨0x100, .ro, 0x0, 0x0⟩, ⟨0x104, .ro, 0x0, 0x0⟩, ⟨0x108, .rw, 0xFFF, 0x0⟩,
   ⟨0x10C, .ro, 0x0, 0x0⟩, ⟨0x110, .ro, 0x0, 0x0⟩, ⟨0x114, .ro, 0x0, 0x0⟩,
   ⟨0x118, .ro, 0x0, 0x0⟩, ⟨0x11C, .ro, 0x0, 0x0⟩, ⟨0x120, .ro, 0x0, 0x0⟩,
   ⟨0x124, .ro, 0x0, 0x0⟩, ⟨0x128, .ro, 0x0, 0x0⟩, ⟨0x12C, .ro, 0x0, 0x0⟩]

/-- The registers of the page: uengine (chapter 10). -/
def regRowsUengine : List RegRow :=
  [⟨0x100, .ro, 0x0, 0x18400100⟩, ⟨0x180, .ro, 0x0, 0x0⟩, ⟨0x184, .ro, 0x0, 0x0⟩,
   ⟨0x188, .ro, 0x0, 0x0⟩]

/-- The registers of the page: calliope (chapter 10). -/
def regRowsCalliope : List RegRow :=
  [⟨0x100, .ro, 0x0, 0x0⟩, ⟨0x104, .ro, 0x0, 0x0⟩, ⟨0x108, .rw, 0x3F, 0x0⟩,
   ⟨0x10C, .ro, 0x0, 0x0⟩, ⟨0x110, .rw, 0xFF, 0x0⟩, ⟨0x114, .rw, 0xFFFFFFFF, 0x0⟩,
   ⟨0x118, .rw, 0xFFFFFFFF, 0x1⟩, ⟨0x11C, .rw, 0xFFFF, 0x1⟩, ⟨0x120, .rw, 0xFFFFFFFF, 0x0⟩,
   ⟨0x124, .rw, 0xFFFF, 0x1⟩, ⟨0x128, .rw, 0xFFFFFFFF, 0x0⟩, ⟨0x12C, .rw, 0xFFFFFFFF, 0x0⟩,
   ⟨0x130, .rw, 0xFFFFFFFF, 0x0⟩, ⟨0x134, .rw, 0xFFFFFFFF, 0x0⟩, ⟨0x138, .rw, 0xFFFFFFFF, 0x0⟩,
   ⟨0x13C, .rw, 0xFFFFFFFF, 0x0⟩, ⟨0x140, .rw, 0xFFFFFFFF, 0x0⟩, ⟨0x144, .rw, 0xFFFFFFFF, 0x0⟩,
   ⟨0x148, .rw, 0xFFFFFFFF, 0x0⟩, ⟨0x14C, .rw, 0xFFFFFFFF, 0x0⟩, ⟨0x150, .rw, 0xFFFFFFFF, 0x0⟩,
   ⟨0x154, .rw, 0xFFFFFFFF, 0x0⟩, ⟨0x158, .rw, 0xFFFFFFFF, 0x0⟩, ⟨0x15C, .rw, 0xFFFFFFFF, 0x0⟩] ++
  [⟨0x160, .rw, 0xFFFFFFFF, 0x0⟩, ⟨0x164, .rw, 0xFFFFFFFF, 0x0⟩, ⟨0x168, .rw, 0xFFFFFFFF, 0x0⟩,
   ⟨0x16C, .rw, 0xFFFFFFFF, 0x0⟩, ⟨0x170, .rw, 0xFFFFFFFF, 0x0⟩, ⟨0x174, .rw, 0xFFFFFFFF, 0x0⟩,
   ⟨0x178, .rw, 0xFFFFFFFF, 0x0⟩, ⟨0x17C, .rw, 0xFFFFFFFF, 0x0⟩, ⟨0x180, .rw, 0xFFFFFFFF, 0x0⟩,
   ⟨0x184, .rw, 0xFFFFFFFF, 0x0⟩, ⟨0x188, .rw, 0xFFFFFFFF, 0x0⟩, ⟨0x18C, .rw, 0xFFFFFFFF, 0x0⟩,
   ⟨0x190, .ro, 0x0, 0x0⟩, ⟨0x194, .ro, 0x0, 0x0⟩, ⟨0x198, .ro, 0x0, 0x0⟩,
   ⟨0x19C, .ro, 0x0, 0x0⟩, ⟨0x1A0, .ro, 0x0, 0x0⟩, ⟨0x1A4, .ro, 0x0, 0x0⟩,
   ⟨0x1A8, .rw, 0xFFFFFFFF, 0x0⟩, ⟨0x1AC, .rw, 0xFFFFFFFF, 0x0⟩]

/-- The registers of the page: stepCommit (chapter 11). -/
def regRowsStepCommit : List RegRow :=
  [⟨0x100, .rw, 0xF7F, 0x200⟩, ⟨0x104, .rw, 0xFFFFFFFF, 0xFFFFFFFF⟩, ⟨0x108, .rw, 0x3FFFFFF, 0x0⟩,
   ⟨0x10C, .rw, 0xFFFFFFFF, 0x27104E20⟩, ⟨0x110, .rw, 0xFFFFFF, 0x101388⟩, ⟨0x114, .rw, 0xFFFFFFFF, 0x7D018F0⟩,
   ⟨0x118, .ro, 0x0, 0x0⟩, ⟨0x11C, .ro, 0x0, 0x0⟩, ⟨0x120, .ro, 0x0, 0x0⟩,
   ⟨0x124, .ro, 0x0, 0x0⟩, ⟨0x128, .rw, 0xFFFFFFFF, 0x0⟩, ⟨0x12C, .ro, 0x0, 0x0⟩,
   ⟨0x130, .rw, 0xFFFFFFFF, 0x3F000000⟩, ⟨0x134, .rw, 0xFFFFFFFF, 0x3DCCCCCD⟩, ⟨0x138, .rw, 0xFFFFFFFF, 0x3C23D70A⟩,
   ⟨0x13C, .rw, 0xFFFF, 0x64⟩, ⟨0x140, .ro, 0x0, 0x0⟩, ⟨0x144, .rw, 0xFFFF, 0x100⟩,
   ⟨0x148, .ro, 0x0, 0x0⟩, ⟨0x14C, .ro, 0x0, 0x0⟩, ⟨0x150, .ro, 0x0, 0x0⟩,
   ⟨0x154, .ro, 0x0, 0x0⟩, ⟨0x158, .ro, 0x0, 0x0⟩, ⟨0x15C, .ro, 0x0, 0x0⟩] ++
  [⟨0x160, .ro, 0x0, 0x0⟩, ⟨0x164, .ro, 0x0, 0x0⟩, ⟨0x168, .ro, 0x0, 0x0⟩,
   ⟨0x16C, .ro, 0x0, 0x0⟩, ⟨0x170, .ro, 0x0, 0x0⟩, ⟨0x174, .ro, 0x0, 0x0⟩,
   ⟨0x178, .ro, 0x0, 0x0⟩, ⟨0x17C, .rw, 0xFFFFFFFF, 0x0⟩]

/-- The registers of the page: farrier (chapter 12). -/
def regRowsFarrier : List RegRow :=
  [⟨0x100, .ro, 0x0, 0x0⟩, ⟨0x104, .rw, 0xFFFFFF07, 0x9C400405⟩, ⟨0x108, .rw, 0xFFFF, 0x0⟩,
   ⟨0x10C, .ro, 0x0, 0x0⟩, ⟨0x110, .rw, 0xFFFFFFFF, 0x0⟩, ⟨0x114, .ro, 0x0, 0x0⟩,
   ⟨0x118, .ro, 0x0, 0x0⟩, ⟨0x11C, .ro, 0x0, 0x0⟩, ⟨0x120, .ro, 0x0, 0x0⟩,
   ⟨0x124, .ro, 0x0, 0x0⟩, ⟨0x128, .ro, 0x0, 0x0⟩, ⟨0x12C, .ro, 0x0, 0x0⟩,
   ⟨0x130, .ro, 0x0, 0x0⟩, ⟨0x134, .ro, 0x0, 0x0⟩]

/-- The registers of the page: port (chapter 13). -/
def regRowsPort : List RegRow :=
  [⟨0x100, .ro, 0x0, 0x8800⟩, ⟨0x104, .rw, 0x3F, 0x0⟩, ⟨0x108, .ro, 0x0, 0x0⟩,
   ⟨0x10C, .ro, 0x0, 0x0⟩, ⟨0x110, .ro, 0x0, 0x0⟩, ⟨0x114, .rw, 0xFF, 0xFF⟩,
   ⟨0x118, .rw, 0xFFFFFFFF, 0x64000A⟩, ⟨0x11C, .ro, 0x0, 0x0⟩, ⟨0x120, .ro, 0x0, 0x0⟩,
   ⟨0x124, .ro, 0x0, 0x0⟩, ⟨0x128, .ro, 0x0, 0x0⟩, ⟨0x12C, .ro, 0x0, 0x0⟩,
   ⟨0x130, .ro, 0x0, 0x0⟩, ⟨0x134, .rw, 0xFFFFFFFF, 0x320044C⟩, ⟨0x138, .ro, 0x0, 0x0⟩,
   ⟨0x13C, .ro, 0x0, 0x0⟩, ⟨0x140, .ro, 0x0, 0x0⟩, ⟨0x144, .rw, 0x3FF, 0x0⟩,
   ⟨0x148, .rw, 0x3FF, 0x0⟩, ⟨0x14C, .ro, 0x0, 0x0⟩]

/-- The registers of the page: optGlobal (chapter 13). -/
def regRowsOptGlobal : List RegRow :=
  [⟨0x100, .rw, 0xFFFF, 0xFFFF⟩, ⟨0x104, .ro, 0x0, 0x0⟩, ⟨0x108, .rw, 0xFFF, 0x0⟩,
   ⟨0x10C, .rw, 0x8000FF3F, 0x0⟩, ⟨0x110, .rw, 0xFFFF00FF, 0x3E80008⟩, ⟨0x114, .rw, 0xFF, 0x80⟩,
   ⟨0x118, .ro, 0x0, 0x0⟩, ⟨0x11C, .ro, 0x0, 0x0⟩, ⟨0x120, .ro, 0x0, 0x0⟩]

/-- The registers of the page: hostPort (chapter 14). -/
def regRowsHostPort : List RegRow :=
  [⟨0x100, .ro, 0x0, 0x0⟩, ⟨0x104, .ro, 0x0, 0x0⟩, ⟨0x108, .rw, 0x3F, 0x13⟩,
   ⟨0x10C, .ro, 0x0, 0x0⟩, ⟨0x110, .rw, 0x37, 0x0⟩, ⟨0x114, .rw, 0xF, 0x0⟩,
   ⟨0x118, .rw, 0xFFFFFFFF, 0x0⟩, ⟨0x11C, .rw, 0xFFFF, 0x0⟩, ⟨0x120, .rw, 0xF, 0x0⟩,
   ⟨0x124, .rw, 0xFFFFFFFF, 0x0⟩, ⟨0x128, .rw, 0xFFFFFFFF, 0x0⟩, ⟨0x12C, .ro, 0x0, 0x0⟩,
   ⟨0x130, .rw, 0x7FF, 0x0⟩, ⟨0x134, .rw, 0x800007FF, 0x0⟩, ⟨0x138, .ro, 0x0, 0x0⟩]

/-- The registers of the page: hostGlobal (chapter 14). -/
def regRowsHostGlobal : List RegRow :=
  [⟨0x100, .rw, 0x1FFFF, 0x103E8⟩, ⟨0x104, .rw, 0x7, 0x0⟩, ⟨0x108, .ro, 0x0, 0x0⟩,
   ⟨0x10C, .ro, 0x0, 0x0⟩, ⟨0x110, .ro, 0x0, 0x0⟩, ⟨0x114, .ro, 0x0, 0x0⟩,
   ⟨0x118, .ro, 0x0, 0x0⟩, ⟨0x140, .rw, 0xFFFFFFFF, 0x0⟩, ⟨0x144, .rw, 0xFFFF, 0x0⟩,
   ⟨0x160, .rw, 0xFFFFFFFF, 0x0⟩, ⟨0x164, .rw, 0xFFFF, 0x0⟩, ⟨0x180, .rw, 0xFFFFFFFF, 0x0⟩,
   ⟨0x184, .rw, 0xFFFF, 0x0⟩, ⟨0x1A0, .rw, 0xFFFFFFFF, 0x0⟩, ⟨0x1A4, .rw, 0xFFFF, 0x0⟩,
   ⟨0x148, .rw, 0xFFFFFFFF, 0x0⟩, ⟨0x168, .rw, 0xFFFFFFFF, 0x0⟩, ⟨0x188, .rw, 0xFFFFFFFF, 0x0⟩,
   ⟨0x1A8, .rw, 0xFFFFFFFF, 0x0⟩, ⟨0x14C, .ro, 0x0, 0x0⟩, ⟨0x16C, .ro, 0x0, 0x0⟩,
   ⟨0x18C, .ro, 0x0, 0x0⟩, ⟨0x1AC, .ro, 0x0, 0x0⟩, ⟨0x150, .ro, 0x0, 0x0⟩] ++
  [⟨0x170, .ro, 0x0, 0x0⟩, ⟨0x190, .ro, 0x0, 0x0⟩, ⟨0x1B0, .ro, 0x0, 0x0⟩,
   ⟨0x154, .ro, 0x0, 0x0⟩, ⟨0x174, .ro, 0x0, 0x0⟩, ⟨0x194, .ro, 0x0, 0x0⟩,
   ⟨0x1B4, .ro, 0x0, 0x0⟩, ⟨0x158, .ro, 0x0, 0x0⟩, ⟨0x15C, .ro, 0x0, 0x0⟩,
   ⟨0x178, .ro, 0x0, 0x0⟩, ⟨0x17C, .ro, 0x0, 0x0⟩, ⟨0x198, .ro, 0x0, 0x0⟩,
   ⟨0x19C, .ro, 0x0, 0x0⟩, ⟨0x1B8, .ro, 0x0, 0x0⟩, ⟨0x1BC, .ro, 0x0, 0x0⟩,
   ⟨0x1C0, .rw, 0xFFFFFFFF, 0x0⟩, ⟨0x1C4, .rw, 0xFFFFFFFF, 0x0⟩, ⟨0x1C8, .rw, 0xFFFFFFFF, 0x0⟩,
   ⟨0x1CC, .rw, 0xFFFFFFFF, 0x0⟩, ⟨0x1D0, .rw, 0xFFFFFFFF, 0x0⟩, ⟨0x1D4, .rw, 0xFFFFFFFF, 0x0⟩,
   ⟨0x1D8, .rw, 0xFFFFFFFF, 0x0⟩, ⟨0x1DC, .rw, 0xFFFFFFFF, 0x0⟩]

/-- The registers of the page: fieldPower (chapter 15). -/
def regRowsFieldPower : List RegRow :=
  [⟨0x100, .ro, 0x0, 0x0⟩, ⟨0x104, .ro, 0x0, 0x24924⟩, ⟨0x108, .ro, 0x0, 0x0⟩,
   ⟨0x10C, .ro, 0x0, 0x0⟩, ⟨0x110, .ro, 0x0, 0x0⟩, ⟨0x114, .ro, 0x0, 0x0⟩,
   ⟨0x118, .ro, 0x0, 0x0⟩, ⟨0x11C, .ro, 0x0, 0x0⟩, ⟨0x120, .ro, 0x0, 0x0⟩,
   ⟨0x124, .ro, 0x0, 0x0⟩, ⟨0x128, .rwl, 0xFFF, 0x546⟩, ⟨0x12C, .ro, 0x0, 0x0⟩,
   ⟨0x130, .ro, 0x0, 0x0⟩]

/-- The registers of the page: powerGlobal (chapter 15). -/
def regRowsPowerGlobal : List RegRow :=
  [⟨0x100, .ro, 0x0, 0x0⟩, ⟨0x104, .ro, 0x0, 0x0⟩, ⟨0x108, .ro, 0x0, 0x0⟩,
   ⟨0x10C, .rw, 0xFFFF, 0xB3B0⟩, ⟨0x110, .rw, 0xFFFF, 0x6E695F5A⟩, ⟨0x114, .ro, 0x0, 0x0⟩,
   ⟨0x118, .ro, 0x0, 0x0⟩, ⟨0x11C, .ro, 0x0, 0x0⟩, ⟨0x120, .ro, 0x0, 0x0⟩,
   ⟨0x124, .ro, 0x0, 0x7D0⟩, ⟨0x128, .ro, 0x0, 0x0⟩, ⟨0x12C, .rw, 0xF, 0x0⟩,
   ⟨0x130, .rw, 0x3, 0x0⟩, ⟨0x134, .rw, 0x3, 0x0⟩, ⟨0x138, .rw, 0x3, 0x0⟩,
   ⟨0x13C, .rw, 0x3, 0x0⟩, ⟨0x140, .ro, 0x0, 0x0⟩, ⟨0x144, .ro, 0x0, 0x0⟩]

/-- The registers of the page: security (chapter 16). -/
def regRowsSecurity : List RegRow :=
  [⟨0x100, .ro, 0x0, 0x0⟩, ⟨0x104, .ro, 0x0, 0x0⟩, ⟨0x108, .ro, 0x0, 0x0⟩,
   ⟨0x10C, .rwl, 0x3, 0x0⟩, ⟨0x110, .rw, 0x1, 0x0⟩, ⟨0x114, .ro, 0x0, 0x0⟩,
   ⟨0x118, .ro, 0x0, 0x0⟩, ⟨0x11C, .ro, 0x0, 0x0⟩, ⟨0x120, .ro, 0x0, 0x0⟩,
   ⟨0x124, .rw, 0xFFFFFFFF, 0x0⟩, ⟨0x128, .ro, 0x0, 0x0⟩, ⟨0x12C, .ro, 0x0, 0x0⟩,
   ⟨0x130, .rw, 0x3, 0x0⟩, ⟨0x134, .ro, 0x0, 0x0⟩, ⟨0x138, .ro, 0x0, 0x0⟩,
   ⟨0x13C, .ro, 0x0, 0x0⟩, ⟨0x140, .ro, 0x0, 0x0⟩, ⟨0x144, .ro, 0x0, 0x0⟩,
   ⟨0x148, .ro, 0x0, 0x0⟩, ⟨0x14C, .ro, 0x0, 0x0⟩, ⟨0x150, .ro, 0x0, 0x0⟩]

/-- The registers of the page: calib (chapter 16). -/
def regRowsCalib : List RegRow :=
  [⟨0x100, .rw, 0xFFFFF, 0x0⟩, ⟨0x104, .ro, 0x0, 0x0⟩, ⟨0x108, .rw, 0xFFFFFFFF, 0x0⟩,
   ⟨0x10C, .ro, 0x0, 0x0⟩, ⟨0x110, .ro, 0x0, 0x0⟩, ⟨0x114, .ro, 0x0, 0x0⟩,
   ⟨0x118, .ro, 0x0, 0x0⟩, ⟨0x11C, .ro, 0x0, 0x0⟩]

/-- The registers of the page: monitor (chapter 17). -/
def regRowsMonitor : List RegRow :=
  [⟨0x100, .rw, 0x1FF, 0x0⟩, ⟨0x104, .rw, 0xFFFF0F, 0x0⟩, ⟨0x108, .rw, 0xFFFF, 0x1⟩,
   ⟨0x10C, .rw, 0xFFFFFFFF, 0x0⟩, ⟨0x110, .rw, 0xFFFFFFFF, 0x1⟩, ⟨0x114, .rw, 0xFFFF, 0x708⟩,
   ⟨0x118, .ro, 0x0, 0x0⟩, ⟨0x11C, .ro, 0x0, 0x0⟩, ⟨0x120, .ro, 0x0, 0x0⟩,
   ⟨0x124, .ro, 0x0, 0x0⟩, ⟨0x128, .ro, 0x0, 0x7FFFFFFF⟩, ⟨0x12C, .ro, 0x0, 0x80000000⟩,
   ⟨0x130, .ro, 0x0, 0x0⟩, ⟨0x134, .ro, 0x0, 0x0⟩, ⟨0x138, .ro, 0x0, 0x0⟩,
   ⟨0x140, .ro, 0x0, 0x0⟩, ⟨0x144, .ro, 0x0, 0x7FFFFFFF⟩, ⟨0x148, .ro, 0x0, 0x80000000⟩,
   ⟨0x14C, .ro, 0x0, 0x0⟩, ⟨0x150, .ro, 0x0, 0x0⟩, ⟨0x180, .ro, 0x0, 0x0⟩,
   ⟨0x184, .ro, 0x0, 0x0⟩, ⟨0x188, .ro, 0x0, 0x0⟩, ⟨0x18C, .ro, 0x0, 0x0⟩] ++
  [⟨0x190, .ro, 0x0, 0x0⟩, ⟨0x194, .ro, 0x0, 0x0⟩, ⟨0x198, .ro, 0x0, 0x0⟩,
   ⟨0x19C, .ro, 0x0, 0x0⟩, ⟨0x1A0, .ro, 0x0, 0x0⟩, ⟨0x1A4, .ro, 0x0, 0x0⟩,
   ⟨0x1A8, .ro, 0x0, 0x0⟩, ⟨0x1AC, .ro, 0x0, 0x0⟩, ⟨0x1B0, .ro, 0x0, 0x0⟩,
   ⟨0x1B4, .ro, 0x0, 0x0⟩, ⟨0x1B8, .ro, 0x0, 0x0⟩, ⟨0x1BC, .ro, 0x0, 0x0⟩,
   ⟨0x1C0, .ro, 0x0, 0x0⟩, ⟨0x1C4, .ro, 0x0, 0x0⟩, ⟨0x1C8, .ro, 0x0, 0x0⟩,
   ⟨0x1CC, .ro, 0x0, 0x0⟩, ⟨0x1D0, .ro, 0x0, 0x0⟩, ⟨0x1D4, .ro, 0x0, 0x0⟩,
   ⟨0x1D8, .ro, 0x0, 0x0⟩, ⟨0x1DC, .ro, 0x0, 0x0⟩, ⟨0x1E0, .ro, 0x0, 0x0⟩,
   ⟨0x1E4, .ro, 0x0, 0x0⟩, ⟨0x1E8, .ro, 0x0, 0x0⟩, ⟨0x1EC, .ro, 0x0, 0x0⟩] ++
  [⟨0x1F0, .ro, 0x0, 0x0⟩, ⟨0x1F4, .ro, 0x0, 0x0⟩, ⟨0x1F8, .ro, 0x0, 0x0⟩,
   ⟨0x1FC, .ro, 0x0, 0x0⟩]

/-- The registers of the page: module (chapter 18). -/
def regRowsModule : List RegRow :=
  [⟨0x100, .ro, 0x0, 0x0⟩, ⟨0x110, .ro, 0x0, 0x1A101⟩, ⟨0x114, .ro, 0x0, 0x5060430⟩,
   ⟨0x118, .ro, 0x0, 0x8020440⟩, ⟨0x11C, .ro, 0x0, 0x34C0040⟩, ⟨0x120, .ro, 0x0, 0x5004080⟩,
   ⟨0x130, .rw, 0xFFFF, 0x0⟩]

/-- The registers of the page: evlog (chapter 18). -/
def regRowsEvlog : List RegRow :=
  [⟨0x100, .ro, 0x0, 0x0⟩, ⟨0x104, .rw, 0xFFFFFFFF, 0x0⟩, ⟨0x108, .ro, 0x0, 0x0⟩,
   ⟨0x10C, .ro, 0x0, 0x0⟩, ⟨0x110, .ro, 0x0, 0x0⟩, ⟨0x114, .ro, 0x0, 0x0⟩,
   ⟨0x118, .ro, 0x0, 0x0⟩, ⟨0x11C, .ro, 0x0, 0x0⟩, ⟨0x120, .ro, 0x0, 0x0⟩,
   ⟨0x124, .ro, 0x0, 0x0⟩]

/-- The registers of the page: clmem (chapter 18). -/
def regRowsClmem : List RegRow :=
  [⟨0x100, .ro, 0x0, 0x0⟩, ⟨0x104, .ro, 0x0, 0x0⟩]

/-- The block-specific registers of a kind of page. -/
def regRows : PageKind → List RegRow
  | .timebase => regRowsTimebase
  | .score => regRowsScore
  | .me => regRowsMe
  | .mcore => regRowsMcore
  | .vcore => regRowsVcore
  | .ve => regRowsVe
  | .watch => regRowsWatch
  | .router => regRowsRouter
  | .msite => regRowsMsite
  | .placement => regRowsPlacement
  | .placeGlobal => regRowsPlaceGlobal
  | .mover => regRowsMover
  | .ucomplex => regRowsUcomplex
  | .uengine => regRowsUengine ++ regRowsVe.filter fun r => r.off ≠ 0x100
  | .calliope => regRowsCalliope
  | .stepCommit => regRowsStepCommit
  | .farrier => regRowsFarrier
  | .port => regRowsPort
  | .optGlobal => regRowsOptGlobal
  | .hostPort => regRowsHostPort
  | .hostGlobal => regRowsHostGlobal
  | .fieldPower => regRowsFieldPower
  | .powerGlobal => regRowsPowerGlobal
  | .security => regRowsSecurity
  | .calib => regRowsCalib
  | .monitor => regRowsMonitor
  | .module => regRowsModule
  | .evlog => regRowsEvlog
  | .clmem => regRowsClmem

/-- Offsets of the LO registers of a page's 64-bit pairs; HI lies 4 bytes above (R14, R412). -/
def regPairs : PageKind → List Nat
  | .timebase => [0x24, 0x108, 0x118, 0x130]
  | .score => [0x24, 0x100]
  | .me => [0x24, 0x114, 0x11C]
  | .mcore => [0x24]
  | .vcore => [0x24]
  | .ve => [0x24, 0x114]
  | .watch => [0x24, 0x104, 0x120, 0x128, 0x130, 0x138, 0x140, 0x148, 0x150, 0x158, 0x160]
  | .router => [0x24]
  | .msite => [0x24, 0x114, 0x11C]
  | .placement => [0x24]
  | .placeGlobal => [0x24, 0x100, 0x108, 0x110, 0x118, 0x120, 0x128, 0x140, 0x148, 0x150, 0x158, 0x160, 0x168, 0x180, 0x188, 0x190, 0x198, 0x1A0, 0x1A8, 0x1C0, 0x1C8, 0x1D0, 0x1D8, 0x1E0, 0x1E8, 0x300, 0x308, 0x310, 0x318, 0x320, 0x328, 0x330, 0x338, 0x340, 0x348, 0x350, 0x358, 0x360, 0x368, 0x370, 0x378, 0x380, 0x388, 0x390, 0x398, 0x3A0, 0x3A8, 0x3B0, 0x3B8, 0x3C0, 0x3C8, 0x3D0, 0x3D8, 0x3E0, 0x3E8, 0x3F0, 0x3F8, 0x400, 0x408, 0x410, 0x418, 0x420, 0x428, 0x430, 0x438, 0x440, 0x448, 0x450, 0x458, 0x460, 0x468, 0x470, 0x478, 0x480, 0x488, 0x490, 0x498, 0x4A0, 0x4A8, 0x4B0, 0x4B8, 0x4C0, 0x4C8, 0x4D0, 0x4D8, 0x4E0, 0x4E8, 0x4F0, 0x4F8]
  | .mover => [0x24, 0x110, 0x118, 0x130, 0x148]
  | .ucomplex => [0x24, 0x10C, 0x11C]
  | .uengine => [0x24, 0x114]
  | .calliope => [0x24, 0x100, 0x128, 0x130, 0x138, 0x140, 0x148, 0x150, 0x158, 0x160, 0x168, 0x170, 0x178, 0x180, 0x188, 0x190, 0x198, 0x1A0, 0x1A8]
  | .stepCommit => [0x24, 0x118]
  | .farrier => [0x24, 0x130]
  | .port => [0x24]
  | .optGlobal => [0x24]
  | .hostPort => [0x24, 0x118, 0x124]
  | .hostGlobal => [0x24, 0x140, 0x158, 0x160, 0x178, 0x180, 0x198, 0x1A0, 0x1B8, 0x1C0, 0x1C8, 0x1D0, 0x1D8]
  | .fieldPower => [0x24]
  | .powerGlobal => [0x24, 0x140]
  | .security => [0x24, 0x128]
  | .calib => [0x24]
  | .monitor => [0x24, 0x11C, 0x130, 0x14C]
  | .module => [0x24]
  | .evlog => [0x24]
  | .clmem => [0x24]

end Sys2Proof.Machine
end

