-- ==== Sys2Proof/Machine/Addr.lean ====
section
/-! DEFINITION. Device addresses: regions, pages and their blocks (R2 to R5, R186, R410, R411, R418), BAR0 (R350). -/
namespace Sys2Proof

open Machine

/-- The ring of a field (R3). -/
def ringOf (f : Field) : Ring := ⟨f.val / 24 * 2 + f.val % 8 / 4, by omega⟩
/-- The fields of a ring in increasing order (R3). -/
def ringFields (r : Ring) : List Field := (List.finRange 48).filter fun f => ringOf f = r
/-- The number of a cluster within the wafer. -/
def ClLoc.idx (l : ClLoc) : Nat := l.f.val * 6 + l.c.val
/-- All clusters of a field. -/
def fieldClusters (f : Field) : List ClLoc := (List.finRange 6).map fun c => ⟨f, c⟩
/-- All clusters of the wafer. -/
def allClusters : List ClLoc := (List.finRange 48).flatMap fieldClusters

/-- The device address of a register page: region 0x03, field, cluster, unit, page (R411). -/
def pageBase (f c u p : Nat) : Nat := 3 <<< 48 + f <<< 40 + c <<< 37 + u <<< 33 + p <<< 12
/-- A module-global page (field code 0x3F, cluster 0, unit 0). -/
def globalPage (p : Nat) : Nat := pageBase 63 0 0 p

/-- Region of a device address. -/
def daRegion (a : Nat) : Nat := bitsOf a 48 8
/-- Field code of a region 0x02 or 0x03 address. -/
def daField (a : Nat) : Nat := bitsOf a 40 6
/-- Cluster code. -/
def daCluster (a : Nat) : Nat := bitsOf a 37 3
/-- Unit code. -/
def daUnit (a : Nat) : Nat := bitsOf a 33 4
/-- Page number of a register address. -/
def daPage (a : Nat) : Nat := bitsOf a 12 12
/-- Offset within the page. -/
def daOff (a : Nat) : Nat := bitsOf a 0 12

/-- The module page (R419). -/
def pgModule : Nat := globalPage 0
/-- The event log page (R421). -/
def pgEvlog : Nat := globalPage 1
/-- The stride timebase page. -/
def pgTimebase : Nat := globalPage 0x014
/-- The module-global optical page. -/
def pgOptGlobal : Nat := globalPage 0x090
/-- Calliope of a paddock. -/
def pgCalliope (n : Paddock) : Nat := globalPage (0x0B0 + n.val)
/-- The numeric watch of a ring. -/
def pgWatch (r : Ring) : Nat := globalPage (0x0C0 + r.val)
/-- The step-commit page of a paddock. -/
def pgCommit (n : Paddock) : Nat := globalPage (0x0D0 + n.val)
/-- The Farrier page. -/
def pgFarrier : Nat := globalPage 0x0E0
/-- The module-global power page. -/
def pgPower : Nat := globalPage 0x100
/-- The module-global host page. -/
def pgHostGlobal : Nat := globalPage 0x110
/-- The security page. -/
def pgSecurity : Nat := globalPage 0x120
/-- The calibration page. -/
def pgCalib : Nat := globalPage 0x130
/-- The module-global placement page. -/
def pgPlaceGlobal : Nat := globalPage 0x150

/-- An M-core slot's page. -/
def McLoc.page (m : McLoc) : Nat := pageBase m.cl.f.val m.cl.c.val (m.slot.val + 1) 0
/-- An ME's page. -/
def MeLoc.page (m : MeLoc) : Nat := pageBase m.mc.cl.f.val m.mc.cl.c.val (m.mc.slot.val + 1) (m.e.val + 1)
/-- A V-core's page. -/
def VcLoc.page (m : VcLoc) : Nat := pageBase m.cl.f.val m.cl.c.val (m.v.val + 6) 0
/-- The update complex page of a field. -/
def pgUpdate (f : Field) : Nat := pageBase f.val 6 5 0
/-- A VE's page. -/
def VeLoc.page : VeLoc → Nat
  | .vcore vc e => pageBase vc.cl.f.val vc.cl.c.val (vc.v.val + 6) (e.val + 1)
  | .epilogue mc => pageBase mc.cl.f.val mc.cl.c.val (mc.slot.val + 1) 5
  | .update f e => pageBase f.val 6 5 (e.val + 1)
/-- The S-core page of a cluster. -/
def ClLoc.page (l : ClLoc) : Nat := pageBase l.f.val l.c.val 8 0
/-- A cluster memory or field services SRAM page. -/
def CmLoc.page : CmLoc → Nat
  | .cluster cl => pageBase cl.f.val cl.c.val 0 0
  | .services f => pageBase f.val 6 0 0
/-- A router's or hub's page (R183). -/
def RtrLoc.page : RtrLoc → Nat
  | .cluster cl => pageBase cl.f.val cl.c.val 0 1
  | .hub f => pageBase f.val 6 15 0
/-- The field of a router. -/
def RtrLoc.field : RtrLoc → Field
  | .cluster cl => cl.f
  | .hub f => f
/-- The field of a memory site. -/
def siteField (s : Site) : Field := ⟨s.val / 2, by omega⟩
/-- A memory site's page. -/
def sitePage (s : Site) : Nat := pageBase (s.val / 2) 6 (1 + s.val % 2) 0
/-- The field a host port attaches to (R5). -/
def hostField (h : HostId) : Field := if h = 0 then 19 else 28
/-- The field of a mover channel. -/
def MvLoc.field : MvLoc → Field
  | .cluster cl _ => cl.f
  | .site s _ => siteField s
  | .port f _ => f
  | .host h _ => hostField h
/-- A mover channel's page (R418). -/
def MvLoc.page : MvLoc → Nat
  | .cluster cl ch => pageBase cl.f.val cl.c.val 8 (0x10 + ch.val)
  | .site s ch => pageBase (s.val / 2) 6 (1 + s.val % 2) (1 + ch.val)
  | .port f ch => pageBase f.val 6 3 (0x10 + ch.val)
  | .host h ch => pageBase (hostField h).val 6 4 (0x10 + ch.val)
/-- A port complex page. -/
def pgPort (f : Field) : Nat := pageBase f.val 6 3 0
/-- A host port's page (R366). -/
def pgHostPort (h : HostId) : Nat := pageBase (hostField h).val 6 4 0
/-- A placement controller's page. -/
def pgPlace (f : Field) : Nat := pageBase f.val 6 6 0
/-- A field's power and thermal page. -/
def pgFieldPower (f : Field) : Nat := pageBase f.val 6 15 1
/-- A monitor's page (R409). -/
def pgMonitor (f : Field) (m : Fin 16) : Nat := pageBase f.val 6 15 (0x10 + m.val)

/-- The block of a page, by field, cluster, unit and page: its kind and its BLK_ID instance (R418). -/
def pageAt (f c u p : Nat) : Option (PageKind × Nat) :=
  if f = 63 then
    if c ≠ 0 ∨ u ≠ 0 then none
    else if p = 0 then some (.module, 0)
    else if p = 1 then some (.evlog, 1)
    else if p = 0x14 then some (.timebase, 0)
    else if p = 0x90 then some (.optGlobal, 0xFF)
    else if 0xB0 ≤ p ∧ p < 0xB4 then some (.calliope, p - 0xB0)
    else if 0xC0 ≤ p ∧ p < 0xC4 then some (.watch, p - 0xC0)
    else if 0xD0 ≤ p ∧ p < 0xD4 then some (.stepCommit, p - 0xD0)
    else if p = 0xE0 then some (.farrier, 0)
    else if p = 0x100 then some (.powerGlobal, 0xFF)
    else if p = 0x110 then some (.hostGlobal, 0xFF)
    else if p = 0x120 then some (.security, 0xFF)
    else if p = 0x130 then some (.calib, 0xFF)
    else if p = 0x150 then some (.placeGlobal, 0xFF)
    else none
  else if 48 ≤ f then none
  else if c < 6 then
    if u = 0 then (if p = 0 then some (.clmem, c) else if p = 1 then some (.router, c) else none)
    else if u ≤ 5 then
      if p = 0 then some (.mcore, u) else if p ≤ 4 then some (.me, p - 1) else if p = 5 then some (.ve, 5) else none
    else if u ≤ 7 then (if p = 0 then some (.vcore, 0) else if p ≤ 4 then some (.ve, p) else none)
    else if u = 8 then
      if p = 0 then some (.score, c) else if 0x10 ≤ p ∧ p < 0x14 then some (.mover, p - 0x10) else none
    else none
  else if c = 6 then
    if u = 0 then (if p = 0 then some (.clmem, 6) else none)
    else if u ≤ 2 then (if p = 0 then some (.msite, u - 1) else if p ≤ 16 then some (.mover, p - 1) else none)
    else if u = 3 then (if p = 0 then some (.port, f) else if 0x10 ≤ p ∧ p < 0x18 then some (.mover, p - 0x10) else none)
    else if u = 4 then
      if f = 19 ∨ f = 28 then
        (if p = 0 then some (.hostPort, if f = 19 then 0 else 1) else if 0x10 ≤ p ∧ p < 0x18 then some (.mover, p - 0x10) else none)
      else none
    else if u = 5 then (if p = 0 then some (.ucomplex, 4) else if p ≤ 4 then some (.uengine, p - 1) else none)
    else if u = 6 then (if p = 0 then some (.placement, f) else none)
    else if u = 15 then
      if p = 0 then some (.router, 6) else if p = 1 then some (.fieldPower, f)
      else if 0x10 ≤ p ∧ p < 0x20 then some (.monitor, p - 0x10) else none
    else none
  else none

/-- The block of a register page by its device address. -/
def blockAt (page : Nat) : Option (PageKind × Nat) :=
  if daRegion page = 3 ∧ bitsOf page 46 2 = 0 ∧ bitsOf page 24 9 = 0 then
    pageAt (daField page) (daCluster page) (daUnit page) (daPage page)
  else none

/-- A SEC_BUF page: plain words without a header (R401, R412). -/
def secBufPage (page : Nat) : Bool := [globalPage 0x121, globalPage 0x122, globalPage 0x123, globalPage 0x124].contains page

/-- Block type codes (R418). -/
def Machine.PageKind.typeCode : PageKind → Nat
  | .module | .evlog => 0x00
  | .me => 0x01 | .mcore => 0x02 | .vcore | .ve => 0x03 | .score => 0x04 | .clmem => 0x05 | .router => 0x06
  | .msite => 0x07 | .mover => 0x08 | .port | .optGlobal => 0x09 | .ucomplex | .uengine => 0x0A | .calliope => 0x0B
  | .watch => 0x0C | .stepCommit => 0x0D | .farrier => 0x0E | .monitor => 0x0F | .fieldPower | .powerGlobal => 0x10
  | .hostPort | .hostGlobal => 0x11 | .security => 0x12 | .calib => 0x13 | .timebase => 0x14
  | .placement | .placeGlobal => 0x15

/-- BLK_LOC of a page (R412). -/
def blkLoc (page : Nat) : Nat :=
  daField page + daCluster page <<< 8 + daUnit page <<< 12 + daPage page <<< 16

/-- Link states of a router or hub at reset: ABSENT (7) where there is no link: at the wafer's edge, at CORE, and where a register has no port; else DOWN (R153, R183). -/
def linkReset (inst f c : Nat) : Nat :=
  let x := f % 8 * 2 + c % 2
  let y := f / 8 * 3 + c / 2
  let absent : List Nat := if inst = 6 then [6] else
    (if y = 17 then [0] else []) ++ (if x = 15 then [1] else []) ++ (if y = 0 then [2] else []) ++ (if x = 0 then [3] else []) ++ [4, 6]
  absent.foldl (fun v p => v + 7 <<< (3 * p)) 0
/-- The reset value of the register word at a device address: the header (R412), the values the index and the location fix,
and the register tables. -/
def resetOf (k : Nat) : Nat :=
  let page := k - daOff k
  let off := daOff k
  match blockAt page with
  | none => 0
  | some (kind, inst) =>
    if off = 0x000 then 1 + inst <<< 8 + kind.typeCode <<< 16
    else if off = 0x004 then blkLoc page
    else if off = 0x008 then 1
    else if off < 0x100 then 0
    else match kind, off with
      | .ve, 0x100 => if inst = 5 then 0x18200040 else 0x18200180
      | .ve, 0x104 | .uengine, 0x104 => 0x100
      | .router, 0x104 | .router, 0x108 => linkReset inst (daField page) (daCluster page)
      | .uengine, 0x100 => 0x18400100
      | .router, 0x100 =>
          if inst = 6 then 1 <<< 31
          else let f := daField page; let c := daCluster page
               let x := f % 8 * 2 + c % 2; let y := f / 8 * 3 + c / 2
               x + y <<< 8 + (y * 16 + x) <<< 16
      | .msite, 0x100 => (daField page * 2 + inst) + 64 <<< 8 + 80 <<< 16 + 32 <<< 24
      | .mover, 0x100 =>
          let u := daUnit page
          (if daCluster page < 6 then 0 else if u ≤ 2 then 1 else if u = 3 then 2 else 3) + inst <<< 2 +
            (if daCluster page = 6 ∧ (u = 1 ∨ u = 2) ∧ 14 ≤ inst then 1 else 0) <<< 6
      | .clmem, 0x100 => if inst = 6 then 64 else 48
      | .port, 0x100 => 0x8800 + daField page
      | .hostPort, 0x108 => if inst = 0 then 0x13 else 0x1C
      | kind, off => match (regRows kind).find? (fun r => r.off = off) with
          | some r => r.reset
          | none => 0

/-- Region 0x00: the site and the site-local offset of an interleaved address of a ring (R186). -/
def interleave (r : Ring) (o : Nat) : Nat × Nat :=
  let g := o >>> 12
  let j := g % 24
  let f := (ringFields r).getD (j / 2) 0
  (f.val * 2 + j % 2, (g / 24) <<< 12 + o % 4096)

/-- T0 bytes of a unit of region 0x02 (unit table of R411). -/
def t0Bytes (c u : Nat) : Nat :=
  if c < 6 then
    if u = 0 then 48 <<< 20 else if u ≤ 5 then 16 <<< 20 else if u ≤ 7 then 8 <<< 20 else if u = 8 then 2 <<< 20 else 0
  else if c = 6 ∧ u = 0 then 64 <<< 20 else 0

/-- Where a byte of regions 0x00 to 0x02 lies: T1 as its region 0x01 site address, T0 as its own; none where unpopulated (R186, R410). -/
def physAddr (a : Nat) : Option Nat :=
  if daRegion a = 0 then
    if bitsOf a 43 5 = 0 ∧ bitsOf a 0 41 < 0x18000000000 then
      let (s, o) := interleave ⟨bitsOf a 41 2, Nat.mod_lt _ (by decide)⟩ (bitsOf a 0 41)
      some (1 <<< 48 + s <<< 40 + o)
    else none
  else if daRegion a = 1 then
    if bitsOf a 47 1 = 0 ∧ bitsOf a 36 4 = 0 ∧ bitsOf a 40 7 < 96 then some (a % 2 ^ 56) else none
  else if daRegion a = 2 then
    if bitsOf a 46 2 = 0 ∧ daField a < 48 ∧ bitsOf a 0 33 < t0Bytes (daCluster a) (daUnit a) then some (a % 2 ^ 56) else none
  else none
/-- The site of a physical T1 address. -/
def siteOf (a : Nat) : Nat := bitsOf a 40 7
/-- T1 or T0 address of site-local offset o of a site. -/
def siteAddr (s o : Nat) : Nat := 1 <<< 48 + s <<< 40 + o
/-- A T0 address (region 0x02). -/
def t0Addr (f c u o : Nat) : Nat := 2 <<< 48 + f <<< 40 + c <<< 37 + u <<< 33 + o
/-- The field whose T0 or T1 holds a physical byte. -/
def fieldOfPhys (a : Nat) : Nat := if daRegion a = 1 then siteOf a / 2 else daField a

/-- PATH codes of BLK_CMD_RESULT (R412). -/
def Path.code : Path → Nat
  | .rm => 0 | .h0 => 1 | .h1 => 2 | .score _ => 3 | .ue _ _ => 4
/-- The host of a path. -/
def Path.host : Path → Option HostId
  | .h0 => some 0 | .h1 => some 1 | _ => none
/-- A number for each path, so that each holds its own latches (R14). -/
def Path.idx : Path → Nat
  | .rm => 0 | .h0 => 1 | .h1 => 2 | .score cl => 3 + cl.idx | .ue f e => 300 + 4 * f.val + e.val
end Sys2Proof
end

