-- ==== Sys2Proof/Machine/PartsCore.lean ====
section
/-! DEFINITION. Parts of the state: what the block sends out, the event log's entries, the register file with its per-path latches. -/
namespace Sys2Proof.Machine

/-- Result codes of BLK_CMD_RESULT (R415). -/
inductive CmdRes where
  | ok | busy | illegal | badArg | fenced | limit | quota
  deriving DecidableEq, Repr

/-- The code of a result (R415). -/
def CmdRes.code : CmdRes → Nat
  | .ok => 0 | .busy => 1 | .illegal => 2 | .badArg => 3 | .fenced => 4 | .limit => 5 | .quota => 6

/-- An entry of the event log, as the fields of its 32 bytes (R421). -/
structure EvEntry where
  seq : Nat
  stride : Nat
  cls : Nat
  bit : Nat
  loc : Nat
  planId : Nat
  info : Nat
  paddock : Nat
  kind : Nat
  deriving DecidableEq, Repr

/-- The register file: words by device address, and what each access path holds of its own (R14, R15, R222, R366, R416). -/
structure RegFile where
  /-- Register words that differ from being unwritten; an unlisted word has its reset value. -/
  words : Tab Word
  /-- HI halves latched by a read of LO, per path and LO address (R14). -/
  hiLatch : Tab Word
  /-- LO halves staged by a write, per path and LO address (R15). -/
  loStage : Tab Word
  /-- Argument registers that each path stages for itself (R222, R218, HP_ARG_G, EVLOG_DATA). -/
  staged : Tab Word
  /-- BLK_CMD_RESULT per path on the host pages (R366). -/
  pathResult : Tab Word
  /-- MSI-X table words and pending bits of each host port (R348, R350). -/
  msix : Tab Word
  /-- HP_EVT_ROUTE entries per host port and event (R363). -/
  evtRoute : Tab Word
  deriving DecidableEq, Repr

/-- The model's clock in ns, when the present stride began (R29). -/
structure Clock where
  now : Nat
  tickAt : Nat
  /-- Times of recent ticks, the present stride's first. -/
  ticks : List Nat
  deriving DecidableEq, Repr

/-- What a monitor holds beside its registers: the live bins, the window's SAT, the strides counted in the window, and that the window's end is due (R404, R406). -/
structure MonState where
  bins : List Nat
  sat : Bool
  strides : Nat
  due : Bool
  /-- Replays its link had shown at the last tick; a sample of the tick at which the window's end is due (R403, R407). -/
  lastReplay : Nat
  held : Option Int
  deriving DecidableEq, Repr

/-- An empty monitor. -/
def MonState.empty : MonState := { bins := List.replicate 32 0, sat := false, strides := 0, due := false, lastReplay := 0, held := none }

/-- One watch range as loaded: base address, length in 64-byte units, NW_RANGE_CFG (R149). -/
structure NwRange where
  base : Nat
  len : Nat
  cfg : Word
  deriving DecidableEq, Repr

/-- The six counters of a watch slot, or an amount to add to them (R145). -/
structure NwCounts where
  written : Nat
  zero : Nat
  sat : Nat
  under : Nat
  nan : Nat
  inf : Nat
  deriving DecidableEq, Repr

/-- Counters at 0. -/
def NwCounts.none : NwCounts := ⟨0, 0, 0, 0, 0, 0⟩

/-- Counts of one writer's field, bound for a slot of a ring (R146). -/
structure NwDelta where
  ring : Nat
  slot : Nat
  field : Nat
  n : NwCounts
  deriving DecidableEq, Repr

/-- The tables of one ring's numeric watch and the slot last selected (R149). -/
structure NwState where
  ranges : Tab NwRange
  slots : Tab Word
  counts : Tab NwCounts
  selSlot : Nat
  deriving DecidableEq, Repr

/-- Empty watch tables. -/
def NwState.empty : NwState := { ranges := [], slots := [], counts := [], selSlot := 0 }

/-- An item-table or slack-list entry (R33). -/
structure ItemEntry where
  rel : Nat
  leid : Nat
  kind : Nat
  flags : Nat
  tokIn : Nat
  tokCount : Nat
  code : Nat
  deriving DecidableEq, Repr

/-- What an S-core waits for (R38, R228). -/
inductive SqWait where
  | stick (rd : Nat) (until_ : Nat)
  | tok (rd : Nat) (tok count : Nat)
  | mover (rd : Nat) (ch : Nat)
  deriving DecidableEq, Repr

/-- The item an S-core tracks: its absolute stride and whether its OVERRUN is recorded (R41). -/
structure Tracked where
  stride : Nat
  overrun : Bool
  deriving DecidableEq, Repr

/-- An S-core's hidden part: x registers that the added opcodes wrote, tokens, what it waits for, the tracked item, its item table and slack list with the entries begun, the logical engines' items in progress, and whether this stride's stretch request is sent (R36 to R42). -/
structure ScoreState where
  x : Tab Nat
  tok : Tab Nat
  wait : Option SqWait
  tracked : Option Tracked
  items : List ItemEntry
  slack : List ItemEntry
  begun : List Nat
  slackRun : List Nat
  current : Tab Nat
  lateItem : Option Nat
  stretchSent : Bool
  planAbort : Bool
  itemError : Bool
  /-- Units that reported errors in the step, and whether a unit of work in error has been replayed since (R303, R306). -/
  errUnits : List Nat
  replayed : Bool
  deriving DecidableEq, Repr

/-- An S-core with nothing loaded. -/
def ScoreState.empty : ScoreState :=
  { x := [], tok := [], wait := none, tracked := none, items := [], slack := [], begun := [], slackRun := [], current := [], lateItem := none,
    stretchSent := false, planAbort := false, itemError := false, errUnits := [], replayed := false }

/-- What the Ringmaster holds of a paddock's plan and step: STEP_BASE, the plan header's fields, the step in progress. -/
structure PadState where
  /-- STEP_BASE of the step in progress (R39). -/
  stepBase : Nat
  /-- The step base has begun (R148). -/
  baseInForce : Bool
  /-- The STEP_BASE in force. -/
  baseNow : Nat
  /-- STEP_GAP of the plan's header (R33). -/
  stepGap : Nat
  /-- STEP_STRIDES of the plan's header. -/
  stepStrides : Nat
  /-- Seed latched at take-up (R144). -/
  seed : Nat
  /-- Placements made for the plan by its object table (R208). -/
  placed : List Nat
  /-- Objects pinned for the plan. -/
  pinned : List Nat
  /-- The stride a plan was put to PENDING in. -/
  pendAt : Nat
  /-- Take-up under way: the object-table entry reached, its command (place in arrival order, and whether it places), and the status it ended with (R208, R360). -/
  loadAt : Nat
  loadCmd : Option (Nat × Bool)
  loadSt : Option Nat
  deriving DecidableEq, Repr

/-- A paddock without a plan. -/
def PadState.empty : PadState := { stepBase := 0, baseInForce := false, baseNow := 0, stepGap := 1, stepStrides := 0, seed := 0, placed := [], pinned := [], pendAt := 0, loadAt := 0, loadCmd := none, loadSt := none }

end Sys2Proof.Machine
end

