-- ==== Sys2Proof/Machine/PartsCompute.lean ====
section
/-! DEFINITION. Parts of the state: matrix engines, M-cores, vector engines, V-cores. -/
namespace Sys2Proof.Machine

/-- A stationary tile: its tag fields and bytes as they lie in memory rows, and its scale bytes (R69, R70, R81). -/
structure Tile where
  shape : Nat
  fmt : Nat
  blk : Nat
  sfmt : Nat
  data : List Byte
  scales : List Byte
  deriving DecidableEq, Repr

/-- One stationary register set: none while EMPTY (R55). -/
abbrev MeSet := Option Tile

/-- An issued ME operation that is still to be done, with its place in issue order (R56, R58, R76). -/
inductive MeOp where
  | pass (id : Nat) (w : MeWord) (set : Nat)
  | load (id : Nat) (w : MeWord)
  | fwd (id : Nat) (n : Nat)
  | mask (id : Nat) (w : MeWord)
  deriving DecidableEq, Repr

/-- A matrix engine: sets, mask registers, accumulator store (row × 64 + column), issued operations, signals issued, wait, start queue, program counter, chain-in tiles. -/
structure MeState where
  set0 : MeSet
  set1 : MeSet
  kmask : Tab Nat
  nmask : Tab Nat
  acc : Tab Nat
  ops : List MeOp
  sigs : List (Nat × MeWord)
  wait : Option (Nat × Nat)
  queue : List Nat
  pc : Nat
  nextId : Nat
  prevSet : Nat
  chainIn : List Tile
  deriving DecidableEq, Repr

/-- A matrix engine after reset (R55); mask registers and accumulators at 0 (notes/assumptions/6.md). -/
def MeState.empty : MeState :=
  { set0 := none, set1 := none, kmask := [], nmask := [], acc := [], ops := [], sigs := [], wait := none, queue := [], pc := 0, nextId := 0,
    prevSet := 0, chainIn := [] }

/-- A vector engine: vector register lanes (register × 256 + lane), predicates, scalars, start queue, waits, and the signals issued with the value of xs1 they name. -/
structure VeState where
  v : Tab Nat
  p : Tab Nat
  x : Tab Nat
  queue : List Nat
  wait : Option (Nat × Nat)
  umWait : Option (Nat × Nat)
  sigs : List (VeWord × Nat)
  deriving DecidableEq, Repr

/-- A vector engine after reset: registers zero (R90). -/
def VeState.empty : VeState := { v := [], p := [], x := [], queue := [], wait := none, umWait := none, sigs := [] }

end Sys2Proof.Machine
end

