-- ==== Sys2Proof/Machine/PartsMesh.lean ====
section
/-! DEFINITION. Parts of the state: routers and hubs, their links, stream slots and coalesced responses (R153 to R183). -/
namespace Sys2Proof.Machine

/-- A flit waiting for an output, with the input buffer it holds: port, plane and credit target, none for one injected here (R161). -/
structure Waiting where
  flit : Flit
  origin : Option (Nat × Plane × Nat)
  deriving DecidableEq, Repr

/-- One plane of one port: receive and send sequence numbers, the replay buffer, the flits waiting, credits per target, the counters of R183 and the degrade window of R163, lane maps and the last lane test (R161 to R163, R180, R181). -/
structure LinkState where
  rxSeq : Nat
  rxDropping : Bool
  txSeq : Nat
  replay : List Flit
  outq : List Waiting
  sent : Tab Nat
  cred : Tab Nat
  freed : Tab Nat
  crcErr : Nat
  replays : Nat
  winStart : Nat
  winErr : Nat
  repSeq : Nat
  repCount : Nat
  soft : Tab Nat
  failing : List (Nat × Nat)
  test : Nat
  deriving DecidableEq, Repr

/-- A link as it comes up: the first flit has SEQ 0 (notes/assumptions/7.md). -/
def LinkState.empty : LinkState :=
  { rxSeq := 63, rxDropping := false, txSeq := 0, replay := [], outq := [], sent := [], cred := [], freed := [], crcErr := 0, replays := 0,
    winStart := 0, winErr := 0, repSeq := 64, repCount := 0, soft := [], failing := [], test := 0 }

/-- A reduction unit's flit waiting at an input of a stream slot (R173). -/
structure RedUnit where
  port : Nat
  unit : Nat
  gpos : Nat
  kind : Nat
  payload : List Byte
  deriving DecidableEq, Repr

/-- A router or hub: its tables, links by port × 2 + plane, the units waiting per slot, tiles being assembled per slot, slots that discard until the paddock's release, the tick fired last, and the tick tree's outputs. -/
structure RouterState where
  override : Tab Nat
  escape : Tab Nat
  slots : Tab (Word × Word × Word)
  links : Tab LinkState
  units : Tab (List RedUnit)
  tiles : Tab (List Byte × Nat)
  aborted : List Nat
  tickAt : Nat
  tickLen : Nat
  tickOut : List Nat
  deriving DecidableEq, Repr

/-- A router with empty tables. -/
def RouterState.empty : RouterState :=
  { override := [], escape := [], slots := [], links := [], units := [], tiles := [], aborted := [], tickAt := 0, tickLen := 0, tickOut := [] }

/-- Flits accounted to a source and tag with one status, not yet sent as a RESP (R167): the accounting endpoint, the source, both as field + cluster × 2^6 + unit × 2^9. -/
structure RespAcc where
  ep : Nat
  src : Nat
  tag : Nat
  status : Nat
  count : Nat
  deriving DecidableEq, Repr

end Sys2Proof.Machine
end

