-- ==== Sys2Proof/Machine/PartsObj.lean ====
section
/-! DEFINITION. Parts of the state: objects and placement (R194 to R218), mover channels (R220 to R239), update complexes (R246 to R256). -/
namespace Sys2Proof.Machine

/-- Residency states (R198). -/
inductive Resid where
  | t2 | promT1 | t1 | promT0 | t0 | demoting | evicting
  deriving DecidableEq, Repr

/-- Residency state codes (R198). -/
def Resid.code : Resid → Nat
  | .t2 => 0 | .promT1 => 1 | .t1 => 2 | .promT0 => 3 | .t0 => 4 | .demoting => 5 | .evicting => 6
/-- A resident state. -/
def Resid.resident : Resid → Bool
  | .t2 | .t1 | .t0 => true
  | _ => false

/-- A placement command as issued: code, the 64-byte argument record as one number, the issuing paddock, and its place in arrival order (R199, R218). -/
structure PlCmd where
  code : Nat
  arg : Nat
  pad : Nat
  arrival : Nat
  deriving DecidableEq, Repr

/-- A deferred DEMOTE or EVICT with every command merged into it (R202). -/
structure Deferral where
  evict : Bool
  discard : Bool
  cmds : List PlCmd
  deriving DecidableEq, Repr

/-- A transition in progress: the tier a promotion is bound for, DISCARD, the resident state it left, and the commands that complete with it, each with the tier it asked for (R200). -/
structure Transit where
  target : Nat
  discard : Bool
  was : Resid
  cmds : List (Nat × PlCmd)
  deriving DecidableEq, Repr

/-- An object's descriptor (R195) with its deferred slot, its transition, and the transfers that hold it (R210, R230). -/
structure Obj where
  state : Resid
  pins : Nat
  size : Nat
  nfw : Nat
  cls : Nat
  policy : Nat
  owner : Nat
  share : Nat
  comp : Bool
  hasDraft : Bool
  t2Node : Nat
  altNode : Nat
  inT0 : Bool
  inT1 : Bool
  inT2 : Bool
  hasAlt : Bool
  t0Da : Nat
  t1Da : Nat
  draftDa : Nat
  altDa : Nat
  t0Units : Nat
  t1Pages : Nat
  t2Pages : Nat
  draftPages : Nat
  maxErr : Nat
  late : Nat
  fail : Nat
  lastChange : Nat
  budget : Nat
  holds : Nat
  deferred : Option Deferral
  transit : Option Transit
  deriving DecidableEq, Repr

/-- A span of T0 or T1: its device address and its length in bytes. -/
structure Span where
  base : Nat
  len : Nat
  deriving DecidableEq, Repr

/-- A read a channel has issued: its number, source address, length, place in the source stream, bytes to drop at its front, the pieces that have come back by position, whether it goes to the alternate, whether its data is no longer wanted (R212, R225, R227). -/
structure ReadOut where
  id : Nat
  src : Nat
  len : Nat
  pos : Nat
  skip : Nat
  got : Tab (List Byte)
  alt : Bool
  dead : Bool
  deriving DecidableEq, Repr

/-- A transfer in ACTIVE (R226 to R232). -/
structure Xfer where
  desc : Nat
  seq : Nat
  pad : Nat
  fromUe : Bool
  startAt : Nat
  /-- First error status met, and status to end with once drained: STOPPED, FENCED or ABORTED. -/
  status : Option Nat
  ending : Option Nat
  late : Bool
  alt : Bool
  draft : Bool
  reorder : Bool
  refused : Bool
  /-- Source stream bytes issued, received in order, destination stream bytes handed on, destination bytes written. -/
  pos : Nat
  inPos : Nat
  outPos : Nat
  written : Nat
  /-- Flits sent and accounted; reduction flits not yet accepted; the host read that ends a transfer to the host is issued. -/
  sent : Nat
  acc : Nat
  red : Nat
  flushed : Bool
  reads : List ReadOut
  nextId : Nat
  /-- Data that came back ahead of its turn, by position; coded bytes in order not yet decoded, and coded segments decoded; source bytes in order not yet converted, how many there have been in this pass; blocks converted. -/
  ahead : Tab (List Byte)
  raw : List Byte
  segDone : Nat
  pend : List Byte
  plainIn : Nat
  done : Nat
  /-- Sectors of a COMPRESS written. -/
  sectors : Nat
  /-- What R242 adds to the source, and to an auxiliary list that is read. -/
  slotAdd : Nat
  auxAdd : Nat
  /-- Curb: the bucket, and the fabric cycle it was last brought up to (R234). -/
  bucket : Nat
  cycle : Nat
  /-- Phase: 1 the first of two passes over the source or the exponent phase, 2 the rest; largest magnitude seen; own and agreed exponent bytes; units sent; the first block of an AIF-48 unit. -/
  phase : Nat
  amax : Nat × Int
  own : List Nat
  agreed : Tab Nat
  units : Nat
  raw2 : List Byte
  /-- Objects held for the length of the transfer. -/
  held : List Nat
  deriving DecidableEq, Repr

/-- A completion record (R228). -/
structure MvRecord where
  status : Nat
  flags : Nat
  seq : Nat
  bytes : Nat
  deriving DecidableEq, Repr

/-- A mover channel: ACTIVE, SHADOW (the descriptor, and whether an update engine loaded it), the status SHADOW ends with once ACTIVE has ended (R236, R237, R356), uncollected records, PAUSED, the next sequence number, its plan list (elements of 112 bytes as numbers) with the element activated last. -/
structure MvState where
  active : Option Xfer
  shadow : Option (Nat × Bool)
  shadowEnd : Option Nat
  records : List MvRecord
  paused : Bool
  nextSeq : Nat
  list : List Nat
  listNext : Nat
  listGo : Bool
  kicks : Nat
  idBase : Nat
  deriving DecidableEq, Repr

/-- An idle channel. -/
def MvState.empty : MvState :=
  { active := none, shadow := none, shadowEnd := none, records := [], paused := false, nextSeq := 0, list := [], listNext := 0, listGo := false, kicks := 0, idBase := 0 }

/-- An arrival range with its byte counter and whether it has arrived (R246 to R248). -/
structure ArrRange where
  da : Nat
  len : Nat
  kind : Nat
  fwd : Nat
  token : Nat
  count : Nat
  arrived : Bool
  deriving DecidableEq, Repr

/-- One update engine's sequencer: entries still to walk, entries deferred, the entry running (and whether it was deferred), the digest of the entry, whether it stopped in error (R254, R255, R283). -/
structure UeState where
  todo : List Nat
  deferred : List Nat
  running : Option Nat
  wasDeferred : Bool
  digest : BitVec 64 × BitVec 64
  stopped : Bool
  deriving DecidableEq, Repr

/-- An engine with nothing to do. -/
def UeState.empty : UeState := { todo := [], deferred := [], running := none, wasDeferred := false, digest := (0, 0), stopped := false }

/-- A field's update complex: entries of the sweep image (64 bytes each as a number), arrival ranges, instruction memory as loaded, engines, entries done this step, WINDOW_STRIDES, hyperparameter records (group × 16 + word), arrived ranges that wait to be mirrored, the step in which NOT_READY was counted last. -/
structure UcState where
  entries : List Nat
  ranges : List ArrRange
  code : List Byte
  engines : Tab UeState
  done : List Nat
  window : Nat
  records : Tab Nat
  mirror : List Nat
  nrStep : Option Nat
  deriving DecidableEq, Repr

/-- A complex without a sweep image. -/
def UcState.empty : UcState :=
  { entries := [], ranges := [], code := [], engines := [], done := [], window := 0, records := [], mirror := [], nrStep := none }

/-- A parameter group of a Calliope: effective and staged register words by offset, staged values that wait for a boundary, Π₁ and Π₂ of the last committed step and η of the step in progress (FP64 codes) (R265 to R267, R270). -/
structure CalGroup where
  eff : Tab Nat
  stag : Tab Nat
  apply : Option (Tab Nat)
  p1 : Nat
  p2 : Nat
  eta : Nat
  deriving DecidableEq, Repr

/-- A group at reset: the products are 1.0 (R266). -/
def CalGroup.empty : CalGroup := { eff := [], stag := [], apply := none, p1 := 0x3FF0000000000000, p2 := 0x3FF0000000000000, eta := 0 }

end Sys2Proof.Machine
end

