-- ==== Sys2Proof/Machine/PartsOpt.lean ====
section
/-! DEFINITION. Parts of the state: optical links and ports, installation streams, contexts and bundles (R323 to R341). -/
namespace Sys2Proof.Machine

/-- One link of a port: its bring-up state, half-rate mode, peer, replay in both directions, credits per VC, times of the last heartbeat, acknowledgement and delay measurement, failed lanes, counters. -/
structure OpLink where
  state : Nat
  half : Bool
  upper : Bool
  peerNode : Nat
  peerPort : Nat
  peerLink : Nat
  peerBoot : Nat
  delay : Nat
  /-- SEQ received last in order, whether frames are being discarded up to a replay, next SEQ to send, frames unacknowledged, frames waiting. -/
  rxSeq : Nat
  dropping : Bool
  txSeq : Nat
  replay : List Frame
  outq : List Frame
  sent : Tab Nat
  cred : Tab Nat
  freed : Tab Nat
  hbAt : Nat
  ackAt : Nat
  delayAt : Nat
  failed : Nat
  crcErr : Nat
  replays : Nat
  fecCorr : Tab Nat
  fecUncorr : Tab Nat
  deriving DecidableEq, Repr

/-- A link at reset: disabled (R390), SEQ and credits at 0 (R329). -/
def OpLink.empty : OpLink :=
  { state := 0, half := false, upper := false, peerNode := 0, peerPort := 0, peerLink := 0, peerBoot := 0, delay := 0, rxSeq := 4095, dropping := false,
    txSeq := 0, replay := [], outq := [], sent := [], cred := [], freed := [], hbAt := 0, ackAt := 0, delayAt := 0, failed := 0, crcErr := 0, replays := 0,
    fecCorr := [], fecUncorr := [] }

/-- A remote stream: local endpoint and tag, flits unaccounted, time of the last frame (R336). -/
structure OutStream where
  ep : Nat
  tag : Nat
  out : Nat
  last : Nat
  deriving DecidableEq, Repr

/-- An inbound context: the stream's source node, endpoint and tag, its group, flits not accounted, when it was used last (R337). -/
structure InCtx where
  node : Nat
  ep : Nat
  tag : Nat
  group : Nat
  out : Nat
  last : Nat
  deriving DecidableEq, Repr

/-- A transit bundle being filled: leaving port, class, its frames, the time of the first (R335). -/
structure Bundle where
  dest : Nat
  ctrl : Bool
  frames : List Frame
  first : Nat
  deriving DecidableEq, Repr

/-- A port complex: remote streams, inbound contexts and the frames that wait for one, tree table by RID, rotation among links, transit bundles out and in (by arriving field and bundle number: headers, and data by position). -/
structure OpPort where
  streams : List OutStream
  ctxs : Tab InCtx
  waiting : List Frame
  trees : Tab Nat
  rot : Nat
  bundles : List Bundle
  nextBundle : Nat
  inHead : Tab (List Nat)
  inData : Tab (List Byte)
  /-- Laser input power by fibre and lane (8 × fibre + lane), in 0.01 dBm; time of the last heartbeats. -/
  laser : Tab Nat
  hbSent : Nat
  deriving DecidableEq, Repr

/-- A port with nothing under way. -/
def OpPort.empty : OpPort :=
  { streams := [], ctxs := [], waiting := [], trees := [], rot := 0, bundles := [], nextBundle := 0, inHead := [], inData := [], laser := [], hbSent := 0 }

/-- The stride timebase (R29 to R32, R340 to R344). -/
structure TbState where
  /-- A period change that waits: period, increment, APPLY_AT (R30). -/
  pend : Option (Nat × Nat × Nat)
  /-- Lengths of strides to come, by stride number, as symbols gave them; strides this master stretches. -/
  lens : Tab Nat
  stretched : List Nat
  /-- The last tick whose symbol the master has begun to send; fire times of ticks to come, by number, as symbols gave them; when a TIMING frame came last; the phase is being slewed. -/
  sentTo : Nat
  due : Tab Nat
  lastTiming : Nat
  slewing : Bool
  /-- Strides whose stretch request has been forwarded. -/
  forwarded : List Nat
  /-- The link toward the master. -/
  up : Option Nat
  /-- Election: under way, the best candidate (TB_PRIO, NODE_ID), hops and delay to it by link, time of the last change, epoch. -/
  electing : Bool
  best : Option (Nat × Nat)
  heard : Tab (Nat × Nat)
  changedAt : Nat
  epoch : Nat
  /-- The largest reported delay since the election. -/
  report : Nat
  /-- When stage TIMEBASE began. -/
  stageAt : Option Nat
  deriving DecidableEq, Repr

/-- A timebase at reset. -/
def TbState.empty : TbState :=
  { pend := none, lens := [], stretched := [], sentTo := 0, due := [], lastTiming := 0, slewing := false, forwarded := [], up := none, electing := false,
    best := none, heard := [], changedAt := 0, epoch := 0, report := 0, stageAt := none }

end Sys2Proof.Machine
end

