-- ==== Sys2Proof/Machine/PartsPower.lean ====
section
/-! DEFINITION. Parts of the state: gaits, the inrush governor, thermal history (R371 to R383); step commit (R271 to R295). -/
namespace Sys2Proof.Machine

/-- A request of the inrush governor: a wake of one cluster, or a raise of a field's running clusters; its target gait, the slot it arrived in, and whether the per-field spacing has held it (R377). -/
structure GovReq where
  field : Nat
  cluster : Option Nat
  target : Nat
  slot : Nat
  spaced : Bool
  deriving DecidableEq, Repr

/-- A cluster that is leaving REST or WALK: its target, whether it still leaves REST, and when that began (R375). -/
structure Wake where
  target : Nat
  fromRest : Bool
  since : Nat
  deriving DecidableEq, Repr

/-- Power and heat: the governor's queue, its slot with the charge admitted, wakes and rail ramps under way, the last wake of each field, ceilings that change at the next boundary, histories of the thresholds and of the cap. -/
structure PowerState where
  gov : List GovReq
  wakes : Tab Wake
  ramps : Tab (Nat × Nat)
  slot : Nat
  slotAt : Nat
  charged : Nat
  lastWake : Tab Nat
  /-- Fields whose CEIL_THERM may rise, and whose CEIL_POWER falls or rises, at their paddock's next boundary (R381, R382). -/
  thermUp : List Nat
  powerDown : List Nat
  powerUp : List Nat
  /-- Consecutive 1 ms averages below 90 % of the cap. -/
  lowAverages : Nat
  /-- Consecutive samples at or above TRIP, by sensor; by field, since when every sample has stayed at or below WARN, when CEIL_THERM fell last, and the conditions that hold (WARN and LIMIT bits). -/
  tripSamples : Tab Nat
  coolSince : Tab Nat
  stepAt : Tab Nat
  holding : Tab Nat
  /-- Coolant and harness conditions that hold; fields out of service for heat; fields whose optical engine is off for heat; since when the input has been out of 700 to 880 V. -/
  coolant : Nat
  hotOut : List Nat
  opticOff : List Nat
  inputBad : Option Nat
  deriving DecidableEq, Repr

/-- Nothing under way. -/
def PowerState.empty : PowerState :=
  { gov := [], wakes := [], ramps := [], slot := 0, slotAt := 0, charged := 0, lastWake := [], thermUp := [], powerDown := [], powerUp := [], lowAverages := 0,
    tripSamples := [], coolSince := [], stepAt := [], holding := [], coolant := 0, hotOut := [], opticOff := [], inputBad := none }

/-- A paddock's step-commit engine (R271 to R295). -/
structure CommitState where
  /-- A plan is taken up; the configuration words latched at take-up, by offset. -/
  on : Bool
  latched : Tab Nat
  /-- The log of the last 64 outcomes, newest first. -/
  log : List LogEntry
  /-- Attempts of the open step that ended without a COMMIT. -/
  tries : Nat
  /-- The round contributed to that has no outcome yet, and when; when an outcome CONTINUE came; what was contributed last (READY, DIGEST_OK). -/
  waiting : Option RoundKey
  votedAt : Nat
  contAt : Option Nat
  last : Option (Bool × Option Bool)
  /-- LOSS_IN has been latched, and its value if it was valid. -/
  voted : Bool
  loss : Option Nat
  /-- An outcome that waits for its stride; whether PROCEED waits for its tick; fields whose sweep is due; a re-run is due. -/
  pend : Option LogEntry
  sweepArmed : Bool
  sweepDue : List Nat
  rerun : Bool
  /-- Sweep runs whose shard digest is formed, when the last was formed, the digest of run 1 and of the run before, own digests paired under DOUBLE, digests from the partner. -/
  formed : Nat
  formedAt : Nat
  digest1 : Nat
  digestPrev : Nat
  double : Bool
  partner : List DigestMsg
  digestOk : Option Bool
  noRestore : Bool
  /-- When ARBITRATE was sent; when instance 0 was decided; an abort request to repeat, and whether it carries HOLD; this module has seen a member missing; a persistent mismatch of the walk; a chunk to read again. -/
  arbAt : Option Nat
  inst0 : Option Nat
  want : Option Bool
  missing : Bool
  walkBad : Bool
  walkAgain : Option (Nat × Nat)
  /-- Halted after HOLD (RESUME is legal). -/
  held : Bool
  /-- This module took the root role; commits since e changed. -/
  root : Bool
  since : Nat
  /-- The attempt is a sweep retry (R292). -/
  retry : Bool
  /-- Slots discard flits since an abort in this stride (R177). -/
  abortStride : Option Nat
  deriving DecidableEq, Repr

/-- An engine with no plan. -/
def CommitState.empty : CommitState :=
  { on := false, latched := [], log := [], tries := 0, waiting := none, votedAt := 0, contAt := none, last := none, voted := false, loss := none, pend := none,
    sweepArmed := false, sweepDue := [], rerun := false, formed := 0, formedAt := 0, digest1 := 0, digestPrev := 0, double := false, partner := [],
    digestOk := none, noRestore := false, arbAt := none, inst0 := none, want := none, missing := false, walkBad := false, walkAgain := none, held := false,
    root := false, since := 0, retry := false, abortStride := none }

end Sys2Proof.Machine
end

