-- ==== Sys2Proof/Machine/PartsHost.lean ====
section
/-! DEFINITION. Parts of the state: host ports (R348 to R367). -/
namespace Sys2Proof.Machine

/-- A bound aperture, or one whose bind is under way: object, tier, WRITE, paddock, byte offset (R353). -/
structure Aperture where
  handle : Nat
  tier : Nat
  write : Bool
  pad : Nat
  offset : Nat
  deriving DecidableEq, Repr

/-- A held lease: the time of the last CLAIM or RENEW and the PERIOD then in force, in ns (R357). -/
structure LeaseState where
  at_ : Nat
  period : Nat
  deriving DecidableEq, Repr

/-- A SUBMIT or BIND_AP under way: path code and what it names (R353, R359). -/
structure SubmitState where
  path : Nat
  handle : Nat
  offset : Nat
  deriving DecidableEq, Repr

/-- Host ports: bound apertures (16 × port + aperture), the bind each port has under way with its aperture number and path code, leases, submissions under way by paddock, ports whose REFCLK runs common, images of the plans by paddock (handle, offset). -/
structure HostState where
  aps : Tab Aperture
  binding : Tab (Nat × Nat × Aperture)
  leases : Tab LeaseState
  submit : Tab SubmitState
  common : Tab Bool
  image : Tab (Nat × Nat)
  deriving DecidableEq, Repr

/-- Host ports at reset. -/
def HostState.empty : HostState := { aps := [], binding := [], leases := [], submit := [], common := [], image := [] }

end Sys2Proof.Machine
end

