-- ==== Sys2Proof/Machine/PartsFarrier.lean ====
section
/-! DEFINITION. Parts of the state: the Farrier (R305 to R319), module flash, boot, security and calibration (R386 to R402). -/
namespace Sys2Proof.Machine

/-- A main path under way: the unit, when it began, the paddocks it halts (R307). -/
structure FarrierAct where
  unit : Nat
  since : Nat
  pads : List Nat
  deriving DecidableEq, Repr

/-- The Farrier. Units are numbered as FR_SEL spells them; a link plane adds (1 + 2 × port + plane) × 2^16 to its router's. -/
structure FarrierState where
  /-- Strides of a unit's reports; strides of fetch errors by unit × 2^32 + word; times a unit was classified persistent. -/
  reports : Tab (List Nat)
  fetch : Tab (List Nat)
  persistent : Tab Nat
  /-- Persistent units whose main path has not begun; the main path under way. -/
  todo : List Nat
  act : Option FarrierAct
  /-- Slots to be tested after their replacement; the ME under test, by page, and since when (R309, R48). -/
  retest : List Nat
  test : Option (Nat × Nat)
  deriving DecidableEq, Repr

/-- A Farrier with nothing to do. -/
def FarrierState.empty : FarrierState := { reports := [], fetch := [], persistent := [], todo := [], act := none, retest := [], test := none }

/-- Module flash: retired units, soft ME repair entries by ME page, soft stitch lanes by router, link and group (R312); boot count, boot record, chunks written of the firmware slots (slot × 2,048 + chunk), the signature record; the configuration record by device address, user calibration values (instance × 256 + code) and how often they were written (R389 to R397). -/
structure Flash where
  service : List Nat
  softMe : Tab Nat
  softLane : Tab (Tab Nat)
  bootCount : Nat
  bootSlot : Bool
  fw : Tab (List Byte)
  sigTree : Option Nat
  config : Tab Word
  calUser : Tab Nat
  calWrites : Nat
  deriving DecidableEq, Repr

/-- Flash as the module leaves the factory. -/
def Flash.empty : Flash :=
  { service := [], softMe := [], softLane := [], bootCount := 0, bootSlot := false, fw := [], sigTree := none, config := [], calUser := [], calWrites := 0 }

/-- What manufacture fixes in a module and nothing changes: the fused repair map by ME page, factory calibration values (instance × 256 + code), the serial number, the device certificate from byte 28, the vendor's firmware key hashes and debug key hash, the firmware images as shipped (slot × 2,048 + chunk). -/
structure Factory where
  repair : Tab Nat
  cal : Tab Nat
  serial : Nat
  cert : List Byte
  vendorKeys : List (BitVec 256)
  debugKey : BitVec 256
  fw : Tab (List Byte)
  deriving DecidableEq, Repr

/-- No repairs, nominal calibration, nothing else (notes/assumptions/3.md). -/
def Factory.empty : Factory := { repair := [], cal := [], serial := 0, cert := [], vendorKeys := [], debugKey := 0, fw := [] }

/-- Boot: PWR_EN, whether HB is powered, when PWR_EN was asserted and the stage began, whether the sequence waits for ESTOP_CLEAR whether it stopped short of READY, boot lock. -/
structure BootState where
  pwrEn : Bool
  on : Bool
  pwrAt : Nat
  stageAt : Nat
  waiting : Bool
  stopped : Bool
  locked : Bool
  /-- The 48 signed header bytes of the running image; measurements FUSE, REPAIR, CONFIG (R398). -/
  fwHead : List Byte
  fallback : Bool
  /-- ALERT_N is asserted (R363, R433). -/
  alert : Bool
  /-- Fields whose fusible link has opened: they stay off through every power-on (R371). -/
  openLinks : List Nat
  /-- Units out of service in this power-on (R312, R413). -/
  out : List Nat
  meas : Tab (BitVec 256)
  deriving DecidableEq, Repr

/-- A module without power. -/
def BootState.empty : BootState :=
  { pwrEn := false, on := false, pwrAt := 0, stageAt := 0, waiting := false, stopped := false, locked := false, fwHead := [], fallback := false, alert := false, openLinks := [], out := [], meas := [] }

/-- The security engine: the command that runs and its path; the debug challenge and when it was given; the signing tree started and the leaves used; the calibration flash write under way; calibration values in force (instance × 256 + code). -/
structure SecState where
  cmd : Option (Nat × Path)
  challenge : Option (List Byte × Nat)
  tree : Nat
  leaf : Nat
  started : Bool
  calBusy : Option (Nat × Nat)
  calIn : Tab Nat
  deriving DecidableEq, Repr

/-- A security engine with nothing to do. -/
def SecState.empty : SecState := { cmd := none, challenge := none, tree := 0, leaf := 0, started := false, calBusy := none, calIn := [] }

end Sys2Proof.Machine
end

