-- ==== Sys2Proof/Machine/Emission.lean ====
section
/-! DEFINITION. What the block sends to its surroundings, in the order it sends it. -/
namespace Sys2Proof.Machine

/-- One thing sent. -/
inductive Emission where
  /-- Bytes that a register read returns to its path (R12). -/
  | readData (p : Path) (bytes : List Byte)
  /-- An enabled event reported to the Ringmaster (R414). -/
  | report (page bit : Nat)
  /-- An MSI-X message: address and data (R363). -/
  | msix (p : HostId) (addr : Nat) (data : Word)
  /-- An error report to the S-core of a cluster: the reporting page and the cause code (R302). -/
  | itemError (cl : ClLoc) (page cause : Nat)
  /-- A stretch request on CTRL (R42). -/
  | stretchReq (cl : ClLoc) (stride : Nat)
  /-- An item of a cluster begins (R36). -/
  | itemBegin (cl : ClLoc) (item : Nat)
  /-- A slack-list entry of a cluster runs (R214). -/
  | slackBegin (cl : ClLoc) (item : Nat)
  /-- A tile leaves an M-core's chain-out (R80). -/
  | chainOut (mc : McLoc) (t : Tile)
  /-- A flit handed to a router or hub at a port: over a link from its neighbour, or injected at CORE or hub port 6 by an endpoint. -/
  | flit (r : RtrLoc) (port : Nat) (plane : Plane) (k : Flit)
  /-- A flit delivered to the Ringmaster, to a port interface or to a host port (R154). -/
  | deliver (f : Nat) (unit : Nat) (k : Flit)
  /-- A write of an object's T2 copy at its node: an EVICT's write-back, or a write through a window, from an offset on (R199, R203, R210). -/
  | t2Write (handle node off : Nat) (bytes : List Byte)
  /-- A request for an object's T2 copy, or a range of it, from a node (R200, R210): handle, node, offset, length, and the channel's page and read number, or 0. -/
  | t2Read (handle node off len page id : Nat)
  /-- A frame sent on an optical link (R324). -/
  | frame (k : LinkLoc) (z : Frame)
  /-- A read of host memory by a host channel: channel, address, length, and its number; length 0 is the read that follows a transfer's last write (R356). -/
  | hostRead (p : HostId) (ch addr len id : Nat)
  /-- A write of host memory by a host channel (R356). -/
  | hostWrite (p : HostId) (ch addr : Nat) (bytes : List Byte)
  /-- A LATE notice to the S-core that a transfer's completion token names: cluster and token (R212). -/
  | lateNotice (cl : ClLoc) (token : Nat)
  /-- The running step of a paddock is to abort: what the Ringmaster asks of its vote root (R173, R304); and whether with HOLD. -/
  | abortAsk (n : Nat) (hold : Bool)
  /-- A step-commit message of a paddock's group over the optical links: to its vote root, or to every reachable member; the type codes of R339 and the payload (R290, R291, R304). -/
  | toRoot (n type : Nat) (payload : List Byte)
  | toMembers (n type : Nat) (payload : List Byte)
  /-- STEP_BASE sent to an S-core on CTRL (R39). -/
  | stepBase (cl : ClLoc) (stride : Nat)
  /-- An installation message delivered to the Ringmaster die: its type and payload (R339). -/
  | message (src type : Nat) (payload : List Byte)
  /-- The bytes that an SMBus Block Read returns, the byte count first (R435). -/
  | smbus (bytes : List Byte)
  /-- The programs of a cluster's segment are loaded again into an instruction memory: cluster and page (R305). -/
  | programReload (cl : ClLoc) (page : Nat)
  deriving DecidableEq, Repr

end Sys2Proof.Machine
end

