-- ==== Sys2Proof/Machine/State.lean ====
section
/-! DEFINITION. The machine's state: the waiting commands, memory, the one-time fuses, and everything else the manual gives the module; reset. -/
namespace Sys2Proof.Machine

/-- Faults: none. Every command of the table has an effect the manual gives, so no meaning faults. -/
inductive Fault where
  /-- Raised by nothing: kept so that the type has a value. Safe: a fault stops the machine. -/
  | none
  deriving DecidableEq, Repr

/-- Refusals. -/
inductive Refusal where
  /-- Raised by an arm of exec whose command has no meaning yet. Safe: the machine stops. -/
  | notModelled (mnemonic : String)
  deriving DecidableEq, Repr

/-- The one-time-programmable fuses: the minimum SVN, owner key hashes by slot, revoked slots, bucket bits burned (R394, R395, R397). -/
structure Fuses where
  svn : Nat
  owners : Tab (BitVec 256)
  revoked : List Nat
  buckets : List Nat
  deriving DecidableEq, Repr

/-- Everything of the module but memory, fuses and the queue of waiting commands. -/
structure Hw where
  clk : Clock
  freeCtr : Nat
  rf : RegFile
  evlog : List EvEntry
  out : List Emission
  mon : Tab MonState
  pads : Tab PadState
  nw : Tab NwState
  prov : Tab (List NwDelta)
  sq : Tab ScoreState
  syncTaint : Tab Nat
  errMark : Tab Bool
  me : Tab MeState
  ve : Tab VeState
  /-- Routers (by cluster number) and hubs (288 + field). -/
  rtr : Tab RouterState
  resp : List RespAcc
  /-- Objects by handle; placement queues by home field; arrival number of the next placement command; spans being zero-filled. -/
  objs : Tab Obj
  plq : Tab (List PlCmd)
  plNext : Nat
  fills : List Span
  /-- Mover channels by page. -/
  mv : Tab MvState
  /-- Update complexes by field. -/
  uc : Tab UcState
  /-- Optical links (8 × port + link), port complexes by field, routes by node. -/
  opl : Tab OpLink
  opp : Tab OpPort
  routes : Tab Word
  /-- The stride timebase. -/
  tb : TbState
  /-- Calliope groups: 64 × paddock + group; BLK_STATE to return to after a SET_COUNT, by paddock. -/
  cal : Tab CalGroup
  calBack : Tab Nat
  /-- Step-commit engines by paddock; power and heat. -/
  sc : Tab CommitState
  pw : PowerState
  /-- Host ports. -/
  hp : HostState
  /-- The Farrier, what manufacture fixed, module flash, boot, the security engine. -/
  fr : FarrierState
  fac : Factory
  flash : Flash
  boot : BootState
  sec : SecState
  /-- Fields out of service (R19). -/
  outFields : List Nat
  deriving DecidableEq, Repr

/-- The state of the machine. -/
structure State where
  pending : List Instr
  mem : List Host.Cell
  fuses : Fuses
  hw : Hw
  deriving DecidableEq, Repr

/-- Everything but memory, fuses and the queue, in a module without power: registers at their reset values, nothing under way. -/
def Hw.initial : Hw :=
  { clk := { now := 0, tickAt := 0, ticks := [] }, freeCtr := 0
    rf := { words := [], hiLatch := [], loStage := [], staged := [], pathResult := [], msix := [], evtRoute := [] }
    evlog := [], out := [], mon := [], pads := [], nw := [], prov := [], sq := [], syncTaint := [], errMark := [], me := [], ve := [], rtr := [], resp := []
    objs := [], plq := [], plNext := 0, fills := [], mv := [], uc := [], opl := [], opp := [], routes := [], tb := TbState.empty, cal := [], calBack := []
    sc := [], pw := PowerState.empty, hp := HostState.empty, fr := FarrierState.empty, fac := Factory.empty, flash := Flash.empty, boot := BootState.empty
    sec := SecState.empty, outFields := [] }
/-- No fuse burned. -/
def Fuses.empty : Fuses := { svn := 0, owners := [], revoked := [], buckets := [] }
/-- The machine right after reset: no command waits, no memory is listed, no fuse is burned, and every register has its reset value. -/
def State.reset : State := { pending := [], mem := [], fuses := Fuses.empty, hw := Hw.initial }

/-- What a meaning answers. -/
abbrev Res := Host.Outcome State Fault Refusal

end Sys2Proof.Machine
end

