-- ==== Sys2Proof/Machine/Ops.lean ====
section
/-! DEFINITION. The named operations over registers, events, the event log, MSI-X, commands, leases and memory. -/
namespace Sys2Proof.Machine

/-- The state with its hardware part changed. -/
def State.onHw (s : State) (f : Hw → Hw) : State := { s with hw := f s.hw }

/-- The register word at a device address, its reset value where nothing has changed it. -/
def Hw.reg (h : Hw) (k : Nat) : Word := Tab.get h.rf.words k (BitVec.ofNat 32 (resetOf k))
/-- Set a register word. -/
def Hw.setReg (h : Hw) (k : Nat) (v : Word) : Hw := { h with rf := { h.rf with words := Tab.set h.rf.words k v } }
/-- A register word as a number. -/
def Hw.regN (h : Hw) (k : Nat) : Nat := (h.reg k).toNat
/-- Set a register word to a number. -/
def Hw.setRegN (h : Hw) (k v : Nat) : Hw := h.setReg k (BitVec.ofNat 32 v)
/-- A field of a register word. -/
def Hw.fld (h : Hw) (k lo len : Nat) : Nat := wbits (h.reg k) lo len
/-- A bit of a register word. -/
def Hw.bit (h : Hw) (k i : Nat) : Bool := wbit (h.reg k) i
/-- Set a field of a register word. -/
def Hw.setFld (h : Hw) (k lo len v : Nat) : Hw := h.setReg k (wput (h.reg k) lo len v)
/-- Set a bit of a register word. -/
def Hw.setBit (h : Hw) (k i : Nat) (b : Bool) : Hw := h.setFld k i 1 (b2n b)
/-- Add to a counter field that saturates. -/
def Hw.count (h : Hw) (k lo len n : Nat) : Hw := h.setFld k lo len (satAdd len (h.fld k lo len) n)
/-- A LO and HI pair as one number (R14). -/
def Hw.reg64 (h : Hw) (k : Nat) : Nat := h.regN k + h.regN (k + 4) <<< 32
/-- Set a LO and HI pair. -/
def Hw.setReg64 (h : Hw) (k v : Nat) : Hw := (h.setRegN k v).setRegN (k + 4) (v >>> 32)
/-- Send something out of the block. -/
def Hw.emit (h : Hw) (e : Emission) : Hw := { h with out := h.out ++ [e] }
/-- The next free value (a value the manual does not fix), w bits wide. -/
def Hw.free (h : Hw) (w : Nat) : Nat × Hw := ((Config.freeValue h.freeCtr).toNat % 2 ^ w, { h with freeCtr := h.freeCtr + 1 })

/-- STRIDE_COUNT (R29). -/
def Hw.stride (h : Hw) : Nat := h.reg64 (pgTimebase + Reg.timebase.strideCountLo)
/-- The state code of a page's BLK_STATE. -/
def Hw.blkState (h : Hw) (page : Nat) : Nat := h.fld (page + 0x00C) 0 8
/-- Set BLK_STATE. -/
def Hw.setBlkState (h : Hw) (page st : Nat) : Hw := h.setRegN (page + 0x00C) st
/-- BLK_CTRL.FENCE. -/
def Hw.fencedPage (h : Hw) (page : Nat) : Bool := h.bit (page + 0x008) 1
/-- BLK_CTRL.ENABLE. -/
def Hw.enabledPage (h : Hw) (page : Nat) : Bool := h.bit (page + 0x008) 0

/-- The paddock that owns a ring: PADDOCK when ASSIGNED is 1 (R420). -/
def Hw.paddockOfRing (h : Hw) (r : Ring) : Option Paddock :=
  let v := h.fld (pgModule + Reg.module.paddockRings) (4 * r.val) 4
  if bitOf v 3 then some ⟨v % 4, Nat.mod_lt _ (by decide)⟩ else none
/-- The paddock that owns a field's ring. -/
def Hw.paddockOfField (h : Hw) (f : Field) : Option Paddock := h.paddockOfRing (ringOf f)
/-- The rings of a paddock. -/
def Hw.paddockRings (h : Hw) (n : Paddock) : List Ring := (List.finRange 4).filter fun r => h.paddockOfRing r = some n
/-- The fields of a paddock. -/
def Hw.paddockFields (h : Hw) (n : Paddock) : List Field := (List.finRange 48).filter fun f => h.paddockOfField f = some n
/-- The paddock of a block's page: of its field's ring, of Calliope n or step commit n, of watch r's ring; none for other global pages. -/
def Hw.paddockOfPage (h : Hw) (page : Nat) : Option Paddock :=
  match blockAt page with
  | some (.calliope, n) | some (.stepCommit, n) => some ⟨n % 4, Nat.mod_lt _ (by decide)⟩
  | some (.watch, r) => h.paddockOfRing ⟨r % 4, Nat.mod_lt _ (by decide)⟩
  | some (_, _) => if hf : daField page < 48 then h.paddockOfField ⟨daField page, hf⟩ else none
  | none => none

/-- Offset of plan slot n's registers on the module-global host page (R367). -/
def psReg (n : Paddock) (off : Nat) : Nat := pgHostGlobal + off + 0x20 * n.val
/-- Plan slot states (R367). -/
def Hw.slotState (h : Hw) (n : Paddock) : Nat := h.fld (psReg n Reg.hostGlobal.ps0Status) 0 3
/-- PLAN_ID of the plan a paddock has taken up, 0 for none. -/
def Hw.planIdOf (h : Hw) (n : Paddock) : Nat :=
  if 3 ≤ h.slotState n then h.reg64 (psReg n Reg.hostGlobal.ps0PlanIdLo) else 0
/-- A plan runs in the paddock: its slot is RUNNING or STOPPING. -/
def Hw.planRunning (h : Hw) (n : Paddock) : Bool := h.slotState n = 3 || h.slotState n = 5

/-- Add an entry to the event log, which keeps the last 1,024 (R421). -/
def Hw.logEntry (h : Hw) (cls bit page info : Nat) (pd : Option Paddock) : Hw :=
  let seq := h.regN (pgEvlog + Reg.evlog.evlogSeq)
  let ty := match blockAt page with | some (k, _) => k.typeCode | none => 0
  let e : EvEntry := {
    seq := seq, stride := h.stride, cls := cls, bit := bit, loc := blkLoc page,
    planId := (pd.map h.planIdOf).getD 0, info := info, paddock := (pd.map (·.val)).getD 0xFF, kind := ty }
  ({ h with evlog := (e :: h.evlog).take 1024 } : Hw).setRegN (pgEvlog + Reg.evlog.evlogSeq) (seq + 1)

/-- HOLDER of lease i: 0 none, 1 H0, 2 H1 (R367). -/
def Hw.holder (h : Hw) (i : Nat) : Nat := h.fld (pgHostGlobal + Reg.hostGlobal.hpLease0 + 4 * i) 0 2
/-- The host that holds lease i. -/
def Hw.holderHost (h : Hw) (i : Nat) : List HostId :=
  if h.holder i = 1 then [0] else if h.holder i = 2 then [1] else []

/-- Key of an MSI-X word: port and BAR0 offset within the port's MSI-X area (R350). -/
def msixKey (p : HostId) (o : Nat) : Nat := p.val <<< 20 + o
/-- Word of the MSI-X table or pending-bit array; a vector's control word resets to masked (notes/assumptions/5.md). -/
def Hw.msixWord (h : Hw) (p : HostId) (o : Nat) : Word :=
  Tab.get h.rf.msix (msixKey p o) (if o < 0x8000 ∧ o % 16 = 12 then 1 else 0)
/-- Set a word of the MSI-X area. -/
def Hw.setMsix (h : Hw) (p : HostId) (o : Nat) (v : Word) : Hw := { h with rf := { h.rf with msix := Tab.set h.rf.msix (msixKey p o) v } }
/-- HP_EVT_ROUTE of an event: reset VECTOR is the event's number and ENABLE is clear (R363). -/
def Hw.evtRoute (h : Hw) (p : HostId) (ev : Nat) : Word := Tab.get h.rf.evtRoute (p.val <<< 20 + ev) (BitVec.ofNat 32 ev)
/-- Send the message of a vector, or mark it pending while it is masked. -/
def Hw.sendVector (h : Hw) (p : HostId) (v : Nat) : Hw :=
  if wbit (h.msixWord p (16 * v + 12)) 0 then
    let o := 0x8000 + 4 * (v / 32)
    h.setMsix p o (h.msixWord p o ||| BitVec.ofNat 32 (1 <<< (v % 32)))
  else
    let addr := (h.msixWord p (16 * v)).toNat + (h.msixWord p (16 * v + 4)).toNat <<< 32
    (h.emit (.msix p addr (h.msixWord p (16 * v + 8)))).count (pgHostPort p + Reg.hostPort.hpEvtSent) 0 32 1
/-- Send one event to one port, if its route is enabled (R363). -/
def Hw.notify (h : Hw) (p : HostId) (ev : Nat) : Hw :=
  let r := h.evtRoute p ev
  if wbit r 31 then h.sendVector p (wbits r 0 11) else h
/-- Send one event to several ports. -/
def Hw.notifyAll (h : Hw) (ps : List HostId) (ev : Nat) : Hw := ps.foldl (fun h p => h.notify p ev) h
/-- Send a paddock's event to the holder of its lease. -/
def Hw.notifyHolder (h : Hw) (lease ev : Nat) : Hw := h.notifyAll (h.holderHost lease) ev

/-- The group k of FIELD_f_k for a kind of block (R363). -/
def PageKind.group : PageKind → Nat
  | .mover => 0 | .mcore | .me | .vcore | .ve | .score => 1 | .router => 2 | .msite | .placement => 3 | .port => 4
  | .ucomplex | .uengine => 5 | .fieldPower => 6 | _ => 7
/-- The lease whose holder hears of a field: its paddock's, or ADMIN where its ring is in no paddock (R363). -/
def Hw.leaseOfField (h : Hw) (f : Field) : Nat := (h.paddockOfField f).elim 4 (·.val)
/-- Route an enabled event of a page to MSI-X (R363). -/
def Hw.routeEvent (h : Hw) (page : Nat) : Hw :=
  match blockAt page with
  | none => h
  | some (kind, inst) =>
    if hf : daField page < 48 then
      if kind = .mover ∧ daUnit page = 4 ∧ daCluster page = 6 then
        h.notify (if daField page = 19 then 0 else 1) (32 + inst)
      else h.notifyHolder (h.leaseOfField ⟨daField page, hf⟩) (64 + 8 * daField page + kind.group)
    else h.notifyHolder 4 6

/-- A BLK_EVENT bit's condition occurs: the bit is set whatever BLK_EVENT_EN holds; an enabled event is reported, logged and routed (R414, R421). -/
def Hw.raise (h : Hw) (page bit : Nat) : Hw :=
  let old := h.reg (page + 0x010)
  let h := h.setReg (page + 0x010) (old ||| BitVec.ofNat 32 (1 <<< bit))
  if h.bit (page + 0x014) bit then
    let h := (h.emit (.report page bit)).logEntry 0 bit page 0 (h.paddockOfPage page)
    if wbit old bit then h else h.routeEvent page
  else h

/-- Write the error log: the first error since it was armed is kept, later ones count in MISSED; the event log takes every one (R417, R421). -/
def Hw.logError (h : Hw) (page addr info : Nat) : Hw :=
  let h := h.logEntry 1 0xFF page info (h.paddockOfPage page)
  if h.bit (page + 0x010) 1 then h.count (page + 0x02C) 24 8 1
  else ((h.setReg64 (page + 0x024) addr).setFld (page + 0x02C) 0 16 info).raise page 1

/-- Set a bit of GLB_STATUS: READY (0), DEGRADED (1) and THERMAL (2) tell both ports, READY when it is set, the others when they change; the module page's events 8 to 10 go with them (R363, R419). -/
def Hw.setGlb (h : Hw) (i : Nat) (b : Bool) : Hw :=
  let k := pgModule + Reg.module.glbStatus
  let h' := h.setBit k i b
  if h.bit k i = b || decide (i > 2) || (i = 0 && !b) then h' else (h'.raise pgModule (8 + i)).notifyAll [0, 1] i

/-- Key of what a path holds for a device address. -/
def pathKey (p : Path) (k : Nat) : Nat := p.idx <<< 64 + k
/-- A per-path staged argument word, the shared word where the path has staged none. -/
def Hw.argOf (h : Hw) (p : Path) (k : Nat) : Word := Tab.get h.rf.staged (pathKey p k) (BitVec.ofNat 32 (resetOf k))
/-- Stage an argument word for a path. -/
def Hw.setArg (h : Hw) (p : Path) (k : Nat) (v : Word) : Hw := { h with rf := { h.rf with staged := Tab.set h.rf.staged (pathKey p k) v } }

/-- The host holds a lease. -/
def Hw.holds (h : Hw) (p : HostId) (i : Nat) : Bool := h.holder i = p.val + 1

/-- The lease that governs a register of a page for writes from a host, some i, or none where the lease rule does not apply (R351). -/
def Hw.governing (h : Hw) (page off : Nat) : Nat :=
  match blockAt page with
  | none => 4
  | some (kind, inst) =>
    if hf : daField page < 48 then h.leaseOfField ⟨daField page, hf⟩
    else match kind with
      | .calliope | .stepCommit => inst
      | .watch => (h.paddockOfRing ⟨inst % 4, Nat.mod_lt _ (by decide)⟩).elim 4 (·.val)
      | .placeGlobal => if 0x100 ≤ off ∧ off < 0x200 then (off - 0x100) / 0x40 else if 0x200 ≤ off ∧ off < 0x280 then (off - 0x200) / 0x20
          else if 0x300 ≤ off ∧ off < 0x500 then (off - 0x300) / 0x80 else 4
      | .hostGlobal => if 0x140 ≤ off ∧ off < 0x1C0 then (off - 0x140) / 0x20 else if 0x1C0 ≤ off ∧ off < 0x1E0 then (off - 0x1C0) / 8 else 4
      | .powerGlobal => if 0x130 ≤ off ∧ off < 0x140 then (off - 0x130) / 4 else 4
      | _ => 4

/-- A field's domain is off: it is at REST, or its fuse has tripped (R370, R384). -/
def Hw.unpowered (h : Hw) (f : Nat) : Bool :=
  let st := h.blkState (pageBase f 6 15 1)
  st = 0 || st = 4
/-- The gait code in force on cluster c of field f (R373). -/
def Hw.gaitOf (h : Hw) (f c : Nat) : Nat := h.fld (pageBase f 6 15 1 + Reg.fieldPower.ptClusterGait) (3 * c) 3
/-- A page's block runs on its cluster's core clock: every block of a cluster but the router (R373). -/
def coreClocked (kind : PageKind) (page : Nat) : Bool := decide (daCluster page < 6) && decide (daField page < 48) && kind ≠ .router
/-- A page's block is absent, or its power domain is at REST (R12, R372, R418). A host port is on the Ringmaster die. -/
def Hw.dead (h : Hw) (page : Nat) : Bool :=
  match blockAt page with
  | none => !secBufPage page
  | some (.hostPort, _) => false
  | some (kind, _) => decide (daField page < 48) && (h.unpowered (daField page) || (coreClocked kind page && h.gaitOf (daField page) (daCluster page) = 4))
/-- A page answers a path as if it were absent: it is dead, or the path is a host's, the page a field's, and GLB_STATUS.READY clear (R12, R364). -/
def Hw.deadFor (h : Hw) (p : Path) (page : Nat) : Bool :=
  h.dead page || (p.host.isSome && decide (daField page < 48) && !h.bit (pgModule + Reg.module.glbStatus) 0 &&
    (match blockAt page with | some (.hostPort, _) => false | _ => true))
/-- BLK_STATE as it reads: HELD for a core-clocked block that is idle, running or active while its cluster is at WALK (R66, R89, R127, R422). -/
def Hw.stateCode (h : Hw) (page : Nat) : Nat :=
  let st := h.blkState page
  match blockAt page with
  | some (kind, _) =>
    if coreClocked kind page && h.gaitOf (daField page) (daCluster page) = 3 then
      match kind with
      | .mcore | .me => if st ≤ 1 then 2 else st
      | .vcore | .ve => if st ≤ 2 then 3 else st
      | .clmem => if st = 0 then 1 else st
      | _ => st
    else st
  | none => st

/-- A host may write a register (R351): its own port page always, the other port's never; its own host channels only; HP_ARG_G always; with FR_CFG.AUTO clear a paddock's holder sets FR_SEL and FR_ARG, which its commands need (R319); otherwise the governing lease. -/
def Hw.hostMayWrite (h : Hw) (p : HostId) (page off : Nat) : Bool :=
  match blockAt page with
  | some (.hostPort, i) => i = p.val
  | some (.mover, _) =>
      if daUnit page = 4 ∧ daCluster page = 6 then daField page = (hostField p).val
      else h.holds p (h.governing page off)
  | some (.hostGlobal, _) => off = Reg.hostGlobal.hpArgG || h.holds p (h.governing page off)
  | some (.farrier, _) => h.holds p 4 || ((off = Reg.farrier.frSel || off = Reg.farrier.frArg) && !h.bit (page + Reg.farrier.frCfg) 0 && (List.range 4).any fun i => h.holds p i)
  | some (_, _) => h.holds p (h.governing page off)
  | none => secBufPage page && h.holds p 4

/-- A path may write a register. Paths other than the hosts are not bound by leases (R351); channel paddocks are the Ringmaster's (R221). -/
def Hw.mayWrite (h : Hw) (p : Path) (page off : Nat) : Bool :=
  match p.host with
  | some x => h.hostMayWrite x page off
  | none => true

/-- Count a write of a host that a lease denies (R351). -/
def Hw.denied (h : Hw) (p : Path) : Hw :=
  match p.host with
  | some x => h.count (pgHostPort x + Reg.hostPort.hpDenied) 0 32 1
  | none => h

/-- A write of a path to a page: lost where the page is dead, refused by the lease rule, or carried out (R12, R351). -/
def Hw.pathWrite (h : Hw) (p : Path) (page off : Nat) (f : Hw → Hw) : Hw :=
  if h.deadFor p page then h else if h.mayWrite p page off then f h else h.denied p

/-- The result of a command: BLK_CMD_RESULT with its code and its path; the host pages keep one per path (R415, R366). -/
def Hw.cmdResult (h : Hw) (p : Path) (page code : Nat) (r : CmdRes) : Hw :=
  let w := r.code + code <<< 8 + p.code <<< 16
  let h := h.setRegN (page + 0x020) w
  match blockAt page with
  | some (.hostPort, _) | some (.hostGlobal, _) =>
      { h with rf := { h.rf with pathResult := Tab.set h.rf.pathResult (pathKey p page) (BitVec.ofNat 32 w) } }
  | _ => h

/-- What a path lacks to command a page (R351 for the hosts; the pages that only some paths command say so by `allowed`). -/
def Hw.mayCommand (h : Hw) (p : Path) (page : Nat) (lease : Option Nat) : Bool :=
  match p.host with
  | some x => (match lease with
      | some i => h.holds x i
      | none => h.hostMayWrite x page 0x01C)
  | none => true

/-- A write to a dead page is lost; else the first four tests of R415, in order, then the command's own body. A result other than OK or BUSY leaves no effect but itself. -/
def runCmd (s : State) (p : Path) (page code : Nat) (may : Bool) (legal : List Nat) (body : State → CmdRes × State) : State :=
  if s.hw.deadFor p page then s
  else if !may then s.onHw fun h => (h.denied p).cmdResult p page code .badArg
  else if s.hw.fencedPage page then s.onHw fun h => h.cmdResult p page code .fenced
  else if !legal.contains (s.hw.stateCode page) then s.onHw fun h => (h.cmdResult p page code .illegal).raise page 0
  else
    let (r, t) := body s
    match r with
    | .ok | .busy => t.onHw fun h => h.cmdResult p page code r
    | .illegal => s.onHw fun h => (h.cmdResult p page code .illegal).raise page 0
    | r => s.onHw fun h => h.cmdResult p page code r

/-- A command whose whole effect is on the hardware part and that has no check of its own. -/
def plainCmd (s : State) (p : Path) (page code : Nat) (may : Bool) (legal : List Nat) (f : Hw → Hw) : State :=
  runCmd s p page code may legal fun s => (.ok, s.onHw f)

/-- Set every listed register of a page to its reset value (the CLEAR_COUNTERS commands). -/
def Hw.clearRegs (h : Hw) (page : Nat) (offs : List Nat) : Hw :=
  offs.foldl (fun h o => h.setRegN (page + o) (resetOf (page + o))) h

/-- A byte of memory at a physical address; unlisted bytes read 0, as the zero fill of bring-up leaves them (R386, notes/assumptions/4.md). -/
def memRead (m : List Host.Cell) (a : Nat) : Byte := Tab.get m a 0
/-- Write a byte, keeping the canonical form: addresses rising, no byte equal to 0. -/
def memWrite (m : List Host.Cell) (a : Nat) (v : Byte) : List Host.Cell :=
  if v = 0 then Tab.erase m a else Tab.set m a v
/-- The canonical form of memory. -/
def Memory.wf (m : List Host.Cell) : Bool := Tab.sorted m && m.all fun c => c.2 ≠ 0
/-- n bytes from a device address, each read where it lies; unpopulated bytes read 0. -/
def memBytes (m : List Host.Cell) (a n : Nat) : List Byte :=
  (List.range n).map fun i => match physAddr (a + i) with | some q => memRead m q | none => 0
/-- Write bytes from a device address up; bytes at unpopulated addresses are dropped. -/
def memPut (m : List Host.Cell) (a : Nat) : List Byte → List Host.Cell
  | [] => m
  | b :: r => memPut (match physAddr a with | some q => memWrite m q b | none => m) (a + 1) r
/-- A little-endian number in memory. -/
def memNat (m : List Host.Cell) (a n : Nat) : Nat := ofLeBytes (memBytes m a n)

end Sys2Proof.Machine
end

