-- ==== Sys2Proof/Machine/Watch.lean ====
section
/-! DEFINITION. The numeric watch (R145 to R149, R441): ranges, slots, counts, snapshot, first non-finite record, its commands. -/
namespace Sys2Proof.Machine

/-- A ring's watch tables. -/
def Hw.nwAt (h : Hw) (r : Ring) : NwState := Tab.get h.nw r.val NwState.empty
/-- Set a ring's watch tables. -/
def Hw.setNw (h : Hw) (r : Ring) (w : NwState) : Hw := { h with nw := Tab.set h.nw r.val w }
/-- A valid range (NW_RANGE_CFG.VALID). -/
def NwRange.valid (x : NwRange) : Bool := wbit x.cfg 31

/-- The inverse of the interleave: the region 0x00 offset within its ring of a physical T1 byte (R186). -/
def deinterleave (q : Nat) : Ring × Nat :=
  let f : Field := ⟨siteOf q / 2 % 48, Nat.mod_lt _ (by decide)⟩
  let r := ringOf f
  let j := (ringFields r).idxOf f * 2 + siteOf q % 2
  let o := bitsOf q 0 36
  (r, (o / 4096 * 24 + j) <<< 12 + o % 4096)

/-- The byte of a range that a physical byte is, if it lies in the range: ranges match by the bytes stored (R145). -/
def NwRange.offOf (x : NwRange) (q : Nat) : Option Nat :=
  let start := if daRegion x.base = 0 then bitsOf x.base 0 41 else x.base % 2 ^ 56
  let pos := if daRegion x.base = 0 then
      (if daRegion q = 1 then (let (r, o) := deinterleave q; if r.val = bitsOf x.base 41 2 then some o else none) else none)
    else some q
  match pos with
  | some o => if start ≤ o ∧ o < start + 64 * x.len then some (o - start) else none
  | none => none

/-- What a writer says of element i of a write: saturated, underflowed, and the element's block scale where it knows one (R145). -/
structure WriteInfo where
  sat : Bool
  under : Bool
  scale : Option (Bool × Nat)
  deriving DecidableEq, Repr

/-- A writer that converts nothing and knows no scale. -/
def plainInfo : Nat → WriteInfo := fun _ => ⟨false, false, none⟩

/-- How one element counts (R145). -/
def elemCounts (fmt code : Nat) (i : WriteInfo) : NwCounts :=
  if fmt ≥ 9 then { NwCounts.none with written := 1, zero := b2n (decide (code = 0)) }
  else
    let f := nfwFmt fmt
    let v := match i.scale with
      | some (s, c) => if nfwNarrow fmt then narrowVal f s c code else f.decode code
      | none => f.decode code
    { written := 1
      zero := b2n (match v with | .fin _ m _ => decide (m = 0) | _ => false)
      sat := b2n i.sat
      under := b2n i.under
      nan := b2n v.isNan
      inf := b2n (match v with | .inf _ => i.scale.isSome || !nfwNarrow fmt | _ => false) }

/-- Sum of counts. -/
def NwCounts.plus (a b : NwCounts) : NwCounts :=
  ⟨a.written + b.written, a.zero + b.zero, a.sat + b.sat, a.under + b.under, a.nan + b.nan, a.inf + b.inf⟩

/-- The counts that a write of bytes from address a brings to one range: every element all of whose bits lie in the written bytes (R145). -/
def rangeCounts (x : NwRange) (a : Nat) (bytes : List Byte) (info : Nat → WriteInfo) : NwCounts :=
  let fmt := wbits x.cfg 12 4
  let b := nfwBits fmt
  let offs := (List.range bytes.length).filterMap fun i =>
    match physAddr (a + i) with
    | some q => (x.offOf q).map fun o => (o, i)
    | none => none
  match offs with
  | [] => NwCounts.none
  | (o0, _) :: _ =>
    let lo := offs.foldl (fun m p => min m p.1) o0
    let hi := offs.foldl (fun m p => max m p.1) o0
    let byteAt := fun o => (offs.find? fun p => p.1 = o).map fun p => bytes.getD p.2 0
    (List.range ((8 * (hi + 1) - 8 * lo) / b + 2)).foldl (fun acc k =>
      let e := 8 * lo / b + k
      let first := e * b / 8
      let last := (e * b + b - 1) / 8
      let bs := (List.range (last - first + 1)).map fun j => byteAt (first + j)
      if bs.all (·.isSome) then
        let code := bitsOf (ofLeBytes (bs.map fun o => o.getD 0)) (e * b % 8) b
        let i0 := ((offs.find? fun p => p.1 = first).map (·.2)).getD 0
        acc.plus (elemCounts fmt code (info ((8 * i0 + e * b % 8) / b)))
      else acc) NwCounts.none

/-- The counts of a write for every enabled slot whose range it touches, in any ring's watch (R145). -/
def Hw.watchDeltas (h : Hw) (fld a : Nat) (bytes : List Byte) (info : Nat → WriteInfo) : List NwDelta :=
  (List.finRange 4).flatMap fun r =>
    let w := h.nwAt r
    w.ranges.filterMap fun (_, x) =>
      let slot := wbits x.cfg 0 12
      if x.valid && wbit (Tab.get w.slots slot 0) 0 then
        let c := rangeCounts x a bytes info
        if c.written = 0 then none else some ⟨r.val, slot, fld, c⟩
      else none

/-- The largest counter value (40 bits). -/
def nwMax : Nat := 2 ^ 40 - 1

/-- STEP_BASE is in force for a paddock: its plan's first step base has begun (R148). -/
def Hw.baseInForce (h : Hw) (n : Paddock) : Bool := (Tab.get h.pads n.val PadState.empty).baseInForce

/-- Add counts to a slot: each counter stops at 2^40 − 1 and COUNT_SAT is set; the first NaN or Inf of a VOTE slot is recorded (R146, R148). -/
def Hw.watchAdd (h : Hw) (d : NwDelta) : Hw :=
  let r : Ring := ⟨d.ring % 4, Nat.mod_lt _ (by decide)⟩
  let w := h.nwAt r
  let c := (Tab.get w.counts d.slot NwCounts.none).plus d.n
  let cap := min nwMax
  let full := fun (old new : Nat) => decide (new ≥ nwMax ∧ old < nwMax)
  let o := Tab.get w.counts d.slot NwCounts.none
  let sat := full o.written c.written || full o.zero c.zero || full o.sat c.sat || full o.under c.under || full o.nan c.nan || full o.inf c.inf
  let h := h.setNw r { w with counts := Tab.set w.counts d.slot ⟨cap c.written, cap c.zero, cap c.sat, cap c.under, cap c.nan, cap c.inf⟩ }
  let pg := pgWatch r
  let h := if sat then h.raise pg 9 else h
  let cfg := Tab.get w.slots d.slot 0
  if wbit cfg 1 && d.n.nan + d.n.inf > 0 && !h.bit (pg + Reg.watch.nwFirstNf) 31 then
    let inForce := match h.paddockOfRing r with | some n => h.baseInForce n | none => false
    let base := match h.paddockOfRing r with | some n => (Tab.get h.pads n.val PadState.empty).baseNow | none => 0
    let stride := if inForce then h.stride + 2 ^ 48 - base else h.stride
    let h := h.setRegN (pg + Reg.watch.nwFirstNf) (d.slot + d.field <<< 12 + (if d.n.nan = 0 then 1 else 0) <<< 18 + (b2n (!inForce)) <<< 19 + 1 <<< 31)
    (h.setRegN (pg + Reg.watch.nwFirstNfStride) stride).raise pg 8
  else h

/-- Counts that arrive together: lowest slot first, then lowest field (R148). -/
def sortDeltas (ds : List NwDelta) : List NwDelta :=
  ds.mergeSort fun a b => decide (a.slot < b.slot ∨ (a.slot = b.slot ∧ a.field ≤ b.field))

/-- A write's counts: held for its writer until its item or transfer ends, or added at once for a writer with neither (R146). -/
def Hw.watchWrite (h : Hw) (writer : Option Nat) (fld a : Nat) (bytes : List Byte) (info : Nat → WriteInfo) : Hw :=
  let ds := h.watchDeltas fld a bytes info
  if ds = [] then h
  else match writer with
    | some k => { h with prov := Tab.set h.prov k (Tab.get h.prov k [] ++ ds) }
    | none => (sortDeltas ds).foldl Hw.watchAdd h
/-- A writer's item or transfer ends without error: its counts are added (R146). -/
def Hw.watchCommit (h : Hw) (k : Nat) : Hw :=
  let ds := Tab.get h.prov k []
  (sortDeltas ds).foldl Hw.watchAdd { h with prov := Tab.erase h.prov k }
/-- A writer's item or transfer ends in error: its counts are discarded (R146). -/
def Hw.watchDrop (h : Hw) (k : Nat) : Hw := { h with prov := Tab.erase h.prov k }

/-- The STEP_BASE tick: counters to 0, the first-non-finite record moves to PREV, the snapshot status clears (R147). -/
def Hw.watchStepReset (h : Hw) (r : Ring) : Hw :=
  let pg := pgWatch r
  let h := h.setNw r { h.nwAt r with counts := [] }
  let h := h.setReg (pg + Reg.watch.nwPrevNf) (h.reg (pg + Reg.watch.nwFirstNf))
  let h := h.setReg (pg + Reg.watch.nwPrevNfStride) (h.reg (pg + Reg.watch.nwFirstNfStride))
  ((h.setRegN (pg + Reg.watch.nwFirstNf) 0).setRegN (pg + Reg.watch.nwFirstNfStride) 0).setRegN (pg + Reg.watch.nwSnapStatus) 0

/-- The three sums of a snapshot: NAN and INF over VOTE slots, SAT over enabled slots (R147). -/
def NwState.sums (w : NwState) : Nat × Nat × Nat :=
  w.counts.foldl (fun (a, b, c) (k, x) =>
    let cfg := Tab.get w.slots k 0
    (a + (if wbit cfg 1 then x.nan else 0), b + (if wbit cfg 1 then x.inf else 0), c + (if wbit cfg 0 then x.sat else 0))) (0, 0, 0)
/-- SNAPSHOT (R147). -/
def Hw.watchSnapshot (h : Hw) (r : Ring) : Hw :=
  let pg := pgWatch r
  let (n, i, s) := (h.nwAt r).sums
  let h := h.setReg64 (pg + Reg.watch.nwSnapNanLo) n
  let h := h.setReg64 (pg + Reg.watch.nwSnapInfLo) i
  let h := h.setReg64 (pg + Reg.watch.nwSnapSatLo) s
  (h.setRegN (pg + Reg.watch.nwSnapStatus) (b2n (decide (n = 0 ∧ i = 0)) + 2)).raise pg 10

/-- Every range and slot of a paddock's watches is invalidated, at take-up and when a plan ends (R441). -/
def Hw.watchClear (h : Hw) (n : Paddock) : Hw :=
  (h.paddockRings n).foldl (fun h r =>
    let w := h.nwAt r
    h.setNw r { w with ranges := w.ranges.map (fun (k, x) => (k, { x with cfg := wput x.cfg 31 1 0 })),
                       slots := w.slots.map (fun (k, c) => (k, wput c 0 1 0)) }) h

/-- Counter registers as a read shows them: bits [39:0] and the SAT flag (R149). -/
def nwCounterReg (c : Nat) : Nat := c + (if c ≥ nwMax then 1 <<< 63 else 0)

/-- Bytes of a range as stored: their physical addresses overlap those of another (R145). -/
def rangesOverlap (x y : NwRange) : Bool :=
  -- one byte in 64 decides: bases and lengths are multiples of 64 bytes
  (List.range x.len).any fun i => match physAddr (x.base + 64 * i) with | some q => (y.offOf q).isSome | none => false

/-- NW_SEL: the write loads the staging registers from the selected range or slot (R149). -/
def Hw.nwSelect (h : Hw) (r : Ring) (v : Word) : Hw :=
  let pg := pgWatch r
  let h := h.setReg (pg + Reg.watch.nwSel) (v &&& 0x80001FFF#32)
  let w := h.nwAt r
  let i := wbits v 0 13
  if wbit v 31 then
    let x := Tab.get w.ranges i ⟨0, 0, 0⟩
    (((h.setReg64 (pg + Reg.watch.nwBaseLo) x.base).setRegN (pg + Reg.watch.nwLen) x.len).setReg (pg + Reg.watch.nwRangeCfg) x.cfg)
  else (h.setReg (pg + Reg.watch.nwSlotCfg) (if i < 4096 then Tab.get w.slots i 0 else 0)).setNw r { w with selSlot := i }

/-- NW_SEL_WRITE. -/
def execNwSelWrite (p : Path) (r : Ring) (v : Word) (s : State) : Res :=
  .next (s.onHw fun h => h.pathWrite p (pgWatch r) Reg.watch.nwSel fun h => h.nwSelect r v)

/-- WRITE_RANGE: the staging registers become the selected range, unless R149 refuses them. -/
def execWriteRange (p : Path) (r : Ring) (s : State) : Res :=
  let pg := pgWatch r
  .next <| runCmd s p pg 0x01 (s.hw.mayCommand p pg none) [0, 2] fun s =>
    let h := s.hw
    let i := h.fld (pg + Reg.watch.nwSel) 0 13
    let x : NwRange := ⟨h.reg64 (pg + Reg.watch.nwBaseLo), h.regN (pg + Reg.watch.nwLen), h.reg (pg + Reg.watch.nwRangeCfg)⟩
    let others := (List.finRange 4).flatMap fun q => ((h.nwAt q).ranges.filter fun (k, y) => y.valid && !(q = r && k = i)).map (·.2)
    if !h.bit (pg + Reg.watch.nwSel) 31 || x.base % 64 ≠ 0 || decide (daRegion x.base > 2) || decide (daRegion (x.base + 64 * x.len - 1) > 2) ||
       decide (wbits x.cfg 12 4 > 10) || (x.valid && others.any (rangesOverlap x)) then (.badArg, s)
    else (.ok, s.onHw fun h => let w := h.nwAt r; h.setNw r { w with ranges := Tab.set w.ranges i x })

/-- WRITE_SLOT: NW_SLOT_CFG becomes the selected slot's configuration (R149). -/
def execWriteSlot (p : Path) (r : Ring) (s : State) : Res :=
  let pg := pgWatch r
  .next <| runCmd s p pg 0x02 (s.hw.mayCommand p pg none) [0, 2] fun s =>
    let h := s.hw
    let i := h.fld (pg + Reg.watch.nwSel) 0 13
    if h.bit (pg + Reg.watch.nwSel) 31 || decide (i ≥ 4096) then (.badArg, s)
    else (.ok, s.onHw fun h => let w := h.nwAt r; h.setNw r { w with slots := Tab.set w.slots i (h.reg (pg + Reg.watch.nwSlotCfg)) })

/-- NW_SNAPSHOT (R147). -/
def execNwSnapshot (p : Path) (r : Ring) (s : State) : Res :=
  .next <| plainCmd s p (pgWatch r) 0x03 (s.hw.mayCommand p (pgWatch r) none) [1] fun h => h.watchSnapshot r

/-- Every counter, snapshot and first-non-finite record at 0, the previous step's record with them (R149, R413). -/
def Hw.watchZero (h : Hw) (r : Ring) : Hw :=
  let pg := pgWatch r
  (h.setNw r { h.nwAt r with counts := [] }).clearRegs pg
    [Reg.watch.nwSnapNanLo, Reg.watch.nwSnapNanHi, Reg.watch.nwSnapInfLo, Reg.watch.nwSnapInfHi, Reg.watch.nwSnapSatLo, Reg.watch.nwSnapSatHi,
     Reg.watch.nwSnapStatus, Reg.watch.nwFirstNf, Reg.watch.nwFirstNfStride, Reg.watch.nwPrevNf, Reg.watch.nwPrevNfStride]

/-- CLEAR_COUNTS (R149). -/
def execClearCounts (p : Path) (r : Ring) (s : State) : Res :=
  .next <| plainCmd s p (pgWatch r) 0x04 (s.hw.mayCommand p (pgWatch r) none) [0, 2] fun h => h.watchZero r

end Sys2Proof.Machine
end

