-- ==== Sys2Proof/Machine/Sig.lean ====
section
/-! DEFINITION. Sync counters, S-core tokens, taints and error marks (R37, R83, R302), the logical-to-physical map (R35), time. -/
namespace Sys2Proof.Machine

/-- The clock, moved on to a due time if it is behind it (notes/assumptions/2.md). -/
def Hw.atLeast (h : Hw) (t : Nat) : Hw := { h with clk := { h.clk with now := max h.clk.now t } }
/-- STRIDE_OFFSET: ns since the last tick (R29). -/
def Hw.strideOffset (h : Hw) : Nat := h.clk.now - h.clk.tickAt
/-- A paddock's plan and step. -/
def Hw.pad (h : Hw) (n : Paddock) : PadState := Tab.get h.pads n.val PadState.empty
/-- Set a paddock's plan and step. -/
def Hw.setPad (h : Hw) (n : Paddock) (x : PadState) : Hw := { h with pads := Tab.set h.pads n.val x }
/-- An S-core's hidden part. -/
def Hw.sqAt (h : Hw) (l : ClLoc) : ScoreState := Tab.get h.sq l.idx ScoreState.empty
/-- Set an S-core's hidden part. -/
def Hw.setSq (h : Hw) (l : ClLoc) (x : ScoreState) : Hw := { h with sq := Tab.set h.sq l.idx x }
/-- Write an S-core's x register; x0 stays 0. -/
def Hw.setX (h : Hw) (l : ClLoc) (rd : Nat) (v : Nat) : Hw :=
  if rd = 0 then h else h.setSq l { h.sqAt l with x := Tab.set (h.sqAt l).x rd (v % 2 ^ 64) }

/-- L2P_CLUSTER of a cluster is valid. -/
def Hw.l2pValid (h : Hw) (l : ClLoc) : Bool := h.bit (l.page + Reg.score.l2pCluster) 31
/-- The logical cluster a cluster hosts. -/
def Hw.lcluster (h : Hw) (l : ClLoc) : Nat := h.fld (l.page + Reg.score.l2pCluster) 0 9
/-- The clusters that host logical clusters of a paddock. -/
def Hw.hosts (h : Hw) (n : Paddock) : List ClLoc :=
  allClusters.filter fun l => h.l2pValid l && h.fld (l.page + Reg.score.l2pCluster) 12 2 = n.val
/-- The physical host of a logical cluster of a paddock. -/
def Hw.hostOf (h : Hw) (n : Paddock) (lc : Nat) : Option ClLoc := (h.hosts n).find? fun l => h.lcluster l = lc
/-- The paddock of a cluster: its map's, else its ring's (R221). -/
def Hw.paddockOfCluster (h : Hw) (l : ClLoc) : Option Paddock :=
  if h.l2pValid l then some ⟨h.fld (l.page + Reg.score.l2pCluster) 12 2 % 4, Nat.mod_lt _ (by decide)⟩ else h.paddockOfField l.f
/-- The physical slot of a logical M-core of a cluster (L2P_MCORE_m). -/
def Hw.mcoreSlot (h : Hw) (l : ClLoc) (m : Nat) : Option McLoc :=
  let k := l.page + Reg.score.l2pMcore0 + 4 * m
  let slot := h.fld k 0 3
  if h.bit k 31 ∧ 1 ≤ slot ∧ slot ≤ 5 then
    some ⟨⟨⟨h.fld k 16 6 % 48, Nat.mod_lt _ (by decide)⟩, ⟨h.fld k 8 3 % 6, Nat.mod_lt _ (by decide)⟩⟩, ⟨(slot - 1) % 5, Nat.mod_lt _ (by decide)⟩⟩
  else none
/-- The cluster whose S-core an M-core slot works for: the one whose map names the slot, else its own (R302). -/
def Hw.ownerOf (h : Hw) (m : McLoc) : ClLoc :=
  ((allClusters.filter h.l2pValid).find? fun l => (List.range 4).any fun i => h.mcoreSlot l i = some m).getD m.cl

/-- An engine's or channel's later signals carry an ERR mark (R302). -/
def Hw.marked (h : Hw) (page : Nat) : Bool := Tab.get h.errMark page false
/-- Set or clear the ERR mark of an engine or channel. -/
def Hw.setMark (h : Hw) (page : Nat) (b : Bool) : Hw := { h with errMark := if b then Tab.set h.errMark page true else Tab.erase h.errMark page }

/-- An engine's error is reported to its item's S-core: later signals carry ERR and the item's watch counts are dropped (R146, R301, R302). -/
def Hw.reportItem (h : Hw) (cl : ClLoc) (page cause : Nat) : Hw :=
  ((h.setMark page true).watchDrop page).emit (.itemError cl page cause)

/-- Add n to a token of an S-core: it stops at 65,535, the excess counts, and an ERR mark taints it (R37, R302). -/
def Hw.tokenAdd (h : Hw) (l : ClLoc) (tok n : Nat) (err : Bool) : Hw :=
  let q := h.sqAt l
  let v := Tab.get q.tok tok 0 + n
  let h := h.setSq l { q with tok := Tab.set q.tok tok (min v 65535) }
  let h := if v > 65535 then h.count (l.page + Reg.score.tokenEvents) 0 16 1 else h
  if err then h.setBit (l.page + Reg.score.sqTaint0 + 4 * (tok / 32)) (tok % 32) true else h

/-- A signal to a token in the STOK.SIG layout (rs1[23:16] of logical cluster rs1[8:0]): added at the host's S-core, or returned FENCED and counted at the sender's (R37). -/
def Hw.tokenSignal (h : Hw) (n : Paddock) (sender : Option ClLoc) (rs1 count : Nat) (err : Bool) : Hw :=
  match h.hostOf n (bitsOf rs1 0 9) with
  | some l =>
    if h.fencedPage l.page then
      (match sender with | some c => h.count (c.page + Reg.score.tokenEvents) 16 16 1 | none => h)
    else h.tokenAdd l (bitsOf rs1 16 8) count err
  | none => h

/-- Key of a sync counter's registers: counter i of the block at a page with counters from offset o. -/
def syncReg (page o i : Nat) : Nat := page + o + 4 * (i / 2)
/-- A sync counter (R83). -/
def Hw.syncGet (h : Hw) (page o i : Nat) : Nat := h.fld (syncReg page o i) (16 * (i % 2)) 16
/-- Set a sync counter. -/
def Hw.syncSet (h : Hw) (page o i v : Nat) : Hw := h.setFld (syncReg page o i) (16 * (i % 2)) 16 v
/-- Offset of the sync counters of an M-core's or V-core's page. -/
def syncOff : Nat := 0x140
/-- Add to a sync counter: it stops at 65,535 with SYNC_SAT; an ERR mark taints it (R83, R302). -/
def Hw.syncAdd (h : Hw) (page o satBit i n : Nat) (err : Bool) : Hw :=
  let v := h.syncGet page o i + n
  let h := h.syncSet page o i (min v 65535)
  let h := if v > 65535 then h.raise page satBit else h
  if err then { h with syncTaint := Tab.set h.syncTaint page (Tab.get h.syncTaint page 0 ||| 1 <<< i) } else h
/-- Consume from a sync counter: subtract, and clear its taint; the second part says whether it was tainted (R302). -/
def Hw.syncTake (h : Hw) (page o i n : Nat) : Hw × Bool :=
  let t := Tab.get h.syncTaint page 0
  let tainted := bitOf t i
  let h := h.syncSet page o i (h.syncGet page o i - n)
  (if tainted then { h with syncTaint := Tab.set h.syncTaint page (t ^^^ 1 <<< i) } else h, tainted)
/-- All sixteen sync counters of a block at 0 (R83). -/
def Hw.syncClear (h : Hw) (page o : Nat) : Hw :=
  let h := times 8 h fun i h => h.setRegN (page + o + 4 * i) 0
  { h with syncTaint := Tab.erase h.syncTaint page }

/-- SQ_SYNC_TAINT of a cluster: bit p says that a sync counter of logical M-core or V-core p is tainted (R318). -/
def Hw.syncTaintReg (h : Hw) (l : ClLoc) : Nat :=
  (List.range 4).foldl (fun v m => match h.mcoreSlot l m with
    | some s => if Tab.get h.syncTaint s.page 0 = 0 then v else v ||| 1 <<< m
    | none => v) ((List.finRange 2).foldl (fun v c => if Tab.get h.syncTaint (VcLoc.page ⟨l, c⟩) 0 = 0 then v else v ||| 1 <<< (4 + c.val)) 0)

end Sys2Proof.Machine
end

