-- ==== Sys2Proof/Machine/Me.lean ====
section
/-! DEFINITION. Matrix engines and M-core programming (R45 to R89): instruction words, sets, passes, accumulation, chains, start queues, sync. -/
namespace Sys2Proof.Machine

/-- A matrix engine's state. -/
def Hw.meAt (h : Hw) (l : MeLoc) : MeState := Tab.get h.me l.page MeState.empty
/-- Set a matrix engine's state. -/
def Hw.setMe (h : Hw) (l : MeLoc) (m : MeState) : Hw := { h with me := Tab.set h.me l.page m }
/-- Field of an ME instruction word. -/
def meF (w : MeWord) (lo len : Nat) : Nat := bitsOf w.toNat lo len

/-- ME format codes (R73). -/
def meFmt (c : Nat) : FpFmt :=
  match c with
  | 0 => bf16 | 1 => fp16 | 2 => e4m3 | 3 => e5m2 | 4 => e3m2 | 5 => e2m3 | _ => e2m1
/-- G, the values per cell, which is also the rate class (R49). -/
def meG (c : Nat) : Nat := if c ≤ 1 then 1 else if c ≤ 3 then 2 else 4
/-- Cell rows of a shape (R64). -/
def cellRows (shape : Nat) : Nat := 64 / 2 ^ shape
/-- Cell columns of a shape. -/
def cellCols (shape : Nat) : Nat := 64 * 2 ^ shape
/-- Bytes of one memory row of a tile (R69). -/
def tileRowBytes (fmt : Nat) : Nat := if fmt = 4 ∨ fmt = 5 then 192 else 128
/-- Contraction elements per streamed row (geometry table of R63). -/
def meContract (shape : Nat) (tr : Bool) (fmt : Nat) : Nat := if tr then cellCols shape else cellRows shape * meG fmt
/-- Outputs per row. -/
def meOutputs (shape : Nat) (tr : Bool) (fmt : Nat) : Nat := if tr then cellRows shape * meG fmt else cellCols shape
/-- Accumulator rows per output row, U (R79). -/
def meU (shape : Nat) (tr : Bool) (fmt : Nat) : Nat := (meOutputs shape tr fmt + 63) / 64
/-- Data bytes of a streamed row, b_s. -/
def streamBytes (shape : Nat) (tr : Bool) (afmt : Nat) : Nat := meContract shape tr afmt * (meFmt afmt).bits / 8

/-- Local memory of an M-core slot: its T0 address and its size (R67). -/
def lmemBase (m : McLoc) : Nat := t0Addr m.cl.f.val m.cl.c.val (m.slot.val + 1) 0
/-- The end of local memory. -/
def lmemSize : Nat := 16 <<< 20

/-- The stored value of a tile at output column n, contraction index k (R69). -/
def Tile.val (t : Tile) (n k : Nat) : FpVal :=
  let g := meG t.fmt
  let kc := cellRows t.shape
  let p := n / 64 * kc + k / g
  let row := sliceD t.data (p * tileRowBytes t.fmt) (tileRowBytes t.fmt) 0
  (meFmt t.fmt).decode (packedElem row (meFmt t.fmt).bits (n % 64 * g + k % g))
/-- The value of a block scale as a number: 1 in class 1, NaN for the NaN code (R50, R53). -/
def meScale (fmt sfmt byte : Nat) : FpVal :=
  if fmt ≤ 1 then .fin false 1 0
  else match scaleVal (decide (sfmt = 1)) byte with
    | some (m, e) => .fin false m e
    | none => .nan
/-- The scale byte of a tile at output column n, contraction index k (R70). -/
def Tile.scaleAt (t : Tile) (n k : Nat) : FpVal :=
  meScale t.fmt t.sfmt (t.scales.getD (n * (cellRows t.shape / 4) + k / blockSize t.blk) 0).toNat

/-- Value and scale of a set at (n, k): an EMPTY set holds +0.0 (R55). -/
def MeSet.at (s : MeSet) (n k : Nat) : FpVal × FpVal :=
  match s with
  | some t => (t.val n k, t.scaleAt n k)
  | none => (.fin false 0 0, .fin false 1 0)

/-- One accumulation step: acc + the exact sum of the live products, rounded once; NaN and Inf as R53. -/
def meStep (acc : Nat) (terms : List FpVal) : Nat :=
  let all := fp32.decode acc :: terms
  let pInf := all.any fun v => v = .inf false
  let nInf := all.any fun v => v = .inf true
  if all.any (·.isNan) || (pInf && nInf) then fp32.nanCode
  else if pInf then fp32.infMag
  else if nInf then fp32.signCode true + fp32.infMag
  else
    let (x, e) := all.foldl (fun (a : Int × Int) v => match v with
      | .fin s m k => dyAdd a.1 a.2 (sgnInt s m) k
      | _ => a) (0, 0)
    let allNegZero := all.all fun v => match v with | .fin s m _ => s && decide (m = 0) | _ => false
    (fp32.roundInt x e allNegZero).1

/-- What a pass reads beside its set: its word, its masks, its streamed rows and scales. -/
structure PassCtx where
  w : MeWord
  set : MeSet
  km : Nat
  nm : Nat
  deriving Repr

/-- Bit i of mask register r; register 0 reads as all ones (R78). -/
def maskBit (t : Tab Nat) (r i : Nat) : Bool := r = 0 || (Tab.get t r 0).testBit i

/-- The left fold of one accumulator element over the pass's groups (R51): output column n against streamed row m. -/
def meFold (mem : List Host.Cell) (base : Nat) (w : MeWord) (set : MeSet) (km : Tab Nat) (start m n : Nat) : Nat :=
  let shape := meF w 6 2
  let tr := meF w 8 1 = 1
  let afmt := meF w 11 3
  let wfmt := meF w 14 3
  let g := if tr then 1 else meG wfmt
  let c := meContract shape tr wfmt
  let bits := (meFmt afmt).bits
  let row := memBytes mem (base + meF w 64 20 * 16 + m * meF w 84 16 * 16) (streamBytes shape tr afmt)
  let sclAt := base + meF w 100 20 * 16 + 16 * m
  let kcount := meF w 40 9
  let term := fun i =>
    let a := (meFmt afmt).decode (packedElem row bits i)
    let sa := meScale afmt (meF w 122 1) (memBytes mem (sclAt + i / blockSize (meF w 120 2)) 1 |>.getD 0 0).toNat
    let (v, sv) := if tr then set.at i n else set.at n i
    (a.mul v).mul (sa.mul sv)
  (List.range (c / g)).foldl (fun acc gi =>
    let live := ((List.range g).map fun j => gi * g + j).filter fun i => decide (i < kcount) && maskBit km (meF w 58 3) i
    if live.isEmpty then acc else meStep acc (live.map term)) start

/-- A pass: every live output of every streamed row is folded and written (R51, R52, R78, R79). -/
def passAcc (mem : List Host.Cell) (base : Nat) (w : MeWord) (set : MeSet) (st : MeState) : Tab Nat :=
  let shape := meF w 6 2
  let tr := meF w 8 1 = 1
  let wfmt := meF w 14 3
  let u := meU shape tr wfmt
  let row0 := meF w 29 11
  let clear := meF w 10 1 = 1
  let outs := (List.range (min (meF w 49 9) (meOutputs shape tr wfmt))).filter fun n => maskBit st.nmask (meF w 61 3) n
  (List.range (meF w 17 12 + 1)).foldl (fun acc m =>
    outs.foldl (fun acc n =>
      let k := (row0 + m * u + n / 64) * 64 + n % 64
      Tab.set acc k (meFold mem base w set st.kmask (if clear then 0 else Tab.get acc k 0) m n)) acc) st.acc

/-- The shape and format that a set will have recorded once every issued load is done (R55). -/
def MeState.record (m : MeState) (set : Nat) : Option (Nat × Nat) :=
  let rec0 := (if set = 0 then m.set0 else m.set1).map fun t => (t.shape, t.fmt)
  m.ops.foldl (fun r o => match o with
    | .load _ w => if meF w 8 1 = set then some (meF w 6 2, meF w 11 3) else r
    | _ => r) rec0

/-- The end of a byte range lies within local memory. -/
def inLmem (lo n : Nat) : Bool := decide (lo + n ≤ lmemSize)

/-- The causes of R77 for MPASS, first that applies. -/
def mpassCause (m : MeState) (w : MeWord) : Option Nat :=
  let shape := meF w 6 2
  let tr := meF w 8 1 = 1
  let afmt := meF w 11 3
  let wfmt := meF w 14 3
  let mm := meF w 17 12 + 1
  let set := if meF w 9 1 = 1 then m.prevSet else 1 - m.prevSet
  let c := meContract shape tr wfmt
  if meF w 0 6 ≠ 1 then some 1
  else if shape = 3 ∨ afmt = 7 ∨ wfmt = 7 ∨ meF w 123 5 ≠ 0 then some 2
  else if meG afmt ≠ meG wfmt then some 3
  else if (match m.record set with | some r => decide (r ≠ (shape, wfmt)) | none => false) then some 4
  else if meF w 40 9 > c ∨ meF w 49 9 > meOutputs shape tr wfmt then some 5
  else if meF w 29 11 + mm * meU shape tr wfmt > 2048 then some 6
  else if !inLmem (meF w 64 20 * 16 + (mm - 1) * meF w 84 16 * 16) (streamBytes shape tr afmt) ||
      (decide (afmt ≥ 2) && !inLmem (meF w 100 20 * 16 + 16 * (mm - 1)) ((c - 1) / blockSize (meF w 120 2) + 1)) then some 7
  else none

/-- The causes of R77 for MLOAD. -/
def mloadCause (w : MeWord) : Option Nat :=
  let fmt := meF w 11 3
  let shape := meF w 6 2
  if meF w 0 6 ≠ 2 then some 1
  else if shape = 3 ∨ fmt = 7 ∨ meF w 17 47 ≠ 0 ∨ meF w 120 8 ≠ 0 then some 2
  else if meF w 9 1 = 0 ∧ (!inLmem (meF w 64 20 * 16 + 63 * meF w 84 16 * 16) (tileRowBytes fmt) ||
      (decide (fmt ≥ 2) && !inLmem (meF w 100 20 * 16)
        ((cellCols shape - 1) * (cellRows shape / 4) + (cellRows shape * meG fmt - 1) / blockSize (meF w 14 2) + 1))) then some 7
  else if (meF w 10 1 = 1 ∧ meF w 9 1 = 0) ∨ (meF w 9 1 = 1 ∧ meF w 64 56 ≠ 0) then some 9
  else none

/-- The bits an ME instruction uses, by opcode 3 to 7 (R76). -/
def meUsed (op : Nat) : Nat :=
  0x3F + (if op = 3 then 0xFFF <<< 17
    else if op = 4 then 0xF <<< 6 + 0xFFFFF <<< 64
    else if op = 5 then 0x3FFFFFFFFF <<< 6
    else if op = 6 then 0xFFFFF <<< 7
    else 0)
/-- The causes of R77 for MFWD, MMASK, MSIG, MWAIT and MEND. -/
def meOtherCause (op : Nat) (w : MeWord) : Option Nat :=
  if meF w 0 6 ≠ op then some 1
  else if w.toNat &&& (2 ^ 128 - 1 - meUsed op) ≠ 0 then some 2
  else if op = 5 ∧ ((meF w 6 1 = 0 ∧ meF w 27 17 ≠ 0) ∨ (meF w 6 1 = 1 ∧ meF w 7 4 ≠ 0)) then some 2
  else if op = 4 ∧ !inLmem (meF w 64 20 * 16) 32 then some 7
  else if op = 4 ∧ meF w 7 3 = 0 then some 8
  else none

/-- The engine index of an M-core's registers: MEs 0 to 3, the epilogue VE 4. -/
def mcDepth (h : Hw) (mc : McLoc) (e n : Nat) : Hw := h.setFld (mc.page + Reg.mcore.mcQueueDepth) (4 * e) 4 n
/-- Show an engine as running or not, and the M-core with it (MC_STATUS, BLK_STATE); FENCED, SPARE, HELD and TESTING stay. -/
def mcRunning (h : Hw) (mc : McLoc) (e : Nat) (b : Bool) : Hw :=
  let h := h.setBit (mc.page + Reg.mcore.mcStatus) e b
  if h.blkState mc.page ≤ 1 then h.setBlkState mc.page (b2n (decide (h.fld (mc.page + Reg.mcore.mcStatus) 0 5 ≠ 0))) else h

/-- An ME's BLK_STATE and ME_STATUS follow its issued operations and sets (R66). -/
def meStatus (h : Hw) (l : MeLoc) : Hw :=
  let m := h.meAt l
  let loading := fun i => m.ops.any fun o => match o with | .load _ w => meF w 8 1 = i | _ => false
  let st := fun (i : Nat) (s : MeSet) => if loading i then 1 else if s.isSome then 2 else 0
  let k := l.page + Reg.me.meStatus
  let h := (h.setFld k 1 2 (st 0 m.set0)).setFld k 3 2 (st 1 m.set1)
  let h := (h.setFld k 5 2 ((m.set0.map (·.shape)).getD (h.fld k 5 2))).setFld k 7 2 ((m.set1.map (·.shape)).getD (h.fld k 7 2))
  if h.blkState l.page ≤ 1 then h.setBlkState l.page (b2n (decide (m.ops ≠ []))) else h

/-- The next queued program of an ME begins, or the ME is idle (R71). -/
def meNextProgram (h : Hw) (l : MeLoc) : Hw :=
  let m := h.meAt l
  match m.queue with
  | e :: q => mcDepth (h.setMe l { m with pc := e, queue := q }) l.mc l.e.val q.length
  | [] => mcRunning h l.mc l.e.val false

/-- An illegal instruction: logged with its offset, cause and engine, ILLEGAL set, the item reported failed, the next program begins (R77, R89). -/
def meIllegal (h : Hw) (l : MeLoc) (cause : Nat) : Hw :=
  let pg := l.mc.page
  let h := h.logError pg (h.meAt l).pc (cause + l.e.val <<< 4)
  let h := (h.raise pg 8).reportItem (h.ownerOf l.mc) l.page 4
  meNextProgram h l

/-- A tile taken from a chain goes on to the next ME's chain-in, or out of the M-core (R80). -/
def chainSend (h : Hw) (l : MeLoc) (t : Tile) : Hw :=
  if he : l.e.val < 3 then
    let n : MeLoc := { l with e := ⟨l.e.val + 1, by omega⟩ }
    h.setMe n { h.meAt n with chainIn := (h.meAt n).chainIn ++ [t] }
  else h.emit (.chainOut l.mc t)

/-- The tile a feeder load reads from local memory (R69, R70). -/
def feederTile (mem : List Host.Cell) (base : Nat) (w : MeWord) : Tile :=
  let fmt := meF w 11 3
  let rb := tileRowBytes fmt
  { shape := meF w 6 2
    fmt := fmt
    blk := meF w 14 2
    sfmt := meF w 16 1
    data := (List.range 64).flatMap fun p => memBytes mem (base + meF w 64 20 * 16 + p * meF w 84 16 * 16) rb
    scales := if fmt ≤ 1 then [] else memBytes mem (base + meF w 100 20 * 16) 1024 }

/-- Put a tile into a set. -/
def MeState.putSet (m : MeState) (i : Nat) (t : MeSet) : MeState := if i = 0 then { m with set0 := t } else { m with set1 := t }

/-- One issued operation tried: (state, still waiting). Loads wait for held passes on their set and for earlier loads; chain loads and forwards wait for tiles; masks wait for earlier passes (R56, R57, R76, R82). -/
def meTry (mem : List Host.Cell) (h : Hw) (l : MeLoc) (o : MeOp) (passSets : List Nat) (loadBlocked : Bool) : Hw × Option MeOp :=
  let m := h.meAt l
  match o with
  | .pass .. => (h, some o)
  | .mask _ w =>
    if passSets ≠ [] then (h, some o)
    else
      let v := memNat mem (lmemBase l.mc + meF w 64 20 * 16) 32
      (h.setMe l (if meF w 6 1 = 0 then { m with kmask := Tab.set m.kmask (meF w 7 3) v } else { m with nmask := Tab.set m.nmask (meF w 7 3) v }), none)
  | .load _ w =>
    if loadBlocked || passSets.contains (meF w 8 1) then (h, some o)
    else if meF w 9 1 = 0 then (h.setMe l (m.putSet (meF w 8 1) (some (feederTile mem (lmemBase l.mc) w))), none)
    else match m.chainIn with
      | [] => (h, some o)
      | t :: r =>
        if t.shape = meF w 6 2 ∧ t.fmt = meF w 11 3 ∧ t.blk = meF w 14 2 ∧ t.sfmt = meF w 16 1 then
          let h := h.setMe l ({ m with chainIn := r }.putSet (meF w 8 1) (some t))
          (if meF w 10 1 = 1 then chainSend h l t else h, none)
        else
          let h := h.setMe l ({ m with chainIn := r }.putSet (meF w 8 1) none)
          let h := (h.count (l.mc.page + Reg.mcore.mcChainTagErr) 0 32 1).raise l.mc.page 9
          (h.reportItem (h.ownerOf l.mc) l.page 5, none)
  | .fwd id n =>
    if loadBlocked then (h, some o)
    else
      let k := min n m.chainIn.length
      let h1 := h.setMe l { m with chainIn := m.chainIn.drop k }
      let h2 := (m.chainIn.take k).foldl (fun h t => chainSend h l t) h1
      (h2, if k = n then none else some (.fwd id (n - k)))

/-- Every issued operation that may be done is done, in issue order; what cannot stays. -/
def meDrain (mem : List Host.Cell) (h : Hw) (l : MeLoc) : Hw :=
  let step := fun (acc : Hw × List MeOp × List Nat × Bool) (o : MeOp) =>
    let (h, keep, ps, lb) := acc
    let (h, r) := meTry mem h l o ps lb
    match r with
    | none => (h, keep, ps, lb)
    | some o' =>
      match o' with
      | .pass _ _ s => (h, keep ++ [o'], s :: ps, lb)
      | .mask .. => (h, keep ++ [o'], ps, lb)
      | _ => (h, keep ++ [o'], ps, true)
  let (h, keep, _, _) := (h.meAt l).ops.foldl step (h, [], [], false)
  meStatus (h.setMe l { h.meAt l with ops := keep }) l

/-- Drain an ME and, where it may have sent tiles on, the MEs after it in the chain (R80). -/
def meDrainFrom (mem : List Host.Cell) (h : Hw) (l : MeLoc) : Hw :=
  (List.finRange 4).foldl (fun h e => if l.e ≤ e then meDrain mem h { l with e := e } else h) h

/-- The memory check of an instruction's reads: corrected words count; a failure sets LMEM_CRC, is logged with code 15 and puts the item in error (R68, R89). Second part: the instruction may go on. -/
def meMemCheck (h : Hw) (l : MeLoc) (x : MemCheck) : Hw × Bool :=
  let pg := l.mc.page
  match x with
  | .ok => (h, true)
  | .corrected n => (h.count (pg + Reg.mcore.mcLmemCrc) 0 16 n, true)
  | .failed off =>
    let h := (h.count (pg + Reg.mcore.mcLmemCrc) 16 16 1).logError pg off (15 + l.e.val <<< 4)
    ((h.raise pg 10).reportItem (h.ownerOf l.mc) l.page 3, false)

/-- One ME instruction: nothing is issued while the ME waits in MWAIT or its M-core is fenced; an illegal one takes R77; else its body, and the program counter moves on. -/
def meInstr (l : MeLoc) (cause : MeState → Option Nat) (body : Hw → Hw) (s : State) : State :=
  s.onHw fun h =>
    let m := h.meAt l
    if m.wait.isSome || h.fencedPage l.mc.page || h.fencedPage l.page then h
    else match cause m with
      | some c => meIllegal h l c
      | none =>
        let h := body h
        h.setMe l { h.meAt l with pc := m.pc + 16 }

/-- Issue an operation and do what may be done (R56, R71). -/
def meIssue (mem : List Host.Cell) (h : Hw) (l : MeLoc) (f : Nat → MeOp) : Hw :=
  let m := h.meAt l
  meDrainFrom mem (h.setMe l { m with ops := m.ops ++ [f m.nextId], nextId := m.nextId + 1 }) l

/-- MPASS: the pass is issued and held until it starts (R74). A failed read keeps it out of the array (R68). -/
def execMpass (l : MeLoc) (w : MeWord) (x : MemCheck) (s : State) : Res :=
  .next (meInstr l (fun m => mpassCause m w) (fun h =>
    let (h, go) := meMemCheck h l x
    if go then
      let m := h.meAt l
      let set := if meF w 9 1 = 1 then m.prevSet else 1 - m.prevSet
      meIssue s.mem (h.setMe l { m with prevSet := set }) l fun id => .pass id w set
    else h) s)

/-- MLOAD (R75). A failed read leaves the set EMPTY. -/
def execMload (l : MeLoc) (w : MeWord) (x : MemCheck) (s : State) : Res :=
  .next (meInstr l (fun _ => mloadCause w) (fun h =>
    let (h, go) := meMemCheck h l x
    if go then meIssue s.mem h l fun id => .load id w
    else meStatus (h.setMe l ((h.meAt l).putSet (meF w 8 1) none)) l) s)

/-- MFWD: COUNT tiles pass from chain-in to chain-out; 0 completes at once (R76). It reads no memory. -/
def execMfwd (l : MeLoc) (w : MeWord) (x : MemCheck) (s : State) : Res :=
  .next (meInstr l (fun _ => meOtherCause 3 w) (fun h =>
    let h := (meMemCheck h l x).1
    if meF w 17 12 = 0 then h else meIssue s.mem h l fun id => .fwd id (meF w 17 12)) s)

/-- MMASK: 32 bytes of local memory into a mask register, once every earlier pass has started (R76, R78). -/
def execMmask (l : MeLoc) (w : MeWord) (x : MemCheck) (s : State) : Res :=
  .next (meInstr l (fun _ => meOtherCause 4 w) (fun h =>
    let (h, go) := meMemCheck h l x
    if go then meIssue s.mem h l fun id => .mask id w else h) s)

/-- MSIG is issued; its effect waits for the operations issued before it (R76). -/
def execMsig (l : MeLoc) (w : MeWord) (x : MemCheck) (s : State) : Res :=
  .next (meInstr l (fun _ => meOtherCause 5 w) (fun h =>
    let h := (meMemCheck h l x).1
    let m := h.meAt l
    h.setMe l { m with sigs := m.sigs ++ [(m.nextId, w)], nextId := m.nextId + 1 }) s)

/-- An operation's place in issue order. -/
def MeOp.id : MeOp → Nat
  | .pass i _ _ | .load i _ | .fwd i _ | .mask i _ => i
/-- An operation a signal waits for: loads, forwards and passes (R76). -/
def MeOp.work : MeOp → Bool
  | .mask _ _ => false
  | _ => true

/-- MSIG_EFFECT: the oldest issued signal adds its count once every earlier load, forward and pass is complete (R76, R83). -/
def execMsigEffect (l : MeLoc) (s : State) : Res :=
  .next (s.onHw fun h =>
    let m := h.meAt l
    match m.sigs with
    | (id, w) :: r =>
      if m.ops.any (fun o => o.work && decide (o.id < id)) then h
      else
        let h := h.setMe l { m with sigs := r }
        let err := h.marked l.page
        if meF w 6 1 = 0 then h.syncAdd l.mc.page syncOff 12 (meF w 7 4) (meF w 11 16) err
        else
          let cl := h.ownerOf l.mc
          match h.paddockOfCluster cl with
          | some n => h.tokenSignal n (some cl) (meF w 27 9 + meF w 36 8 <<< 16) (meF w 11 16) err
          | none => h
    | [] => h)

/-- A wait takes its count; a tainted counter puts the item in error (R83, R302). -/
def meWaitTake (h : Hw) (l : MeLoc) (ctr n : Nat) : Hw :=
  let (h, tainted) := h.syncTake l.mc.page syncOff ctr n
  if tainted then h.reportItem (h.ownerOf l.mc) l.page 9 else h

/-- MWAIT: a count of 0 completes at once; a count present is taken; else the ME waits (R76). -/
def execMwait (l : MeLoc) (w : MeWord) (x : MemCheck) (s : State) : Res :=
  .next (meInstr l (fun _ => meOtherCause 6 w) (fun h =>
    let h := (meMemCheck h l x).1
    let ctr := meF w 7 4
    let n := meF w 11 16
    if n = 0 then h
    else if n ≤ h.syncGet l.mc.page syncOff ctr then meWaitTake h l ctr n
    else h.setMe l { h.meAt l with wait := some (ctr, n) }) s)

/-- MWAIT_DONE (R83). -/
def execMwaitDone (l : MeLoc) (s : State) : Res :=
  .next (s.onHw fun h =>
    match (h.meAt l).wait with
    | some (ctr, n) =>
      if n ≤ h.syncGet l.mc.page syncOff ctr then meWaitTake (h.setMe l { h.meAt l with wait := none }) l ctr n else h
    | none => h)

/-- MEND: the program ends, its item's watch counts are added unless it is in error, the next program begins (R71, R146). -/
def execMend (l : MeLoc) (w : MeWord) (x : MemCheck) (s : State) : Res :=
  .next <|
    let ok := !((s.hw.meAt l).wait.isSome || s.hw.fencedPage l.mc.page || s.hw.fencedPage l.page) && (meOtherCause 7 w).isNone
    let s := meInstr l (fun _ => meOtherCause 7 w) (fun h =>
      let h := (meMemCheck h l x).1
      if h.marked l.page then h.watchDrop l.page else h.watchCommit l.page) s
    if ok then s.onHw fun h => meNextProgram h l else s

/-- PASS_START: the oldest held pass starts once no load into its set is outstanding before it; it runs whole: every row enters and every live output is folded and written (R51, R58, R61, R62). A parity error is marked and does not stop it (R65). -/
def execPassStart (l : MeLoc) (x : ParityCheck) (s : State) : Res :=
  .next (s.onHw fun h =>
    let m := h.meAt l
    match m.ops.find? (fun o => match o with | .pass .. => true | _ => false) with
    | some (.pass id w set) =>
      if m.ops.any (fun o => decide (o.id < id) && (match o with | .load _ lw => meF lw 8 1 = set | .mask .. => true | _ => false)) then h
      else
        let acc := passAcc s.mem (lmemBase l.mc) w (if set = 0 then m.set0 else m.set1) m
        let h := h.setMe l { m with acc := acc, ops := m.ops.filter fun o => o.id ≠ id }
        let h := h.setReg64 (l.page + Reg.me.mePassCountLo) (h.reg64 (l.page + Reg.me.mePassCountLo) + 1)
        let h := h.setReg64 (l.page + Reg.me.meRowCountLo) (h.reg64 (l.page + Reg.me.meRowCountLo) + meF w 17 12 + 1)
        let h := h.setFld (l.page + Reg.me.meStatus) 0 1 set
        let h := match x with
          | .none => h
          | .stationary => ((h.count (l.page + Reg.me.meParityCount) 0 16 1).raise l.page 8).reportItem (h.ownerOf l.mc) l.page 1
          | .accumulator => ((h.count (l.page + Reg.me.meParityCount) 16 16 1).raise l.page 9).reportItem (h.ownerOf l.mc) l.page 2
        meDrainFrom s.mem h l
    | _ => h)

/-- ME_CLEAR_SETS (R55, R66). -/
def execMeClearSets (p : Path) (l : MeLoc) (s : State) : Res :=
  .next <| plainCmd s p l.page 0x01 (s.hw.mayCommand p l.page none) [0] fun h =>
    meStatus (((h.setMe l { h.meAt l with set0 := none, set1 := none }).setFld (l.page + Reg.me.meStatus) 5 4 0)) l

/-- ME_CLEAR_COUNTERS (R66). -/
def execMeClearCounters (p : Path) (l : MeLoc) (s : State) : Res :=
  .next <| plainCmd s p l.page 0x02 (s.hw.mayCommand p l.page none) [0, 1] fun h =>
    h.clearRegs l.page [Reg.me.mePassCountLo, Reg.me.mePassCountHi, Reg.me.meRowCountLo, Reg.me.meRowCountHi, Reg.me.meStallTile,
      Reg.me.meStallLoad, Reg.me.meStallAcc, Reg.me.meStallFeed, Reg.me.meParityCount]

/-- Queue a program entry for an ME, or begin it if the ME is idle; a full queue discards it (R71). -/
def meStart (h : Hw) (l : MeLoc) (entry : Nat) : Hw :=
  let m := h.meAt l
  if !h.bit (l.mc.page + Reg.mcore.mcStatus) l.e.val then mcRunning (h.setMe l { m with pc := entry }) l.mc l.e.val true
  else if m.queue.length < 8 then mcDepth (h.setMe l { m with queue := m.queue ++ [entry] }) l.mc l.e.val (m.queue.length + 1)
  else (h.count (l.mc.page + Reg.mcore.mcStartOvf) 0 32 1).raise l.mc.page 11

/-- MC_CLEAR_SYNC (R83). -/
def execMcClearSync (p : Path) (l : McLoc) (s : State) : Res :=
  .next <| plainCmd s p l.page 0x01 (s.hw.mayCommand p l.page none) [0] fun h => h.syncClear l.page syncOff

/-- MC_CLEAR_COUNTERS (R89). -/
def execMcClearCounters (p : Path) (l : McLoc) (s : State) : Res :=
  .next <| plainCmd s p l.page 0x02 (s.hw.mayCommand p l.page none) [0, 1] fun h =>
    h.clearRegs l.page [Reg.mcore.mcStartOvf, Reg.mcore.mcLmemCrc, Reg.mcore.mcChainStallIn, Reg.mcore.mcChainStallOut, Reg.mcore.mcChainTagErr]

/-- The abort of a step at an M-core's MEs: start queues and instructions not begun go, held loads and passes that have not started go with them, sync counters to 0; sets, masks and accumulators stay (R86). -/
def mcAbort (h : Hw) (mc : McLoc) : Hw :=
  let h := (List.finRange 4).foldl (fun h e =>
    let l : MeLoc := ⟨mc, e⟩
    let h := h.setMe l { h.meAt l with ops := [], sigs := [], wait := none, queue := [] }
    (((mcRunning (mcDepth (meStatus h l) mc e.val 0) mc e.val false).setMark l.page false).watchDrop l.page)) h
  h.syncClear mc.page syncOff

end Sys2Proof.Machine
end

