-- ==== Sys2Proof/Machine/FarrierBase.lean ====
section
/-! DEFINITION. Physical units as FR_SEL names them, and the Farrier's count and classification of their errors (R306, R319). -/
namespace Sys2Proof.Machine

/-- A unit as FR_SEL spells it. -/
def unitKey (f c u e : Nat) : Nat := f + c <<< 6 + u <<< 9 + e <<< 13
/-- FIELD of a unit. -/
def unitField (k : Nat) : Nat := bitsOf k 0 6
/-- CLUSTER of a unit. -/
def unitCluster (k : Nat) : Nat := bitsOf k 6 3
/-- UNIT of a unit. -/
def unitUnit (k : Nat) : Nat := bitsOf k 9 4
/-- ENGINE of a unit. -/
def unitEngine (k : Nat) : Nat := bitsOf k 13 3
/-- The unit of a block's page: an ME is its engine, 4 the epilogue VE, 7 the memory of a core; a router is engine 1 of unit 0 of its cluster (notes/assumptions/52.md). -/
def unitOfPage (page : Nat) : Nat :=
  let k := unitKey (daField page) (daCluster page) (daUnit page)
  match blockAt page with
  | some (.me, i) | some (.uengine, i) => k i
  | some (.ve, i) => k (if i = 5 then 4 else i - 1)
  | some (.mcore, _) | some (.vcore, _) => k 7
  | some (.router, i) => k (if i = 6 then 0 else 1)
  | _ => k 0
/-- The whole field. -/
def fieldUnit (f : Nat) : Nat := unitKey f 7 0 0
/-- A link plane of a router. -/
def planeUnit (page port v : Nat) : Nat := unitOfPage page + (1 + 2 * port + v) <<< 16

/-- The Farrier part changed. -/
def Hw.onFr (h : Hw) (f : FarrierState → FarrierState) : Hw := { h with fr := f h.fr }
/-- A report counts for its unit: persistent at once, or with FR_CFG.ERRORS reports within FR_CFG.WINDOW strides; else transient (R306). -/
def Hw.classify (h : Hw) (u : Nat) (sure : Bool) : Hw :=
  let n := h.stride
  let recent := n :: (Tab.get h.fr.reports u []).filter fun t => decide (n < t + h.fld (pgFarrier + Reg.farrier.frCfg) 16 16)
  let h := h.onFr fun x => { x with reports := Tab.set x.reports u recent }
  if sure || decide (recent.length ≥ h.fld (pgFarrier + Reg.farrier.frCfg) 8 8) then
    (h.onFr fun x => { x with
      persistent := Tab.set x.persistent u (min (Tab.get x.persistent u 0 + 1) 65535)
      todo := if x.todo.contains u then x.todo else x.todo ++ [u] }).raise pgFarrier 9
  else (h.count (pgFarrier + Reg.farrier.frTransients) 0 32 1).raise pgFarrier 8
/-- A fetch error: persistent with a second on the same word within the window (R305). -/
def Hw.classifyFetch (h : Hw) (u word : Nat) : Hw :=
  let n := h.stride
  let key := u <<< 32 + word % 2 ^ 32
  let again := (Tab.get h.fr.fetch key []).any fun t => decide (n < t + h.fld (pgFarrier + Reg.farrier.frCfg) 16 16)
  (h.onFr fun x => { x with fetch := Tab.set x.fetch key [n] }).classify u again

end Sys2Proof.Machine
end

