-- ==== Sys2Proof/Machine/Codec.lean ====
section
/-! DEFINITION. Exponent-plane coding (R188 to R192), CRC-32, and the CRCs of a flit (R160). -/
namespace Sys2Proof.Machine

/-- One bit through a reflected CRC-32 register, polynomial of IEEE 802.3. -/
def crc32Bit (c : Nat) : Nat := if c % 2 = 1 then (c / 2) ^^^ 0xEDB88320 else c / 2
/-- One byte through the CRC-32. -/
def crc32Byte (c : Nat) (b : Byte) : Nat :=
  crc32Bit (crc32Bit (crc32Bit (crc32Bit (crc32Bit (crc32Bit (crc32Bit (crc32Bit (c ^^^ b.toNat))))))))
/-- CRC-32 (IEEE 802.3) of bytes. -/
def crc32 (bs : List Byte) : Nat := (bs.foldl crc32Byte 0xFFFFFFFF) ^^^ 0xFFFFFFFF

/-- One bit through an unreflected CRC of n bits. -/
def crcBit (n poly c : Nat) (b : Bool) : Nat :=
  let top := bitOf c (n - 1) != b
  let c := (c * 2) % 2 ^ n
  if top then c ^^^ poly else c
/-- A number's bits from lo on, n of them, least significant first. -/
def bitsLsb (v lo n : Nat) : List Bool := (List.range n).map fun i => bitOf v (lo + i)
/-- CRC-16 of a flit: the payload, bit 0 of each byte first, then sideband bits 35 to 111 (R160). -/
def flitCrc (side : Nat) (payload : List Byte) : Nat :=
  let c := payload.foldl (fun c b => (bitsLsb b.toNat 0 8).foldl (crcBit 16 0x1021) c) 0xFFFF
  (bitsLsb side 35 77).foldl (crcBit 16 0x1021) c
/-- CRC-8 of sideband bits 0 to 26 (R160). -/
def hopCrc (side : Nat) : Nat := (bitsLsb side 0 27).foldl (crcBit 8 0x07) 0

/-- The formats that may be coded: exponent and fraction widths by NFW code (R188). -/
def codecFmt (nfw : Nat) : Option (Nat × Nat) :=
  match nfwFormat nfw with
  | 0 => some (8, 23) | 1 => some (8, 7) | 2 => some (5, 10) | _ => none
/-- Bytes of an element of those formats. -/
def codecBytes (w : Nat × Nat) : Nat := (1 + w.1 + w.2) / 8

/-- The 257 code lengths of a table's first bytes (R188). -/
def codeLengths (table : List Byte) : List Nat := (List.range 257).map fun i => bitsOf (table.getD (i / 2) 0).toNat (4 * (i % 2)) 4
/-- Block count N of a table. -/
def tableBlocks (table : List Byte) : Nat := leAt table 136 8
/-- The table is valid (R189). -/
def tableOk (w : Nat × Nat) (lens : List Nat) : Bool :=
  let coded := lens.filter (· ≠ 0)
  decide ((coded.map fun l => 2 ^ (15 - l)).sum ≤ 2 ^ 15) &&
  (lens.getD 256 0 ≠ 0 || (lens.take (2 ^ w.1)).all (· ≠ 0)) &&
  (w.1 ≠ 5 || ((lens.drop 32).take 224).all (· = 0))
/-- First code value of each length, by the canonical rule (R189). -/
def firstCodes (lens : List Nat) : List Nat :=
  ((List.range 15).foldl (fun (acc : List Nat × Nat) i =>
    let code := (acc.2 + (if i = 0 then 0 else lens.countP (· = i))) * 2
    (acc.1 ++ [code], code)) ([0], 0)).1
/-- The code of a symbol: length and value; length 0 where it has none. -/
def codeOf (lens firsts : List Nat) (sym : Nat) : Nat × Nat :=
  let l := lens.getD sym 0
  if l = 0 then (0, 0) else (l, firsts.getD l 0 + (lens.take sym).countP (· = l))
/-- Code bits, most significant first. -/
def codeBits (c : Nat × Nat) : List Bool := (List.range c.1).map fun i => bitOf c.2 (c.1 - 1 - i)
/-- The bits an exponent value takes in the stream: its code, or ESC and the value least significant bit first (R190). -/
def expBits (w : Nat × Nat) (lens firsts : List Nat) (e : Nat) : List Bool :=
  if lens.getD e 0 ≠ 0 then codeBits (codeOf lens firsts e) else codeBits (codeOf lens firsts 256) ++ bitsLsb e 0 w.1
/-- Bits packed into bytes, bit t in bit t mod 8 of byte ⌊t ÷ 8⌋. -/
def packBits (bs : List Bool) : List Byte :=
  leBytes ((bs.length + 7) / 8) (bs.foldr (fun b acc => b2n b + 2 * acc) 0)
/-- Elements of a block's 4,096 bytes. -/
def blockElems (w : Nat × Nat) (bytes : List Byte) : List Nat := (List.range (4096 / codecBytes w)).map fun i => leAt bytes (i * codecBytes w) (codecBytes w)
/-- A block coded: its sectors and their bytes; raw with 16 where the coded form would need more than 15 (R190). -/
def encodeBlock (w : Nat × Nat) (lens : List Nat) (bytes : List Byte) : Nat × List Byte :=
  let firsts := firstCodes lens
  let es := blockElems w bytes
  let rest := packBytes (1 + w.2) (es.map fun x => (x >>> (w.1 + w.2)) * 2 ^ w.2 + x % 2 ^ w.2)
  let coded := rest ++ packBits (es.flatMap fun x => expBits w lens firsts (bitsOf x w.2 w.1))
  let sectors := (coded.length + 255) / 256
  if sectors ≤ 15 then (sectors, sliceD coded 0 (256 * sectors) 0) else (16, sliceD bytes 0 4096 0)
/-- One symbol read from a bit stream by length: the symbol and the bits left. -/
def readSym (lens firsts : List Nat) : Nat → Nat → Nat → List Bool → Option (Nat × List Bool)
  | 0, _, _, _ => none
  | _, _, _, [] => none
  | fuel + 1, len, code, b :: r =>
    let len := len + 1
    let code := 2 * code + b2n b
    let k := code - firsts.getD len 0
    if firsts.getD len 0 ≤ code ∧ k < lens.countP (· = len) then
      (((List.range 257).filter fun s => lens.getD s 0 = len)[k]?).map fun s => (s, r)
    else readSym lens firsts fuel len code r
/-- n exponent values read from the stream. -/
def readExps (w : Nat × Nat) (lens firsts : List Nat) : Nat → List Bool → Option (List Nat)
  | 0, _ => some []
  | n + 1, bs =>
    match readSym lens firsts 15 0 0 bs with
    | some (s, r) =>
      if s = 256 then
        (readExps w lens firsts n (r.drop w.1)).map fun l => (r.take w.1).foldr (fun b acc => b2n b + 2 * acc) 0 :: l
      else (readExps w lens firsts n r).map fun l => s :: l
    | none => none
/-- A block decoded from its sectors; none where the stream holds no code (R190). -/
def decodeBlock (w : Nat × Nat) (lens : List Nat) (sectors : Nat) (bytes : List Byte) : Option (List Byte) :=
  if sectors ≥ 16 then some (sliceD bytes 0 4096 0)
  else
    let n := 4096 / codecBytes w
    let restLen := n * (1 + w.2) / 8
    let stream := (bytes.drop restLen).flatMap fun b => bitsLsb b.toNat 0 8
    (readExps w lens (firstCodes lens) n stream).map fun es =>
      (List.range n).flatMap fun i =>
        let r := packedElem bytes (1 + w.2) i
        leBytes (codecBytes w) ((r >>> w.2) <<< (w.1 + w.2) + es.getD i 0 <<< w.2 + r % 2 ^ w.2)

/-- Blocks of an object. -/
def compBlocks (size : Nat) : Nat := (size + 4095) / 4096
/-- Offset of the data area in a compressed allocation (R188). -/
def compDataOff (size : Nat) : Nat := (256 + 16 * compBlocks size + 255) / 256 * 256
/-- Bytes of a compressed allocation (R191). -/
def compBytes (size budget : Nat) : Nat := compDataOff size + 256 * budget

end Sys2Proof.Machine
end

