-- ==== Sys2Proof/Machine/Monitor.lean ====
section
/-! DEFINITION. Histogram monitors (R403 to R409): capture, bins, windows, snapshots, commands. -/
namespace Sys2Proof.Machine

/-- A monitor's hidden part. -/
def Hw.monAt (h : Hw) (page : Nat) : MonState := Tab.get h.mon page MonState.empty
/-- Set a monitor's hidden part. -/
def Hw.setMon (h : Hw) (page : Nat) (m : MonState) : Hw := { h with mon := Tab.set h.mon page m }

/-- The bin of a sample (R405). -/
def monBin (mode : Bool) (shift : Nat) (base : Int) (width : Nat) (v : Int) : Nat :=
  let d := v - base
  if d < 0 then 0
  else if mode then (if d = 0 then 1 else 2 + min 29 (Nat.log2 d.toNat - shift))
  else if d ≥ 30 * (width : Int) then 31 else 1 + d.toNat / width

/-- Apply one sample to a running monitor: COUNT, SUM, MIN, MAX and its bin; a counter at its maximum stops, SUM with it, and SAT is set (R404). -/
def Hw.monApply (h : Hw) (page : Nat) (v : Int) : Hw :=
  let m := h.monAt page
  let c := page + Reg.monitor.monCtrl
  let b := monBin (h.bit c 3) (h.fld c 4 5) (signOf 32 (h.regN (page + Reg.monitor.monBinBase))) (h.regN (page + Reg.monitor.monBinWidth)) v
  let cnt := h.regN (page + Reg.monitor.monLiveCount)
  let bin := m.bins.getD b 0
  let sum := signOf 64 (h.reg64 (page + Reg.monitor.monLiveSumLo))
  let top : Bool := cnt = 2 ^ 32 - 1 || bin = 2 ^ 32 - 1
  let sum' := if top then sum else max (-(2 ^ 63)) (min (2 ^ 63 - 1) (sum + v))
  let sat : Bool := top || sum' ≠ sum + v
  let h := h.setMon page { m with bins := updAt m.bins b (fun x => satAdd 32 x 1), sat := m.sat || sat }
  let h := h.setRegN (page + Reg.monitor.monLiveCount) (satAdd 32 cnt 1)
  let h := h.setRegN (page + Reg.monitor.monLiveMin) (twos 32 (min v (signOf 32 (h.regN (page + Reg.monitor.monLiveMin)))))
  let h := h.setRegN (page + Reg.monitor.monLiveMax) (twos 32 (max v (signOf 32 (h.regN (page + Reg.monitor.monLiveMax)))))
  let h := h.setReg64 (page + Reg.monitor.monLiveSumLo) (twos 64 sum')
  if sat then h.raise page 10 else h

/-- MON_SRC selects a source of a kind and instance: the fields its kind reads agree (R403). -/
def monWants (src : Word) (kind sel : Nat) : Bool :=
  let s := wbits src 8 16
  wbits src 0 4 = kind &&
  (match kind with
   | 1 => bitsOf s 4 3 = bitsOf sel 4 3 && (bitsOf s 4 3 ≠ 4 || bitsOf s 8 3 = bitsOf sel 8 3) && (bitOf s 7 || bitsOf s 0 4 = bitsOf sel 0 4)
   | 3 => s % 16 = sel % 16
   | 4 | 6 => s % 8 = sel % 8
   | 5 => if bitOf s 0 then s % 16 = sel % 16 else s % 256 = sel % 256
   | 7 => s % 2 = sel % 2
   | _ => s = sel)

/-- A sample of a source of a field reaches every running monitor that selects it (R404). -/
def Hw.monSample (h : Hw) (f : Field) (kind sel : Nat) (v : Int) : Hw :=
  (List.finRange 16).foldl (fun h m =>
    let pg := pgMonitor f m
    if h.blkState pg = 2 && monWants (h.reg (pg + Reg.monitor.monSrc)) kind sel then h.monApply pg v else h) h

/-- Clear the live values: COUNT and SUM 0, MIN and MAX at their empty values, bins 0 (R404). -/
def Hw.monClearLive (h : Hw) (page : Nat) : Hw :=
  let h := h.clearRegs page [Reg.monitor.monLiveCount, Reg.monitor.monLiveMin, Reg.monitor.monLiveMax, Reg.monitor.monLiveSumLo, Reg.monitor.monLiveSumHi]
  h.setMon page { h.monAt page with bins := List.replicate 32 0, sat := false }

/-- A window ends: without HOLD the live values are copied to the snapshot registers, with HOLD they are lost; then they are cleared (R407). -/
def Hw.monEndWindow (h : Hw) (page : Nat) (short : Bool) : Hw :=
  let m := h.monAt page
  let seq := page + Reg.monitor.monSnapSeq
  if h.bit (page + Reg.monitor.monCtrl) 0 then
    ((h.monClearLive page).count seq 16 16 1).raise page 9
  else
    let live := fun (h : Hw) (src dst : Nat) => h.setReg (page + dst) (h.reg (page + src))
    let h := live h Reg.monitor.monLiveCount Reg.monitor.monSnapCount
    let h := live h Reg.monitor.monLiveMin Reg.monitor.monSnapMin
    let h := live h Reg.monitor.monLiveMax Reg.monitor.monSnapMax
    let h := live h Reg.monitor.monLiveSumLo Reg.monitor.monSnapSumLo
    let h := live h Reg.monitor.monLiveSumHi Reg.monitor.monSnapSumHi
    let h := times 32 h fun i h => h.setRegN (page + Reg.monitor.monSnapBin0 + 4 * i) (m.bins.getD i 0)
    let h := h.setRegN (page + Reg.monitor.monSnapFlags) (1 + 2 * b2n m.sat + 4 * b2n short)
    let h := h.setReg64 (page + Reg.monitor.monSnapStrideLo) h.stride
    let h := h.setFld seq 0 16 (h.fld seq 0 16 + 1)
    (h.monClearLive page).raise page 8

/-- At a tick: ARMED becomes RUNNING; a running window counts its stride, and its end becomes due at MON_WINDOW strides, or at a STEP_BASE tick in mode STEP (R406, R408). -/
def Hw.monTick (h : Hw) (f : Field) (m : Fin 16) (stepBase : Bool) : Hw :=
  let pg := pgMonitor f m
  let st := h.blkState pg
  if st = 1 then (h.setBlkState pg 2).setMon pg { h.monAt pg with strides := 0, due := false }
  else if st = 2 then
    let mode := h.fld (pg + Reg.monitor.monCtrl) 1 2
    let ms := h.monAt pg
    if mode = 0 then
      let n := ms.strides + 1
      if n ≥ h.fld (pg + Reg.monitor.monWindow) 0 16 then h.setMon pg { ms with strides := 0, due := true }
      else h.setMon pg { ms with strides := n }
    else if mode = 1 && stepBase then h.setMon pg { ms with due := true }
    else h
  else h

/-- Channels of a mover group in a field: sites 16, port 8, host 8 (fields 19 and 28), cluster 4. -/
def groupChannels (f : Field) (g : Nat) : Nat :=
  if g ≤ 1 then 16 else if g = 2 then 8 else if g = 3 then (if f.val = 19 ∨ f.val = 28 then 8 else 0) else if g = 4 then 4 else 0

/-- MON_SRC names a source that exists in the field (R408). -/
def monSrcOk (f : Field) (src : Word) : Bool :=
  let s := wbits src 8 16
  match wbits src 0 4 with
  | 1 => let g := bitsOf s 4 3
         decide (groupChannels f g ≠ 0) && (bitOf s 7 || decide (bitsOf s 0 4 < groupChannels f g)) && (g ≠ 4 || decide (bitsOf s 8 3 < 6))
  | 2 => let q := bitsOf s 0 4
         decide (q ≤ 3) || (q = 4 && bitsOf s 14 2 = 0 && decide (bitsOf s 7 4 < groupChannels f (bitsOf s 4 3)) && (bitsOf s 4 3 ≠ 4 || decide (bitsOf s 11 3 < 6)))
  | 3 => decide (s % 16 ≤ 9)
  | 4 | 6 => decide (s % 8 < 6)
  | 5 => bitOf s 0 || (decide (bitsOf s 1 3 < 6) && decide (bitsOf s 4 3 < 7))
  | 7 => true
  | _ => false

/-- MON START (R408). -/
def execMonStart (p : Path) (f : Field) (m : Fin 16) (s : State) : Res :=
  let pg := pgMonitor f m
  .next <| runCmd s p pg 0x01 (s.hw.mayCommand p pg none) [0] fun s =>
    let h := s.hw
    let c := pg + Reg.monitor.monCtrl
    if !monSrcOk f (h.reg (pg + Reg.monitor.monSrc)) || (h.fld c 1 2 = 0 && h.fld (pg + Reg.monitor.monWindow) 0 16 = 0) ||
       (!h.bit c 3 && h.regN (pg + Reg.monitor.monBinWidth) = 0) ||
       (h.fld (pg + Reg.monitor.monSrc) 0 4 = 2 && h.fld (pg + Reg.monitor.monSamplePeriod) 0 16 = 0) then (.badArg, s)
    else (.ok, s.onHw fun h => ((h.monClearLive pg).setBlkState pg 1))

/-- MON STOP: RUNNING ends its window as SHORT; ARMED goes back to IDLE (R408). -/
def execMonStop (p : Path) (f : Field) (m : Fin 16) (s : State) : Res :=
  let pg := pgMonitor f m
  .next <| plainCmd s p pg 0x02 (s.hw.mayCommand p pg none) [1, 2] fun h =>
    (if h.blkState pg = 2 then h.monEndWindow pg true else h).setBlkState pg 0

/-- SNAPSHOT, in RUNNING with WIN_MODE MANUAL (R406, R409). -/
def execMonSnapshot (p : Path) (f : Field) (m : Fin 16) (s : State) : Res :=
  let pg := pgMonitor f m
  .next <| runCmd s p pg 0x03 (s.hw.mayCommand p pg none) [2] fun s =>
    if s.hw.fld (pg + Reg.monitor.monCtrl) 1 2 = 2 then (.ok, s.onHw fun h => h.monEndWindow pg false) else (.illegal, s)

/-- The snapshot registers of a monitor (R409). -/
def monSnapRegs : List Nat :=
  [Reg.monitor.monSnapSeq, Reg.monitor.monSnapStrideLo, Reg.monitor.monSnapStrideHi, Reg.monitor.monSnapCount, Reg.monitor.monSnapMin,
   Reg.monitor.monSnapMax, Reg.monitor.monSnapSumLo, Reg.monitor.monSnapSumHi, Reg.monitor.monSnapFlags] ++
  (List.range 32).map fun i => Reg.monitor.monSnapBin0 + 4 * i

/-- CLEAR_SNAP (R409). -/
def execClearSnap (p : Path) (f : Field) (m : Fin 16) (s : State) : Res :=
  let pg := pgMonitor f m
  .next <| plainCmd s p pg 0x04 (s.hw.mayCommand p pg none) [0] fun h => h.clearRegs pg monSnapRegs

/-- MON_WINDOW_END: a due window of a running monitor ends (R406, R407). -/
def execMonWindowEnd (f : Field) (m : Fin 16) (s : State) : Res :=
  .next (s.onHw fun h =>
    let pg := pgMonitor f m
    if h.blkState pg = 2 && (h.monAt pg).due then
      let v := (h.monAt pg).held
      let h := h.monEndWindow pg false
      let h := h.setMon pg { h.monAt pg with due := false, held := none }
      match v with
      | some v => h.monApply pg v
      | none => h
    else h)

end Sys2Proof.Machine
end

