-- ==== Sys2Proof/Machine/Score.lean ====
section
/-! DEFINITION. Sequencing on the S-core (R36 to R42): items, STICK, STOK, SITEM, SDL; the LATE notice of REORDER (R214). -/
namespace Sys2Proof.Machine

/-- CUR_STRIDE_LEN. -/
def Hw.curLen (h : Hw) : Nat := h.fld (pgTimebase + Reg.timebase.curStrideLen) 0 21
/-- STRIDE_PERIOD in force. -/
def Hw.period (h : Hw) : Nat := h.fld (pgTimebase + Reg.timebase.stridePeriod) 0 20
/-- The time of the tick that began stride n, for a recent stride (the earliest held for an older one). -/
def Hw.tickTime (h : Hw) (n : Nat) : Nat :=
  h.clk.ticks.getD (h.stride - n) (h.clk.ticks.getLastD 0)
/-- STEP_BASE of a cluster's S-core page. -/
def Hw.stepBaseOf (h : Hw) (l : ClLoc) : Nat := h.reg64 (l.page + Reg.score.stepBaseLo)
/-- The effective slack of the present stride: SLACK_NS + (its length − STRIDE_PERIOD) (R42). -/
def Hw.effSlack (h : Hw) (l : ClLoc) : Nat := h.regN (l.page + Reg.score.slackNs) + (h.curLen - h.period)

/-- STRIDE_COUNT ≥ rs1[47:0]: STICK.WAIT completes (R38). -/
def Hw.stickReady (h : Hw) (a : Nat) : Bool := decide (h.stride ≥ a % 2 ^ 48)

/-- STICK.WAIT. An S-core that waits already issues nothing. -/
def execStickWait (l : ClLoc) (rd : Fin 32) (a : Dword) (s : State) : Res :=
  .next (s.onHw fun h =>
    let q := h.sqAt l
    if q.wait.isSome then h
    else if h.stickReady a.toNat then h.setX l rd.val h.stride
    else h.setSq l { q with wait := some (.stick rd.val (a.toNat % 2 ^ 48)) })

/-- STICK_WAIT_DONE. -/
def execStickWaitDone (l : ClLoc) (s : State) : Res :=
  .next (s.onHw fun h =>
    let q := h.sqAt l
    match q.wait with
    | some (.stick rd u) => if h.stickReady u then (h.setSq l { q with wait := none }).setX l rd h.stride else h
    | _ => h)

/-- STICK.READ: STRIDE_COUNT, STRIDE_OFFSET or CUR_STRIDE_LEN (R29). -/
def execStickRead (l : ClLoc) (rd : Fin 32) (k : Fin 3) (s : State) : Res :=
  .next (s.onHw fun h =>
    if (h.sqAt l).wait.isSome then h
    else h.setX l rd.val (match k with | 0 => h.stride | 1 => h.strideOffset | 2 => h.curLen))

/-- Consume n from a token; the second part says whether the token was tainted, which the consumption clears (R37, R302). -/
def Hw.tokenTake (h : Hw) (l : ClLoc) (tok n : Nat) : Hw × Bool :=
  let q := h.sqAt l
  let k := l.page + Reg.score.sqTaint0 + 4 * (tok / 32)
  let t := h.bit k (tok % 32)
  let h := h.setSq l { q with tok := Tab.set q.tok tok (Tab.get q.tok tok 0 - n) }
  (if t then h.setBit k (tok % 32) false else h, t)

/-- STOK.WAIT takes its count: rd receives what remains; a tainted count puts the item in error (R37, R302). -/
def Hw.stokTake (h : Hw) (l : ClLoc) (rd tok n : Nat) : Hw :=
  if n = 0 then h.setX l rd (Tab.get (h.sqAt l).tok tok 0)
  else
    let (h, tainted) := h.tokenTake l tok n
    let h := h.setX l rd (Tab.get (h.sqAt l).tok tok 0)
    if tainted then h.reportItem l l.page 9 else h

/-- STOK.WAIT rd, rs1, rs2: token rs1[7:0], count rs2[15:0]; a count of 0 completes at once (R37). -/
def execStokWait (l : ClLoc) (rd : Fin 32) (a b : Dword) (s : State) : Res :=
  .next (s.onHw fun h =>
    let q := h.sqAt l
    let tok := a.toNat % 256
    let n := b.toNat % 65536
    if q.wait.isSome then h
    else if n ≤ Tab.get q.tok tok 0 then h.stokTake l rd.val tok n
    else h.setSq l { q with wait := some (.tok rd.val tok n) })

/-- STOK_WAIT_DONE. -/
def execStokWaitDone (l : ClLoc) (s : State) : Res :=
  .next (s.onHw fun h =>
    let q := h.sqAt l
    match q.wait with
    | some (.tok rd tok n) => if n ≤ Tab.get q.tok tok 0 then (h.setSq l { q with wait := none }).stokTake l rd tok n else h
    | _ => h)

/-- STOK.SIG rs1, rs2: add rs2[15:0] to token rs1[23:16] of logical cluster rs1[8:0]; rd ← 0 (R37). -/
def execStokSig (l : ClLoc) (rd : Fin 32) (a b : Dword) (s : State) : Res :=
  .next (s.onHw fun h =>
    if (h.sqAt l).wait.isSome then h
    else
      let h := match h.paddockOfCluster l with
        | some n => h.tokenSignal n (some l) a.toNat (b.toNat % 65536) (h.marked l.page)
        | none => h
      h.setX l rd.val 0)

/-- Record an OVERRUN (R41). -/
def Hw.overrun (h : Hw) (l : ClLoc) : Hw :=
  (h.count (l.page + Reg.score.overrunCount) 0 32 1).count (pgTimebase + Reg.timebase.overrunTotal) 0 32 1

/-- SITEM.BEGIN: track item i of the item table for absolute stride rs1[47:0]; one begun after its stride's end is late already (R41). The item in error, begun again, is a replay (R303). -/
def execSitemBegin (l : ClLoc) (a : Dword) (i : Nat) (s : State) : Res :=
  .next (s.onHw fun h =>
    let q := h.sqAt l
    if q.wait.isSome then h
    else
      let n := a.toNat % 2 ^ 48
      let late := decide (h.stride > n)
      let again := h.bit (l.page + Reg.score.sqErrStatus) 8 && decide (h.fld (l.page + Reg.score.sqErrItem) 0 16 = i)
      let h := h.setSq l { q with tracked := some ⟨n, late⟩, lateItem := some i, replayed := q.replayed || again }
      let h := if again then (h.count (l.page + Reg.score.sqReplays) 0 16 1).count (l.page + Reg.score.sqReplays) 16 16 1 else h
      if late then h.overrun l else h)

/-- SITEM.END: rd ← the carry-over in ns past the tick that ended the item's stride, 0 if on time; MAX_CARRY_NS keeps the largest; the last item of a stride gives a STRIDE_SLACK sample (R41, R403). -/
def execSitemEnd (l : ClLoc) (rd : Fin 32) (s : State) : Res :=
  .next (s.onHw fun h =>
    let q := h.sqAt l
    match q.wait, q.tracked with
    | none, some t =>
      let late := decide (h.stride > t.stride)
      let carry := if late then h.clk.now - h.tickTime (t.stride + 1) else 0
      let last := (List.range q.items.length).all fun i =>
        q.begun.contains i || (match q.items[i]? with | some e => decide (h.stepBaseOf l + e.rel ≠ t.stride) | none => true)
      let slack : Int := if late then -(carry : Int) else ((h.clk.tickAt + h.curLen : Nat) : Int) - (h.clk.now : Int)
      let h := h.setSq l { q with tracked := none, lateItem := none }
      let h := h.setX l rd.val carry
      let k := l.page + Reg.score.maxCarryNs
      let h := h.setRegN k (max (h.regN k) (min carry (2 ^ 32 - 1)))
      if last && !h.fencedPage l.page then h.monSample l.f 6 l.c.val slack else h
    | _, _ => h)

/-- A deadline: bits [63:20] the stride's low 44 bits, [19:0] the offset in ns (R40). -/
def mkDeadline (stride off : Nat) : Nat := (stride % 2 ^ 44) <<< 20 + off % 2 ^ 20

/-- SDL.MAKE: the deadline of relative stride rs1[31:0], offset rs2[19:0], from STEP_BASE (R40). -/
def execSdlMake (l : ClLoc) (rd : Fin 32) (a b : Dword) (s : State) : Res :=
  .next (s.onHw fun h =>
    if (h.sqAt l).wait.isSome then h
    else h.setX l rd.val (mkDeadline (h.stepBaseOf l + a.toNat % 2 ^ 32) b.toNat))

/-- The stride a deadline means: the one with those low 44 bits within −2^43 + 1 to +2^43 of STRIDE_COUNT (R40). -/
def deadlineStride (cur d : Nat) : Int :=
  let low := bitsOf d 20 44
  let diff : Nat := (low + 2 ^ 44 - cur % 2 ^ 44) % 2 ^ 44
  (cur : Int) + (if diff ≤ 2 ^ 43 then (diff : Int) else (diff : Int) - 2 ^ 44)

/-- The deadline has passed: its stride is over, or its offset in the present stride is reached (R40). All zeros means no deadline. -/
def Hw.deadlinePast (h : Hw) (d : Nat) : Bool :=
  if d = 0 then false
  else
    let n := deadlineStride h.stride d
    let cur : Int := (h.stride : Int)
    let off := d % 2 ^ 20
    decide (n < cur) || decide (n = cur) && (decide (h.strideOffset ≥ min off h.curLen))

/-- A VOTE marker: KIND 3 with CODE_OFFSET[3:0] = 1 (R277). -/
def ItemEntry.isVote (e : ItemEntry) : Bool := e.kind = 3 && e.code % 16 = 1
/-- The S-core has begun its VOTE marker, if its table has one (R277). -/
def ScoreState.voteBegun (q : ScoreState) : Bool :=
  (List.range q.items.length).all fun i => match q.items[i]? with | some e => !e.isVote || q.begun.contains i | none => true
/-- An entry of the item table may begin: its release stride has begun, its token count is present, and every earlier entry of its logical engine has begun (R36); a VOTE marker waits for every earlier item to complete, and nothing after it begins (R277). -/
def Hw.itemReady (h : Hw) (l : ClLoc) (i : Nat) (e : ItemEntry) : Bool :=
  let q := h.sqAt l
  !q.begun.contains i && decide (h.stride ≥ h.stepBaseOf l + e.rel) && decide (e.tokCount ≤ Tab.get q.tok e.tokIn 0) &&
  ((List.range i).all fun j => q.begun.contains j && !((q.items[j]?).elim false ItemEntry.isVote) ||
    (match q.items[j]? with | some f => decide (f.leid ≠ e.leid) && !e.isVote && !f.isVote | none => true)) &&
  (!e.isVote || q.tracked.isNone) &&
  !((List.range i).any fun j => q.begun.contains j && (q.items[j]?).elim false ItemEntry.isVote)

/-- ITEM_BEGIN: the item consumes its token count and begins; a tainted count puts it in error (R36, R302). -/
def execItemBegin (l : ClLoc) (i : Nat) (s : State) : Res :=
  .next (s.onHw fun h =>
    match (h.sqAt l).items[i]? with
    | some e =>
      if h.itemReady l i e then
        let (h, tainted) := if e.tokCount = 0 then (h, false) else h.tokenTake l e.tokIn e.tokCount
        let q := h.sqAt l
        let h := (h.setSq l { q with begun := i :: q.begun, current := Tab.set q.current e.leid i }).emit (.itemBegin l i)
        if tainted then h.reportItem l l.page 9 else h
      else h
    | none => h)

/-- The S-core has unfinished items of earlier strides: its tracked item's stride is over. -/
def Hw.behind (h : Hw) (l : ClLoc) : Bool :=
  match (h.sqAt l).tracked with
  | some t => decide (t.stride < h.stride)
  | none => false

/-- STRETCH_REQUEST: at most one per stride, once the carry-over reaches the effective slack with earlier items unfinished; withheld, and counted, where STRETCH_REQ_EN is clear or in HOLDOVER (R32, R42). -/
def execStretchRequest (l : ClLoc) (s : State) : Res :=
  .next (s.onHw fun h =>
    let q := h.sqAt l
    if h.behind l && !q.stretchSent then
      let h := h.atLeast (h.clk.tickAt + h.effSlack l)
      let h := h.setSq l { q with stretchSent := true }
      let allowed := match h.paddockOfCluster l with
        | some n => h.bit (pgTimebase + Reg.timebase.stretchReqEn) n.val
        | none => false
      if allowed && h.blkState pgTimebase ≠ 3 then
        (h.count (l.page + Reg.score.stretchReqCount) 0 32 1).emit (.stretchReq l h.stride)
      else h.count (pgTimebase + Reg.timebase.stretchWithheld) 0 32 1
    else h)

/-- Offset of paddock n's counters on the module-global placement page (R219). -/
def pdCounter (n : Paddock) (off : Nat) : Nat := pgPlaceGlobal + off + 0x20 * n.val

/-- The first slack-list entry of an engine whose release stride has passed, whose count is present and which has not run this step (R214). -/
def Hw.slackReady (h : Hw) (l : ClLoc) (leid : Nat) : Option Nat :=
  let q := h.sqAt l
  (List.range q.slack.length).find? fun i =>
    match q.slack[i]? with
    | some e => e.leid = leid && !q.slackRun.contains i && decide (h.stride ≥ h.stepBaseOf l + e.rel) && decide (e.tokCount ≤ Tab.get q.tok e.tokIn 0)
    | none => false

/-- The head item of an engine: the first entry of its LEID that has not begun. -/
def ScoreState.head (q : ScoreState) (leid : Nat) : Option ItemEntry :=
  ((List.range q.items.length).find? fun i => !q.begun.contains i && (match q.items[i]? with | some e => e.leid = leid | none => false)).bind fun i => q.items[i]?

/-- LATE_NOTICE: if the head item of the engine waits on the late token and is SLACK_ELIGIBLE, the first ready slack entry runs and counts REORDER, and stands for its item of the table; with none ready the item waits, which is STALL (R214). -/
def execLateNotice (l : ClLoc) (t : BitVec 8) (le : BitVec 16) (s : State) : Res :=
  .next (s.onHw fun h =>
    let q := h.sqAt l
    match q.head le.toNat with
    | some e =>
      if e.tokIn = t.toNat && decide (e.tokCount > Tab.get q.tok e.tokIn 0) && bitOf e.flags 1 then
        match h.slackReady l le.toNat with
        | some i =>
          let x := q.slack.getD i e
          let (h, tainted) := if x.tokCount = 0 then (h, false) else h.tokenTake l x.tokIn x.tokCount
          let q := h.sqAt l
          let twin := (List.range q.items.length).find? fun j => !q.begun.contains j &&
            (match q.items[j]? with | some f => f.leid = x.leid && f.code = x.code | none => false)
          let h := h.setSq l { q with slackRun := i :: q.slackRun, begun := (match twin with | some j => j :: q.begun | none => q.begun) }
          let h := h.emit (.slackBegin l i)
          let h := if tainted then h.reportItem l l.page 9 else h
          (match h.paddockOfCluster l with
           | some n => h.count (pdCounter n Reg.placeGlobal.paddock0Reorder) 0 32 1
           | none => h)
        | none =>
          (match h.paddockOfCluster l with
           | some n => h.count (pdCounter n Reg.placeGlobal.paddock0Stall) 0 32 1
           | none => h)
      else h
    | none => h)

end Sys2Proof.Machine
end

