-- ==== Sys2Proof/Machine/Write.lean ====
section
/-! DEFINITION. What a write to memory does beside storing its bytes: the numeric watch (R145), arrival ranges (R246, R247), site byte counters (R217). -/
namespace Sys2Proof.Machine

/-- A field is in service. -/
def Hw.inService (h : Hw) (f : Nat) : Bool := !h.outFields.contains f
/-- A field's update complex. -/
def Hw.ucAt (h : Hw) (f : Field) : UcState := Tab.get h.uc f.val UcState.empty
/-- Set a field's update complex. -/
def Hw.setUc (h : Hw) (f : Field) (u : UcState) : Hw := { h with uc := Tab.set h.uc f.val u }

/-- Count stored bytes moved at the memory sites that hold them (MS_BYTES_RD or MS_BYTES_WR by the LO register's offset). -/
def Hw.siteBytes (h : Hw) (off : Nat) (phys : List Nat) : Hw :=
  let sites := ((phys.filter fun q => daRegion q = 1).map siteOf).eraseDups
  sites.foldl (fun h i =>
    if hi : i < 96 then
      let k := sitePage ⟨i, hi⟩ + off
      h.setReg64 k (h.reg64 k + phys.countP fun q => daRegion q = 1 && siteOf q = i)
    else h) h

/-- The bytes of a write that lie in one arrival range: how many, and whether one of them is 0xFF. -/
def ArrRange.hits (x : ArrRange) (ps : List (Nat × Byte)) : Nat × Bool :=
  let inr := ps.filter fun p => decide (x.da % 2 ^ 56 ≤ p.1) && decide (p.1 < x.da % 2 ^ 56 + x.len)
  (inr.length, inr.any fun p => p.2 = 0xFF)

/-- The arrival logic of a field's update complex counts a write (R246, R247). -/
def Hw.arrivals (h : Hw) (f : Field) (ps : List (Nat × Byte)) : Hw :=
  let u := h.ucAt f
  let hit := u.ranges.map fun x => x.hits ps
  if hit.all fun p => p.1 = 0 then h
  else
    let h := h.setUc f { u with ranges := u.ranges.zipWith (fun x p => { x with count := x.count + p.1 }) hit }
    match (List.range u.ranges.length).find? fun i => (match u.ranges[i]? with | some x => x.kind = 1 | none => false) && (hit.getD i (0, false)).2 with
    | some i =>
      let pg := pgUpdate f
      let h := (h.setBit (pg + Reg.ucomplex.ucStatus) 2 true).raise pg 9
      if h.bit (pg + Reg.ucomplex.ucFirstNf) 31 then h else h.setRegN (pg + Reg.ucomplex.ucFirstNf) (i + 1 <<< 31)
    | none => h

/-- Store bytes from a device address up: memory, arrival ranges, byte counters. -/
def State.put (s : State) (a : Nat) (bytes : List Byte) : State :=
  let ps := (List.range bytes.length).filterMap fun i => (physAddr (a + i)).map fun q => (q, bytes.getD i 0)
  let fs := ((ps.filter fun p => daRegion p.1 = 1).map fun p => siteOf p.1 / 2).eraseDups
  { s with
    mem := memPut s.mem a bytes
    hw := fs.foldl (fun h f => if hf : f < 48 then h.arrivals ⟨f, hf⟩ ps else h) (s.hw.siteBytes Reg.msite.msBytesWrLo (ps.map (·.1))) }
/-- Store bytes on behalf of a writer of a field, counted in the numeric watch (R145). -/
def State.store (s : State) (writer : Option Nat) (fld a : Nat) (bytes : List Byte) (info : Nat → WriteInfo) : State :=
  (s.onHw fun h => h.watchWrite writer fld a bytes info).put a bytes

/-- Read bytes from a device address up, counting them at their sites. -/
def Hw.countRead (h : Hw) (a n : Nat) : Hw :=
  h.siteBytes Reg.msite.msBytesRdLo ((List.range n).filterMap fun i => physAddr (a + i))

/-- The stretch of address space without a hole that a device address lies in: a ring, a site, or a unit (R186, R410). -/
def addrRun (a : Nat) : Nat := if daRegion a = 0 then a >>> 41 else if daRegion a = 1 then a >>> 36 else a >>> 33
/-- Every byte of an address range is populated. -/
def populated (a n : Nat) : Bool :=
  n = 0 || ((physAddr a).isSome && (physAddr (a + n - 1)).isSome && addrRun a = addrRun (a + n - 1))
/-- The field of a physical byte lies in a paddock. -/
def Hw.byteInPaddock (h : Hw) (n : Paddock) (q : Nat) : Bool :=
  if hf : fieldOfPhys q < 48 then h.paddockOfField ⟨fieldOfPhys q, hf⟩ = some n else false
/-- Every byte of a range is populated and lies in a paddock's T0 and T1 (R22): a run without a hole lies in one ring. -/
def Hw.rangeInPaddock (h : Hw) (n : Paddock) (a len : Nat) : Bool :=
  len = 0 || (populated a len && (match physAddr a with | some q => h.byteInPaddock n q | none => false))

end Sys2Proof.Machine
end

