-- ==== Sys2Proof/Machine/Mesh.lean ====
section
/-! DEFINITION. The mesh (R153 to R183): flits, links with credits and replay, routing, fences, responses; router tables and commands. -/
namespace Sys2Proof

/-- Number of a router (0 to 287 by cluster) or hub (288 + field). -/
def RtrLoc.idx : RtrLoc → Nat
  | .cluster cl => cl.idx
  | .hub f => 288 + f.val
/-- The port of an endpoint's units: CORE of a router, field services of a hub (R153, R154). -/
def RtrLoc.localPort : RtrLoc → Nat
  | .cluster _ => 4
  | .hub _ => 6
/-- The other plane. -/
def Plane.other : Plane → Plane
  | .a => .b
  | .b => .a
/-- 0 for plane A, 1 for plane B. -/
def Plane.num : Plane → Nat
  | .a => 0
  | .b => 1
/-- Mesh coordinates of a cluster's router (R153). -/
def ClLoc.xy (l : ClLoc) : Nat × Nat := (l.f.val % 8 * 2 + l.c.val % 2, l.f.val / 8 * 3 + l.c.val / 2)
/-- Router index 16Y + X (R153). -/
def ClLoc.routerIdx (l : ClLoc) : Nat := 16 * l.xy.2 + l.xy.1
/-- The cluster at mesh coordinates (R153). -/
def clusterAt (x y : Nat) : Option ClLoc :=
  if h : x < 16 ∧ y < 18 then
    some ⟨⟨y / 3 * 8 + x / 2, by omega⟩, ⟨y % 3 * 2 + x % 2, by omega⟩⟩
  else none

open Machine

/-- Field of a flit's sideband (R159). -/
def Flit.f (k : Flit) (lo len : Nat) : Nat := bitsOf k.side.toNat lo len
/-- The flit with a sideband field set. -/
def Flit.put (k : Flit) (lo len v : Nat) : Flit := { k with side := BitVec.ofNat 128 (withBits k.side.toNat lo len v) }
/-- KIND. -/
def Flit.kind (k : Flit) : Nat := k.f 35 4
/-- LAST. -/
def Flit.last (k : Flit) : Bool := k.f 39 1 = 1
/-- The 256 payload bytes. -/
def Flit.data (k : Flit) : List Byte := sliceD k.payload 0 256 0
/-- The valid payload bytes. -/
def Flit.valid (k : Flit) : List Byte := k.data.take (k.f 104 8 + 1)
/-- DST_FIELD, DST_CLUSTER and DST_UNIT as one number: field + cluster × 2^6 + unit × 2^9. -/
def Flit.dst (k : Flit) : Nat := k.f 40 13
/-- SRC likewise. -/
def Flit.src (k : Flit) : Nat := k.f 53 13
/-- SRC_TAG. -/
def Flit.tag (k : Flit) : Nat := k.f 66 6
/-- DST_OFFSET. -/
def Flit.off (k : Flit) : Nat := k.f 72 32
/-- RID of a RED or CRED flit. -/
def Flit.rid (k : Flit) : Nat := k.f 72 10
/-- An endpoint's number. -/
def epNum (f c u : Nat) : Nat := f + c <<< 6 + u <<< 9
/-- The flit with its CRC-16 (R160). -/
def Flit.sealed (k : Flit) : Flit := k.put 112 16 (flitCrc k.side.toNat k.data)
/-- Both CRCs are right (R160). -/
def Flit.crcOk (k : Flit) : Bool := k.f 112 16 = flitCrc k.side.toNat k.data && k.f 27 8 = hopCrc k.side.toNat
/-- A flit with its end-to-end fields (R159): the payload holds n valid bytes. -/
def mkFlit (kind : Nat) (last : Bool) (dst src tag off : Nat) (bytes : List Byte) : Flit :=
  Flit.sealed { side := BitVec.ofNat 128 (kind <<< 35 + (b2n last) <<< 39 + (dst % 2 ^ 13) <<< 40 + (src % 2 ^ 13) <<< 53 + (tag % 64) <<< 66 +
                  (off % 2 ^ 32) <<< 72 + ((bytes.length - 1) % 256) <<< 104)
                payload := sliceD bytes 0 256 0 }

namespace Machine

/-- A router's or hub's state. -/
def Hw.rtrAt (h : Hw) (r : RtrLoc) : RouterState := Tab.get h.rtr r.idx RouterState.empty
/-- Set a router's or hub's state. -/
def Hw.setRtr (h : Hw) (r : RtrLoc) (x : RouterState) : Hw := { h with rtr := Tab.set h.rtr r.idx x }
/-- Key of a port and plane. -/
def linkKey (port : Nat) (v : Plane) : Nat := 2 * port + v.num
/-- One plane of one port. -/
def Hw.link (h : Hw) (r : RtrLoc) (port : Nat) (v : Plane) : LinkState := Tab.get (h.rtrAt r).links (linkKey port v) LinkState.empty
/-- Set one plane of one port. -/
def Hw.setLink (h : Hw) (r : RtrLoc) (port : Nat) (v : Plane) (x : LinkState) : Hw :=
  h.setRtr r { h.rtrAt r with links := Tab.set (h.rtrAt r).links (linkKey port v) x }

/-- The neighbour over a port, with the port it receives on; none at the wafer edge and at the local port (R153, R154). -/
def neighbour (r : RtrLoc) (port : Nat) : Option (RtrLoc × Nat) :=
  match r with
  | .hub f => if hp : port < 6 then some (.cluster ⟨f, ⟨port, hp⟩⟩, 5) else none
  | .cluster l =>
    let (x, y) := l.xy
    match port with
    | 0 => (clusterAt x (y + 1)).map fun c => (.cluster c, 2)
    | 1 => (clusterAt (x + 1) y).map fun c => (.cluster c, 3)
    | 2 => if y = 0 then none else (clusterAt x (y - 1)).map fun c => (.cluster c, 0)
    | 3 => if x = 0 then none else (clusterAt (x - 1) y).map fun c => (.cluster c, 1)
    | 5 => some (.hub l.f, l.c.val)
    | _ => none

/-- The link-state register of a plane. -/
def linkReg (v : Plane) : Nat := match v with | .a => Reg.router.rtrLinkStateA | .b => Reg.router.rtrLinkStateB
/-- State code of a plane of a port. -/
def Hw.linkState (h : Hw) (r : RtrLoc) (port : Nat) (v : Plane) : Nat := h.fld (r.page + linkReg v) (3 * port) 3
/-- Set the state code of a plane of a port. -/
def Hw.setLinkState (h : Hw) (r : RtrLoc) (port : Nat) (v : Plane) (st : Nat) : Hw := h.setFld (r.page + linkReg v) (3 * port) 3 st
/-- A plane grants new flits: UP or DEGRADED (R163). -/
def linkUp (st : Nat) : Bool := st = 2 || st = 3
/-- A router takes part in forwarding: it is not EXCLUDED (R183). -/
def Hw.rtrUp (h : Hw) (r : RtrLoc) : Bool := h.blkState r.page ≠ 3

/-- The plane and virtual channel of a KIND (R155, R159). -/
def kindClass (kind : Nat) : Plane × Nat :=
  match kind with
  | 1 | 2 | 3 | 4 | 5 => (.a, 0)
  | 6 | 7 => (.b, 2)
  | 9 | 10 => (.b, 3)
  | _ => (.a, 3)
/-- A CTRL flit (R155). -/
def isCtrl (vc : Nat) : Bool := vc = 3 || vc = 4

/-- The stream slot of a router bound to an identifier of a kind (0 chain, 1 RED, 2 CRED), if VALID (R171). -/
def RouterState.slotOf (x : RouterState) (kind id : Nat) : Option Nat :=
  (x.slots.find? fun p => wbit p.2.1 0 && wbits p.2.1 1 2 = kind && (if kind = 0 then wbits p.2.1 3 8 = id else wbits p.2.1 3 10 = id)).map (·.1)
/-- The slot a flit belongs to at a router. -/
def RouterState.flitSlot (x : RouterState) (k : Flit) : Option Nat :=
  match k.kind with
  | 5 => x.slotOf 0 (k.f 80 8)
  | 6 | 7 => x.slotOf 1 k.rid
  | 9 | 10 => x.slotOf 2 k.rid
  | _ => none
/-- A flit's credit target: its stream slot, or its VC (R159, R161). -/
def creditTarget (x : RouterState) (k : Flit) : Nat :=
  match x.flitSlot k with
  | some i => 16 + i
  | none => k.f 0 3

/-- Freed buffers are counted for the neighbour that sends into them, which learns of them (R161). -/
def Hw.freeCredit (h : Hw) (r : RtrLoc) (o : Option (Nat × Plane × Nat)) : Hw :=
  match o with
  | none => h
  | some (port, v, t) =>
    let l := h.link r port v
    h.setLink r port v { l with freed := Tab.set l.freed t ((Tab.get l.freed t 0 + 1) % 64) }

/-- Flits are granted on an output while credits last and fewer than 31 are unacknowledged; the neighbour acknowledges what it accepts (R156, R161, R162). -/
def pump (h : Hw) (r : RtrLoc) (port : Nat) (v : Plane) : Nat → Hw
  | 0 => h
  | fuel + 1 =>
    let l := h.link r port v
    match l.outq with
    | [] => h
    | w :: rest =>
      let t := creditTarget (h.rtrAt r) w.flit
      let inFlight := (Tab.get l.sent t 0 + 64 - Tab.get l.cred t 0) % 64
      if inFlight ≥ 16 ∨ l.replay.length ≥ 31 ∨ !linkUp (h.linkState r port v) then h
      else
        let back := h.link r port v
        let k := ((((w.flit.put 3 6 l.txSeq).put 9 6 back.rxSeq).put 15 1 0).put 16 5 31).put 21 6 0
        let k := k.put 27 8 (hopCrc k.side.toNat)
        let h := h.setLink r port v { l with outq := rest, txSeq := (l.txSeq + 1) % 64, replay := l.replay ++ [k],
                                             sent := Tab.set l.sent t ((Tab.get l.sent t 0 + 1) % 64) }
        let h := match neighbour r port with | some (n, q) => h.emit (.flit n q v k) | none => h
        pump (h.freeCredit r w.origin) r port v fuel

/-- A flit joins an output: CTRL ahead of the others, each class in arrival order (R156). -/
def Hw.enqueue (h : Hw) (r : RtrLoc) (port : Nat) (v : Plane) (w : Waiting) : Hw :=
  let l := h.link r port v
  let q := if isCtrl (w.flit.f 0 3) then
      l.outq.takeWhile (fun x => isCtrl (x.flit.f 0 3)) ++ [w] ++ l.outq.dropWhile (fun x => isCtrl (x.flit.f 0 3))
    else l.outq ++ [w]
  pump (h.setLink r port v { l with outq := q }) r port v (q.length + 1)

/-- The plane a class uses at an output: its own while it is granted there, else the other plane of the link (R181, R182); none with no in-service output. -/
def Hw.usePlane (h : Hw) (r : RtrLoc) (port : Nat) (v : Plane) : Option Plane :=
  if linkUp (h.linkState r port v) then some v
  else if linkUp (h.linkState r port v.other) && h.linkState r port v ≠ 0 then some v.other
  else none

/-- Distance from mesh coordinates to the nearest router of a field, and that router (R164). -/
def nearestIn (x y f : Nat) : Nat × Nat × Nat :=
  let x0 := f % 8 * 2
  let y0 := f / 8 * 3
  let dx := max x0 (min x (x0 + 1))
  let dy := max y0 (min y (y0 + 2))
  ((x - dx) + (dx - x) + (y - dy) + (dy - y), dx, dy)
/-- The field that serves field codes 0x3E and 0x3F from a place: the nearest of 19, 20, 27 and 28 (R164). -/
def ringmasterField (x y : Nat) : Nat :=
  [20, 27, 28].foldl (fun v f => if (nearestIn x y f).1 < (nearestIn x y v).1 then f else v) 19
/-- Where a flit at mesh coordinates is bound: the destination router's coordinates, and whether it then goes to the hub. -/
def destXY (x y : Nat) (k : Flit) : Nat × Nat × Bool :=
  let f := k.f 40 6
  let c := k.f 46 3
  if f < 48 ∧ c < 6 then (f % 8 * 2 + c % 2, f / 8 * 3 + c / 2, false)
  else
    let f := if f < 48 then f else ringmasterField x y
    let (_, dx, dy) := nearestIn x y f
    (dx, dy, true)

/-- The output of a flit at a node: a port, by the tables and then X before Y (R164, R165, R166). -/
def Hw.route (h : Hw) (r : RtrLoc) (k : Flit) (escape : Bool) : Option Nat :=
  match r with
  | .cluster l =>
    let (x, y) := l.xy
    let (dx, dy, hub) := destXY x y k
    if dx = x ∧ dy = y then some (if hub then 5 else 4)
    else
      let st := h.rtrAt r
      let e := Tab.get (if escape then st.escape else st.override) (16 * dy + dx) 0
      if bitOf e 3 then some (e % 8)
      else if escape then none
      else some (if x < dx then 1 else if dx < x then 3 else if y < dy then 0 else 2)
  | .hub f =>
    let df := k.f 40 6
    let c := k.f 46 3
    if (df = f.val ∧ c ≥ 6) ∨ (df ≥ 48 ∧ (f.val = 19 ∨ f.val = 20 ∨ f.val = 27 ∨ f.val = 28)) then some 6
    else
      let dist : Fin 6 → Nat := fun i =>
        let (x, y) := (ClLoc.mk f i).xy
        let (dx, dy, _) := destXY x y k
        (x - dx) + (dx - x) + (y - dy) + (dy - y)
      let cands := (List.finRange 6).filter fun i => h.rtrUp (.cluster ⟨f, i⟩)
      match cands with
      | [] => none
      | c0 :: cs => some (cs.foldl (fun v i => if dist i < dist v then i else v) c0).val

/-- Hand a flit to a node from one of its endpoints (CORE, or hub port 6). -/
def Hw.inject (h : Hw) (r : RtrLoc) (k : Flit) : Hw := h.emit (.flit r r.localPort (kindClass k.kind).1 (k.put 0 3 (kindClass k.kind).2))
/-- The node of an endpoint: its cluster's router, or its field's hub; the Ringmaster and module-global codes attach at the tick root's field 19. -/
def epNode (ep : Nat) : RtrLoc :=
  let f : Field := ⟨(if ep % 64 < 48 then ep % 64 else 19) % 48, Nat.mod_lt _ (by decide)⟩
  if hc : bitsOf ep 6 3 < 6 ∧ ep % 64 < 48 then .cluster ⟨f, ⟨bitsOf ep 6 3, hc.1⟩⟩ else .hub f

/-- A RESP flit with its count, status and tag (R167); off names the request it answers. -/
def respFlit (ep src tag status count off : Nat) : Flit :=
  mkFlit 4 true src ep tag off (leBytes 4 count ++ leBytes 1 status ++ leBytes 1 tag)
/-- Account flits to a source and tag: counts of one status gather until 16, or a flit with LAST (R167). -/
def Hw.account (h : Hw) (ep src tag status n : Nat) (last : Bool) : Hw :=
  let same := fun (x : RespAcc) => x.ep = ep && x.src = src && x.tag = tag && x.status = status
  let old := ((h.resp.find? same).map (·.count)).getD 0
  let others := h.resp.filter fun x => !same x
  if last || decide (old + n ≥ 16) then
    ({ h with resp := others } : Hw).inject (epNode ep) (respFlit ep src tag status (old + n) 0)
  else { h with resp := others ++ [⟨ep, src, tag, status, old + n⟩] }

/-- The flits a READ_REQ would be answered with: 256 bytes each (R167). The request's payload holds the source offset in bytes 0–7, the length in 8–11 and the return offset in 12–15 (notes/assumptions/8.md). -/
def readFlits (k : Flit) : Nat := (leAt k.data 8 4 + 255) / 256
/-- The DST_OFFSET by which a RESP to a READ_REQ names it: its return offset, marked (notes/assumptions/10.md). -/
def readMark (ret : Nat) : Nat := 2 ^ 31 + ret % 2 ^ 31
/-- A token's sender hears that it was FENCED (R37). -/
def Hw.tokenFenced (h : Hw) (src : Nat) : Hw :=
  if hs : src % 64 < 48 ∧ bitsOf src 6 3 < 6 then h.count ((ClLoc.mk ⟨src % 64, hs.1⟩ ⟨bitsOf src 6 3, hs.2⟩).page + Reg.score.tokenEvents) 16 16 1 else h
/-- A flit is discarded with a status: what it is decides how it is accounted (R167, R169). -/
def Hw.discard (h : Hw) (r : RtrLoc) (k : Flit) (status : Nat) : Hw :=
  let pg := r.page
  let ep := k.dst
  let h := if status = 1 then (h.count (pg + Reg.router.rtrFencedRet) 0 32 1).raise pg 13
    else if status = 2 then h.count (pg + Reg.router.rtrDiscard) 0 16 1
    else if status = 3 then h.raise pg 15
    else h
  match k.kind with
  | 1 | 5 => h.account ep k.src k.tag status 1 k.last
  | 2 => h.inject r (respFlit ep k.src k.tag status (readFlits k) (readMark (leAt k.data 12 4)))
  | 0xB => if status = 1 then h.tokenFenced k.src else h
  | 4 => if status = 1 then h.count (pg + Reg.router.rtrDiscard) 16 16 1 else h
  | _ => h

/-- A flit goes on toward its destination, or is accounted LINK_DOWN where no output is in service (R164, R167). -/
def Hw.forward (h : Hw) (r : RtrLoc) (k : Flit) (origin : Option (Nat × Plane × Nat)) (escape : Bool) : Hw :=
  let v := (kindClass k.kind).1
  match h.route r k escape with
  | none => h.discard r k 2
  | some port =>
    match h.usePlane r port v with
    | some v => h.enqueue r port v ⟨k, origin⟩
    | none => (h.discard r k 2).freeCredit r origin
/-- Send a flit out of a given port. -/
def Hw.sendPort (h : Hw) (r : RtrLoc) (k : Flit) (port : Nat) (origin : Option (Nat × Plane × Nat)) : Hw :=
  if port = r.localPort then h
  else match h.usePlane r port (kindClass k.kind).1 with
    | some v => h.enqueue r port v ⟨k, origin⟩
    | none => (h.discard r k 2).freeCredit r origin

/-- A plane's errors within 1 ms, or repeats of one SEQ, reach RTR_DEGRADE_THRESH (R163). -/
def Hw.degradeDue (h : Hw) (r : RtrLoc) (port : Nat) (v : Plane) : Bool :=
  let l := h.link r port v
  decide (l.winErr ≥ h.fld (r.page + Reg.router.rtrDegradeThresh) 0 16) || decide (l.repCount ≥ h.fld (r.page + Reg.router.rtrDegradeThresh) 16 8)
/-- A failed flit: counted; the neighbour is told to send again from the first not accepted (R162, R163). -/
def Hw.hopFail (h : Hw) (r : RtrLoc) (port : Nat) (v : Plane) : Hw :=
  let l := h.link r port v
  let fresh := decide (h.clk.now ≥ l.winStart + 1000000)
  let h := h.setLink r port v { l with rxDropping := true, crcErr := satAdd 32 l.crcErr 1, winStart := if fresh then h.clk.now else l.winStart,
                                       winErr := if fresh then 1 else l.winErr + 1 }
  match neighbour r port with
  | none => h
  | some (n, q) =>
    let o := h.link n q v
    let seq := (l.rxSeq + 1) % 64
    let todo := o.replay.filter fun k => (k.f 3 6 + 64 - seq) % 64 < 32
    let h := h.setLink n q v { o with replays := satAdd 32 o.replays todo.length, replay := todo, repSeq := seq,
                                      repCount := if o.repSeq = seq then o.repCount + 1 else 1 }
    todo.foldl (fun h k => h.emit (.flit r port v k)) h

/-- A flit at a port: one from a link must pass both CRCs and come in order, else it is discarded and replayed (R160, R162). The second part says whether it was accepted. -/
def Hw.hopIn (h : Hw) (r : RtrLoc) (port : Nat) (k : Flit) : Hw × Bool :=
  if port = r.localPort then (h, true)
  else
    let v := (kindClass k.kind).1
    let l := h.link r port v
    if !k.crcOk then (h.hopFail r port v, false)
    else if k.f 3 6 ≠ (l.rxSeq + 1) % 64 then (h, false)
    else
      let h := h.setLink r port v { l with rxSeq := k.f 3 6, rxDropping := false }
      let h := match neighbour r port with
        | some (n, q) =>
          let o := h.link n q v
          pump (h.setLink n q v { o with replay := o.replay.filter fun x => (k.f 3 6 + 64 - x.f 3 6) % 64 ≥ 32 }) n q v (o.outq.length + 1)
        | none => h
      (h, true)

/-- A unit exists at an endpoint (R153, R154). -/
def unitExists (ep : Nat) : Bool :=
  let f := ep % 64
  let c := bitsOf ep 6 3
  let u := bitsOf ep 9 4
  if f ≥ 48 then true else if c < 6 then decide (u ≤ 8) else c = 6 && (decide (u ≤ 6) || u = 15) && (u ≠ 4 || f = 19 || f = 28)
/-- Gait in force on a cluster (R373). -/
def Hw.clusterGait (h : Hw) (l : ClLoc) : Nat := h.fld (pgFieldPower l.f + Reg.fieldPower.ptClusterGait) (3 * l.c.val) 3
/-- The destination unit is at REST: its cluster's CORE rail is off (R167, R373). -/
def Hw.unitAtRest (h : Hw) (r : RtrLoc) : Bool :=
  match r with
  | .cluster l => h.clusterGait l = 4
  | .hub f => !h.inService f.val
/-- A unit is fenced in its router's or hub's mask (R169). -/
def Hw.unitFenced (h : Hw) (r : RtrLoc) (u : Nat) : Bool :=
  h.bit (r.page + Reg.router.rtrFenceMask) u || h.bit (r.page + Reg.router.rtrFenceMask) 16
/-- The source's paddock, as its router records it; none for field services, the Ringmaster and module-global sources (R170). -/
def Hw.sourcePaddock (h : Hw) (src : Nat) : Option (Option Paddock) :=
  if hs : src % 64 < 48 ∧ bitsOf src 6 3 < 6 then
    let l : ClLoc := ⟨⟨src % 64, hs.1⟩, ⟨bitsOf src 6 3, hs.2⟩⟩
    some (if h.l2pValid l then some ⟨h.fld (l.page + Reg.score.l2pCluster) 12 2 % 4, Nat.mod_lt _ (by decide)⟩ else none)
  else none
/-- A delivery to a cluster endpoint from another paddock is refused (R170). -/
def Hw.isolated (h : Hw) (r : RtrLoc) (k : Flit) : Bool :=
  match r, h.sourcePaddock k.src with
  | .cluster l, some p => p ≠ (if h.l2pValid l then some ⟨h.fld (l.page + Reg.score.l2pCluster) 12 2 % 4, Nat.mod_lt _ (by decide)⟩ else none)
  | _, _ => false

/-- Why a flit may not be delivered at its destination node: fenced, isolated, absent (R167, R169, R170); the Farrier's fences and register access always are. -/
def Hw.refusal (h : Hw) (r : RtrLoc) (k : Flit) : Option Nat :=
  if k.kind ≥ 0xC then none
  else if h.unitFenced r (k.f 49 4) then some 1
  else if h.isolated r k then some 3
  else if !unitExists k.dst || h.unitAtRest r then some 4
  else none

/-- An end-to-end flit arrives: hop checks, then forwarding, or delivery by `local` at its destination node. -/
def flitArrive (s : State) (r : RtrLoc) (q : Nat) (k : Flit) (kind : Nat) (localAt : State → State) : State :=
  if k.kind ≠ kind || !s.hw.rtrUp r then s
  else
    let (h, ok) := s.hw.hopIn r q k
    let s := { s with hw := h }
    if !ok then s
    else
      let v := (kindClass kind).1
      let origin := if q = r.localPort then none else some (q, v, creditTarget (h.rtrAt r) k)
      let esc := k.f 0 3 = 1 || k.f 0 3 = 4
      if h.route r k esc = some r.localPort then
        let s := s.onHw fun h => h.freeCredit r origin
        (match s.hw.refusal r k with
         | some st => s.onHw fun h => h.discard r k st
         | none => localAt s)
      else s.onHw fun h => h.forward r k origin esc

/-- The device address a WRITE or READ names at its destination: T0 of a unit, or T1 of a site (R154, R411); none for other endpoints. -/
def flitAddr (ep off : Nat) : Option Nat :=
  let f := ep % 64
  let c := bitsOf ep 6 3
  let u := bitsOf ep 9 4
  if f ≥ 48 then none
  else if c = 6 ∧ (u = 1 ∨ u = 2) then some (siteAddr (2 * f + u - 1) off)
  else if off < t0Bytes c u then some (t0Addr f c u off)
  else none

/-- The ports a node sends a TICK on: as the Farrier has set them, else along X, then along Y, and to each hub from its field's cluster 0 (R157, R158). -/
def Hw.tickPorts (h : Hw) (r : RtrLoc) (q : Nat) : List Nat :=
  if (h.rtrAt r).tickOut ≠ [] then (h.rtrAt r).tickOut
  else match r with
    | .hub _ => if q = 6 then [0] else []
    | .cluster l =>
      let on := if q = 1 then [3, 0, 2] else if q = 3 then [1, 0, 2] else if q = 0 then [2] else if q = 2 then [0] else [0, 1, 2, 3]
      (if l.c = 0 ∧ q ≠ 5 then 5 :: on else on).filter fun p => (neighbour r p).isSome

/-- Router commands 0x10 to 0x14 come only from the Ringmaster (R183). -/
def rtrMay (s : State) (p : Path) (pg code : Nat) : Bool := if code ≥ 0x10 then p = .rm else s.hw.mayCommand p pg none
/-- The port and plane RTR_PORT_SEL names. -/
def Hw.selPort (h : Hw) (r : RtrLoc) : Nat × Plane :=
  (h.fld (r.page + Reg.router.rtrPortSel) 0 3, if h.bit (r.page + Reg.router.rtrPortSel) 3 then .b else .a)
/-- A router command on the selected plane, legal while its condition holds; a fenced cluster's router still takes it (R183). -/
def rtrCmd (p : Path) (r : RtrLoc) (code : Nat) (legal : Hw → Nat → Plane → Bool) (f : Hw → Nat → Plane → Hw) (s : State) : State :=
  let pg := r.page
  let (port, v) := s.hw.selPort r
  if s.hw.deadFor p pg then s
  else if !rtrMay s p pg code then s.onHw fun h => (h.denied p).cmdResult p pg code .badArg
  else if legal s.hw port v then s.onHw fun h => (f h port v).cmdResult p pg code .ok
  else s.onHw fun h => (h.cmdResult p pg code .illegal).raise pg 0

/-- RTR_CLEAR_COUNTERS: of every port and plane, and the page's own (R183). -/
def execRtrClearCounters (p : Path) (r : RtrLoc) (s : State) : Res :=
  .next (rtrCmd p r 0x01 (fun h _ _ => h.blkState r.page = 2) (fun h _ _ =>
    let x := h.rtrAt r
    (h.setRtr r { x with links := x.links.map fun (k, l) => (k, { l with crcErr := 0, replays := 0 }) }).clearRegs r.page
      [Reg.router.rtrEscCount, Reg.router.rtrFencedRet, Reg.router.rtrDiscard, Reg.router.rtrCtrlWaitMax, Reg.router.rtrAifOvf, Reg.router.rtrChainTail]) s)

/-- Both ends of a link plane. -/
def Hw.bothEnds (h : Hw) (r : RtrLoc) (port : Nat) (f : Hw → RtrLoc → Nat → Hw) : Hw :=
  match neighbour r port with
  | some (n, q) => f (f h r port) n q
  | none => f h r port

/-- DRAIN_LINK: the plane's classes move to the other plane; the plane keeps its state until its replay buffers are acknowledged (R181). -/
def execDrainLink (p : Path) (r : RtrLoc) (s : State) : Res :=
  .next (rtrCmd p r 0x10 (fun h port v => linkUp (h.linkState r port v) && linkUp (h.linkState r port v.other)) (fun h port v =>
    h.bothEnds r port fun h n q =>
      let l := h.link n q v
      let h := h.setLink n q v { l with outq := [], test := 2 ^ 31 }
      l.outq.foldl (fun h w => h.enqueue n q v.other w) h) s)

/-- DRAIN_DONE: once every replay buffer of the plane is acknowledged it enters DRAINED (R181). -/
def execDrainDone (r : RtrLoc) (q : Fin 7) (v : Plane) (s : State) : Res :=
  .next (s.onHw fun h =>
    let quiet := fun (n : RtrLoc) (p : Nat) => (h.link n p v).replay.isEmpty
    let all := quiet r q.val && (match neighbour r q.val with | some (n, p) => quiet n p | none => true)
    if bitOf (h.link r q.val v).test 31 && all then
      h.bothEnds r q.val fun h n p => (h.setLink n p v { h.link n p v with test := 0 }).setLinkState n p v 4
    else h)

/-- LANE_TEST: the drained plane drives PRBS-31 on every lane (R181). -/
def execLaneTest (p : Path) (r : RtrLoc) (s : State) : Res :=
  .next (rtrCmd p r 0x11 (fun h port v => h.linkState r port v = 4) (fun h port v =>
    (h.setLinkState r port v 5).setLink r port v { h.link r port v with test := 0, failing := [] }) s)

/-- The fused lane map: which lane a group bypasses from test, 31 for none; fixed per module and open in the manual. -/
def fusedLane (r : RtrLoc) (port : Nat) (v : Plane) (group : Nat) : Nat :=
  (Config.fusedLane (BitVec.ofNat 32 (((r.idx * 8 + port) * 2 + v.num) * 128 + group))).toNat
/-- A group's spare is in use by the fused map or a soft entry (R180). -/
def Hw.spareUsed (h : Hw) (r : RtrLoc) (port : Nat) (v : Plane) (group : Nat) : Bool :=
  fusedLane r port v group ≠ 31 || (Tab.find (h.link r port v).soft group).isSome

/-- LANE_TEST_DONE: k lists (group, failing lane) as received; PASS with none, UNREPAIRABLE with two in a group or a failing lane whose group's spare is used (R181). -/
def execLaneTestDone (r : RtrLoc) (q : Fin 7) (v : Plane) (k : List (Nat × Nat)) (s : State) : Res :=
  .next (s.onHw fun h =>
    if h.linkState r q.val v ≠ 5 then h
    else
      let groups := (k.map (·.1)).eraseDups
      let bad := groups.any fun g => decide ((k.filter fun x => x.1 = g).eraseDups.length ≥ 2) || h.spareUsed r q.val v g
      let t := 1 + 2 * b2n k.isEmpty + 4 * b2n bad + groups.length <<< 8
      let h := ((h.setLink r q.val v { h.link r q.val v with test := t, failing := k }).setLinkState r q.val v 4).raise r.page 14
      if bad then h.classify (planeUnit r.page q.val v.num) true else h)

/-- APPLY_LANE_MAP: soft entries for the failing lanes; the plane retrains and stays drained (R181). -/
def execApplyLaneMap (p : Path) (r : RtrLoc) (s : State) : Res :=
  .next (rtrCmd p r 0x12 (fun h port v => h.linkState r port v = 4 && !bitOf (h.link r port v).test 1 && !bitOf (h.link r port v).test 2)
    (fun h port v =>
      let l := h.link r port v
      let soft := l.failing.foldl (fun t x => Tab.set t x.1 x.2) l.soft
      let h := { h with flash := { h.flash with softLane := Tab.set h.flash.softLane (16 * r.idx + linkKey port v) soft } }
      (h.setLink r port v { l with soft := soft, failing := [] }).atLeast (h.clk.now + 2276)) s)

/-- RELEASE_LINK: the plane is UP again and takes back its classes (R181). -/
def execReleaseLink (p : Path) (r : RtrLoc) (s : State) : Res :=
  .next (rtrCmd p r 0x13 (fun h port v => h.linkState r port v = 4) (fun h port v =>
    h.bothEnds r port fun h n q => pump (h.setLinkState n q v 2) n q v ((h.link n q v).outq.length + 1)) s)

/-- EXCLUDE_LINK: the plane is out of service until the module restarts; its classes move over (R182). -/
def execExcludeLink (p : Path) (r : RtrLoc) (s : State) : Res :=
  .next (rtrCmd p r 0x14 (fun h port v => h.linkState r port v ≠ 7) (fun h port v =>
    let h := h.setGlb 1 true
    h.bothEnds r port fun h n q =>
      let l := h.link n q v
      let h := (h.setLink n q v { l with outq := [] }).setLinkState n q v 6
      l.outq.foldl (fun h w => (h.forward n w.flit w.origin false)) h) s)

/-- CREDIT_REFRESH: the sender into a port learns the count of buffers freed for one target, and sends what it may (R161). -/
def execCreditRefresh (r : RtrLoc) (q : Fin 7) (v : Plane) (t : Fin 32) (s : State) : Res :=
  .next (s.onHw fun h =>
    match neighbour r q.val with
    | some (n, p) =>
      let o := h.link n p v
      let h := h.setLink n p v { o with cred := Tab.set o.cred t.val (Tab.get (h.link r q.val v).freed t.val 0) }
      pump h n p v (o.outq.length + 1)
    | none => h)

/-- ESCAPE_MOVE: a flit waiting for an output moves to the escape channel and follows the escape table (R166). -/
def execEscapeMove (r : RtrLoc) (q : Fin 7) (k : Flit) (s : State) : Res :=
  .next (s.onHw fun h =>
    let vc := k.f 0 3
    if vc ≠ 0 ∧ vc ≠ 3 ∨ k.kind = 5 ∨ k.kind = 9 ∨ k.kind = 10 then h
    else
      let v := (kindClass k.kind).1
      let l := h.link r q.val v
      match l.outq.find? fun w => w.flit = k with
      | some w =>
        let h := h.setLink r q.val v { l with outq := l.outq.erase w }
        let h := (h.count (r.page + Reg.router.rtrEscCount) 0 32 1).raise r.page 10
        h.forward r (k.put 0 3 (if vc = 0 then 1 else 4)) w.origin true
      | none => h)

/-- LINK_DEGRADE: the plane enters DEGRADED once a threshold is reached (R163). -/
def execLinkDegrade (r : RtrLoc) (q : Fin 7) (v : Plane) (s : State) : Res :=
  .next (s.onHw fun h =>
    if h.linkState r q.val v = 2 && h.degradeDue r q.val v then (h.setLinkState r q.val v 3).raise r.page 9 else h)

/-- LINK_DOWN_DETECT: no valid flit for 1,800 cycles, or the clock lost: the link is DOWN on both planes, and the Ringmaster is told (R163, R182). -/
def execLinkDownDetect (r : RtrLoc) (q : Fin 7) (s : State) : Res :=
  .next (s.onHw fun h =>
    if (neighbour r q.val).isNone then h
    else
      let drop := fun (h : Hw) (v : Plane) =>
        let l := h.link r q.val v
        let h := (h.setLink r q.val v { l with outq := [], replay := [] }).setLinkState r q.val v 0
        l.outq.foldl (fun h w => h.forward r w.flit w.origin false) h
      let h := ((drop (drop h .a) .b).raise r.page 8).classify (planeUnit r.page q.val 0) true
      h.inject r (mkFlit 0xD true (epNum 0x3E 0 0) (epNum r.field.val (match r with | .cluster l => l.c.val | .hub _ => 6) (match r with | .cluster _ => 0 | .hub _ => 15)) 0 0
        (leBytes 8 r.page ++ leBytes 1 q.val)))

/-- RESP_FLUSH: a gathered RESP is sent (R167). -/
def execRespFlush (k : RespKey) (s : State) : Res :=
  .next (s.onHw fun h =>
    match h.resp.find? fun x => x.ep = k.ep.toNat && x.src = k.src.toNat && x.tag = k.tag.toNat && x.status = k.status.toNat with
    | some x => ({ h with resp := h.resp.erase x } : Hw).inject (epNode x.ep) (respFlit x.ep x.src x.tag x.status x.count 0)
    | none => h)

/-- The router's tick fires: the model keeps the fire time and length each node was given (R157). -/
def Hw.rtrTick (h : Hw) (r : RtrLoc) (time len : Nat) : Hw := h.setRtr r { h.rtrAt r with tickAt := time, tickLen := len }

/-- ROUTER_TICK_MISSED: a node cut off from the tick tree fires one period after the last tick (R315). -/
def execRouterTickMissed (r : RtrLoc) (s : State) : Res :=
  .next (s.onHw fun h =>
    let x := h.rtrAt r
    let h := h.setRtr r { x with tickAt := x.tickAt + h.period }
    (h.count (pgFarrier + Reg.farrier.frTickMissed) 0 32 1).raise pgFarrier 13)

end Machine
end Sys2Proof
end

