-- ==== Sys2Proof/Machine/OpticalTx.lean ====
section
/-! DEFINITION. The sending side of the optical ports (R323 to R339): frames, links with credits and replay, routes, transit bundles, accounting of remote streams. -/
namespace Sys2Proof

open Machine

/-- Key of a link. -/
def LinkLoc.key (k : LinkLoc) : Nat := 8 * k.port.val + k.link.val
/-- Field of a frame header (R324). -/
def Frame.f (z : Frame) (lo len : Nat) : Nat := bitsOf z.head.toNat lo len
/-- The header with a field set. -/
def Frame.put (z : Frame) (lo len v : Nat) : Frame := { z with head := BitVec.ofNat 224 (withBits z.head.toNat lo len v) }
/-- The CRC-32 of header and payload (R324). -/
def Frame.crcOf (z : Frame) : BitVec 32 := BitVec.ofNat 32 (crc32 (leBytes 28 z.head.toNat ++ sliceD z.payload 0 256 0))
/-- The frame with its CRC. -/
def Frame.seal (z : Frame) : Frame := { z with crc := z.crcOf }
/-- The CRC is right. -/
def Frame.crcOk (z : Frame) : Bool := z.crc = z.crcOf
/-- FKIND. -/
def Frame.kind (z : Frame) : Nat := z.f 0 4
/-- Destination node. -/
def Frame.dst (z : Frame) : Nat := z.f 48 16
/-- Source node. -/
def Frame.src (z : Frame) : Nat := z.f 64 16
/-- GROUP. -/
def Frame.group (z : Frame) : Nat := z.f 80 16
/-- A sequenced kind (R324). -/
def Frame.sequenced (z : Frame) : Bool := decide (z.kind ≠ 0 ∧ z.kind ≠ 2 ∧ z.kind ≠ 3)
/-- A frame of CTRL class (R327). -/
def Frame.ctrl (z : Frame) : Bool := z.f 4 3 = 3
/-- The flit of a FLIT frame: sideband bits 35 to 111 and the payload; hop fields and CRC-16 are made again (R324). -/
def Frame.flit (z : Frame) : Flit := Flit.sealed { side := BitVec.ofNat 128 (z.f 112 77 <<< 35), payload := z.payload }

namespace Machine

/-- A link's state. -/
def Hw.opLink (h : Hw) (k : LinkLoc) : OpLink := Tab.get h.opl k.key OpLink.empty
/-- Set a link's state. -/
def Hw.setOpLink (h : Hw) (k : LinkLoc) (x : OpLink) : Hw := { h with opl := Tab.set h.opl k.key x }
/-- A port complex. -/
def Hw.opPort (h : Hw) (f : Field) : OpPort := Tab.get h.opp f.val OpPort.empty
/-- Set a port complex. -/
def Hw.setOpPort (h : Hw) (f : Field) (x : OpPort) : Hw := { h with opp := Tab.set h.opp f.val x }
/-- This module's node number (R332). -/
def Hw.nodeId (h : Hw) : Nat := h.fld (pgOptGlobal + Reg.optGlobal.opNodeId) 0 16
/-- A link in service: UP or DEGRADED. -/
def OpLink.up (x : OpLink) : Bool := x.state = 5 || x.state = 6
/-- The links of a port. -/
def portLinks (f : Field) : List LinkLoc := (List.finRange 8).map fun i => ⟨f, i⟩
/-- All links of the module. -/
def allLinks : List LinkLoc := (List.finRange 48).flatMap portLinks
/-- GROUP_ID of a paddock (R271). -/
def Hw.groupId (h : Hw) (n : Paddock) : Nat := h.fld (pgCommit n + Reg.stepCommit.scGroup) 0 16

/-- A frame of this module: kind, VC, destination, group, E2E and AUX (R324, R334). -/
def Hw.mkFrame (h : Hw) (kind vc dst group e2e aux : Nat) (payload : List Byte) : Frame :=
  { head := BitVec.ofNat 224 (kind % 16 + (vc % 8) <<< 4 + 7 <<< 33 + (dst % 2 ^ 16) <<< 48 + h.nodeId <<< 64 + (group % 2 ^ 16) <<< 80 +
      (h.fld (pgOptGlobal + Reg.optGlobal.opLimits) 0 8) <<< 96 + (e2e % 2 ^ 77) <<< 112 + (aux % 2 ^ 32) <<< 192)
    payload := sliceD payload 0 256 0, crc := 0 }

/-- Hop fields as a frame leaves: ACK_SEQ, NAK, and the credits of one VC in turn (R325, R326). -/
def OpLink.stamp (l : OpLink) (z : Frame) : Frame :=
  let vc := [0, 2, 3].getD (z.f 8 12 % 3) 0
  Frame.seal (((((z.put 20 12 l.rxSeq).put 32 1 (b2n l.dropping)).put 33 3 vc).put 36 12 (Tab.get l.freed vc 0)))
/-- Sequenced frames leave while the link is in service, the window of 2,048 and the 1,024 credits of their VC last (R325, R326). -/
def pumpLink (h : Hw) (k : LinkLoc) : Nat → Hw
  | 0 => h
  | fuel + 1 =>
    let l := h.opLink k
    match l.outq with
    | [] => h
    | z :: rest =>
      let vc := z.f 4 3
      if !l.up || decide (l.replay.length ≥ 2048) || decide ((Tab.get l.sent vc 0 + 4096 - Tab.get l.cred vc 0) % 4096 ≥ 1024) then h
      else
        let z := l.stamp (z.put 8 12 l.txSeq)
        let h := h.setOpLink k { l with outq := rest, txSeq := (l.txSeq + 1) % 4096, replay := l.replay ++ [z],
                                        ackAt := if l.replay.isEmpty then h.clk.now else l.ackAt
                                        sent := Tab.set l.sent vc ((Tab.get l.sent vc 0 + 1) % 4096) }
        pumpLink (h.emit (.frame k z)) k fuel
/-- Send a frame on a link: unsequenced ones at once, CTRL class ahead of the others (R327). -/
def Hw.linkSend (h : Hw) (k : LinkLoc) (z : Frame) : Hw :=
  let l := h.opLink k
  if !z.sequenced then (if l.up || decide (l.state = 4) then h.emit (.frame k (l.stamp z)) else h)
  else
    let q := if z.ctrl then l.outq.takeWhile (·.ctrl) ++ [z] ++ l.outq.dropWhile (·.ctrl) else l.outq ++ [z]
    pumpLink (h.setOpLink k { l with outq := q }) k (q.length + 1)

/-- The route of a node: port and link mask, where its entry is valid (R333). -/
def Hw.routeOf (h : Hw) (node : Nat) : Option (Field × Nat) :=
  let w := Tab.get h.routes node 0
  if hp : wbit w 31 ∧ wbits w 0 6 < 48 then some (⟨wbits w 0 6, hp.2⟩, wbits w 8 8) else none
/-- The link a port chooses for a frame: the next in rotation among the in-service links of the mask (R333). -/
def Hw.chooseLink (h : Hw) (f : Field) (mask : Nat) : Option LinkLoc :=
  let rot := (h.opPort f).rot
  ((List.finRange 8).map fun i => (⟨f, ⟨(rot + i.val) % 8, Nat.mod_lt _ (by decide)⟩⟩ : LinkLoc)).find? fun k => bitOf mask k.link.val && (h.opLink k).up

/-- Number of flits a discarded frame stands for: READ_DATA flits of a READ_REQ, else one (R167, R336). -/
def frameFlits (z : Frame) : Nat := if z.flit.kind = 2 then readFlits z.flit else 1
/-- The status of a RESP is delivered to an endpoint of this module as from endpoint 3 of a port's field. -/
def Hw.respLocal (h : Hw) (f : Field) (ep tag status count off : Nat) : Hw :=
  h.inject (.hub f) (respFlit (epNum f.val 6 3) ep tag status count off)
/-- The return offset that names a READ_REQ in its RESP. -/
def retOff (k : Flit) : Nat := if k.kind = 2 then readMark (leAt k.data 12 4) else 0

/-- A stream's flits are accounted (R336). -/
def Hw.streamAcc (h : Hw) (f : Field) (ep tag n : Nat) : Hw :=
  let p := h.opPort f
  h.setOpPort f { p with streams := (p.streams.map fun x => if x.ep = ep && x.tag = tag then { x with out := x.out - n } else x).filter fun x => decide (x.out > 0) }
/-- A frame joins its stream. -/
def Hw.streamOut (h : Hw) (f : Field) (ep tag n : Nat) : Hw :=
  let p := h.opPort f
  let old := ((p.streams.find? fun x => x.ep = ep && x.tag = tag).map (·.out)).getD 0
  h.setOpPort f { p with streams := (p.streams.filter fun x => !(x.ep = ep && x.tag = tag)) ++ [⟨ep, tag, old + n, h.clk.now⟩] }

/-- A frame joins the transit bundle for its leaving port (R335). -/
def Hw.bundleAdd (h : Hw) (f dest : Field) (z : Frame) : Hw :=
  let p := h.opPort f
  let same := fun (b : Bundle) => b.dest = dest.val && b.ctrl = z.ctrl && decide (b.frames.length < 8)
  match p.bundles.find? same with
  | some b => h.setOpPort f { p with bundles := p.bundles.map fun x => if x = b then { b with frames := b.frames ++ [z] } else x }
  | none => h.setOpPort f { p with bundles := p.bundles ++ [⟨dest.val, z.ctrl, [z], h.clk.now⟩] }

/-- Send a frame from a port by the route table: on a link of its own, or in a bundle to the leaving port; where no route is in service it is discarded, counted, and answered by `lost` (R333, R335). -/
def Hw.routeFrameWith (h : Hw) (f : Field) (z : Frame) (lost : Hw → Hw) : Hw :=
  let drop := lost (h.count (pgOptGlobal + Reg.optGlobal.opUnreach) 0 32 1)
  match h.routeOf z.dst with
  | none => drop
  | some (dest, mask) =>
    match h.chooseLink dest mask with
    | none => drop
    | some k =>
      if dest = f then
        let p := h.opPort f
        (h.setOpPort f { p with rot := (k.link.val + 1) % 8 }).linkSend k z
      else h.bundleAdd f dest z

/-- A discarded FLIT frame of kind WRITE or READ_REQ is accounted to its source: here, or by a RESP frame to its node (R336). -/
def Hw.accountFrame (h : Hw) (f : Field) (z : Frame) (status : Nat) : Hw :=
  let k := z.flit
  if z.kind ≠ 1 || (k.kind ≠ 1 && k.kind ≠ 2) then h
  else if z.src = h.nodeId then (h.streamAcc f k.src k.tag (frameFlits z)).respLocal f k.src k.tag status (frameFlits z) (retOff k)
  else
    let r := respFlit k.dst k.src k.tag status (frameFlits z) (retOff k)
    h.routeFrameWith f (h.mkFrame 1 0 z.src z.group (r.f 35 77) 0 r.payload) id
/-- Send a frame from a port by the route table (R333). -/
def Hw.routeFrame (h : Hw) (f : Field) (z : Frame) : Hw := h.routeFrameWith f z fun h => h.accountFrame f z 2

/-- Send a flit of a port channel, or a reply, to another node (R323, R337). -/
def Hw.portFlit (h : Hw) (f : Field) (node group : Nat) (k : Flit) : Hw :=
  let vc := (kindClass k.kind).2
  let h := if k.kind = 1 || k.kind = 2 then h.streamOut f k.src k.tag (if k.kind = 2 then readFlits k else 1) else h
  h.routeFrame f (h.mkFrame 1 vc node group (k.f 35 77) 0 k.payload)
/-- An object request (R338): handle, offset in 256-byte units (its low bits in the header, notes/assumptions/9.md), operation, CHECK_GEN. -/
def Hw.objFrame (h : Hw) (node group handle unit op : Nat) (gen : Bool) (payload : List Byte) : Frame :=
  h.mkFrame 6 0 node group (handle % 2 ^ 48 + (unit % 2 ^ 29) <<< 48) (unit >>> 29 % 2 ^ 11 + op <<< 11 + (b2n gen) <<< 15) payload
/-- Send an installation message to a node by the port of its route (R339). -/
def Hw.sendMsg (h : Hw) (node type : Nat) (payload : List Byte) : Hw :=
  match h.routeOf node with
  | some (f, _) => h.routeFrame f (h.mkFrame 5 3 node 0 0 type payload)
  | none => h.count (pgOptGlobal + Reg.optGlobal.opUnreach) 0 32 1
/-- Flood a message on every link in service. -/
def Hw.floodMsg (h : Hw) (type : Nat) (payload : List Byte) : Hw :=
  allLinks.foldl (fun h k => if (h.opLink k).up then h.linkSend k (h.mkFrame 5 3 (h.opLink k).peerNode 0 0 type payload) else h) h

/-- BUNDLE_SEND: a bundle of 8 frames, or 16 cycles old, crosses the mesh as one header flit and a data flit per frame (R335). -/
def execBundleSend (f g : Field) (b : Bool) (s : State) : Res :=
  .next (s.onHw fun h =>
    let p := h.opPort f
    match p.bundles.find? fun x => x.dest = g.val && x.ctrl = b with
    | none => h
    | some x =>
      let h := if x.frames.length ≥ 8 then h else h.atLeast (x.first + 9)
      let id := p.nextBundle % 2 ^ 24
      let h := h.setOpPort f { p with bundles := p.bundles.erase x, nextBundle := (id + 1) % 2 ^ 24 }
      let vc := if b then 3 else 0
      let send := fun (h : Hw) (off : Nat) (last : Bool) (bytes : List Byte) =>
        h.emit (.flit (.hub f) 6 .a ((mkFlit 1 last (epNum g.val 6 3) (epNum f.val 6 3) 0 off bytes).put 0 3 vc))
      let h := send h (id + 1 <<< 27) false (x.frames.flatMap fun z => leBytes 28 z.head.toNat)
      times x.frames.length h fun i h =>
        send h (id + i <<< 24) (decide (i + 1 = x.frames.length)) (sliceD (x.frames.getD i ⟨0, [], 0⟩).payload 0 256 0))

end Machine
end Sys2Proof
end

