-- ==== Sys2Proof/Machine/Placement.lean ====
section
/-! DEFINITION. Placement (R194 to R218): objects, spans and their zero fill, quotas, the home controllers and their commands. -/
namespace Sys2Proof.Machine

/-- The home field of a handle: the first in-service field from mix(h)[63:32] mod 48 on (R196). -/
def Hw.homeOf (h : Hw) (handle : Nat) : Field :=
  let f0 := (rngMix (BitVec.ofNat 64 handle)).toNat >>> 32
  let f := ((List.range 48).find? fun i => h.inService ((f0 + i) % 48)).getD 0
  ⟨(f0 + f) % 48, Nat.mod_lt _ (by decide)⟩
/-- The descriptor of a handle. -/
def Hw.obj (h : Hw) (handle : Nat) : Option Obj := Tab.find h.objs handle
/-- Set a descriptor. -/
def Hw.setObj (h : Hw) (handle : Nat) (o : Obj) : Hw := { h with objs := Tab.set h.objs handle o }
/-- The home controller's queue. -/
def Hw.plQueue (h : Hw) (f : Field) : List PlCmd := Tab.get h.plq f.val []
/-- A field of an argument record: n bytes from an offset (R218). -/
def PlCmd.f (c : PlCmd) (off n : Nat) : Nat := bitsOf c.arg (8 * off) (8 * n)
/-- HANDLE. -/
def PlCmd.handle (c : PlCmd) : Nat := c.f 0 6
/-- TIER. -/
def PlCmd.tier (c : PlCmd) : Nat := c.f 6 1
/-- OPT bit. -/
def PlCmd.opt (c : PlCmd) (i : Nat) : Bool := bitOf (c.f 7 1) i
/-- The paddock that issued a command. -/
def PlCmd.issuer (c : PlCmd) : Paddock := ⟨c.pad % 4, Nat.mod_lt _ (by decide)⟩

/-- Spans an object holds: its T0 and T1 copies, and its draft. -/
def Obj.spans (o : Obj) : List Span :=
  [⟨o.t0Da, 256 * o.t0Units⟩, ⟨o.t1Da, 4096 * (o.t1Pages - o.draftPages)⟩, ⟨o.draftDa, 4096 * o.draftPages⟩].filter fun x => x.len ≠ 0
/-- Spans in use. -/
def Hw.usedSpans (h : Hw) : List Span := h.objs.flatMap fun p => p.2.spans

/-- First and last 4 KiB page a span covers. -/
def Span.pages (x : Span) (bits : Nat) : Nat × Nat := (bitsOf x.base 0 bits / 4096, (bitsOf x.base 0 bits + x.len - 1) / 4096)
/-- The ring a T1 span lies in. -/
def Span.ring (x : Span) : Nat := if daRegion x.base = 0 then bitsOf x.base 41 2 else (ringOf ⟨siteOf x.base / 2 % 48, Nat.mod_lt _ (by decide)⟩).val
/-- Place of a region 0x01 span's site among the 24 of its ring (R186). -/
def Span.siteIdx (x : Span) : Nat :=
  let f : Field := ⟨siteOf x.base / 2 % 48, Nat.mod_lt _ (by decide)⟩
  (ringFields (ringOf f)).idxOf f * 2 + siteOf x.base % 2
/-- The lowest interleaved page of ring r from g to l that a span covers (R186). -/
def Span.hitPage (x : Span) (r g l : Nat) : Option Nat :=
  if x.ring ≠ r || daRegion x.base > 1 then none
  else if daRegion x.base = 0 then
    let (a, b) := x.pages 41
    if max a g ≤ min b l then some (max a g) else none
  else
    let (a, b) := x.pages 36
    let j := x.siteIdx
    let p := max a ((g + 23 - j) / 24)
    if p ≤ b ∧ 24 * p + j ≤ l then some (24 * p + j) else none
/-- Two spans share a byte (T1 spans by pages). -/
def Span.meets (x y : Span) : Bool :=
  if daRegion x.base = 2 || daRegion y.base = 2 then
    decide (x.base < y.base + y.len) && decide (y.base < x.base + x.len)
  else if daRegion y.base = 0 then (let (a, b) := y.pages 41; (x.hitPage y.ring a b).isSome)
  else if daRegion x.base = 0 then (let (a, b) := x.pages 41; (y.hitPage x.ring a b).isSome)
  else
    let (a, b) := x.pages 36
    let (c, d) := y.pages 36
    siteOf x.base = siteOf y.base && decide (max a c ≤ min b d)
/-- Pages of a ring (R186: 1,536 GiB). -/
def ringPages : Nat := 0x18000000000 / 4096
/-- The first place from page g on where n pages of ring r are free of the spans. -/
def firstFit (used : List Span) (r n : Nat) : Nat → Nat → Option Nat
  | 0, _ => none
  | fuel + 1, g =>
    if g + n > ringPages then none
    else match used.findSome? (fun x => x.hitPage r g (g + n - 1)) with
      | none => some g
      | some p => firstFit used r n fuel (p + 1)
/-- Free pages of a ring: filling counts as free here (R206). -/
def Hw.ringFree (h : Hw) (r : Nat) : Nat :=
  ringPages - ((h.usedSpans.filter fun x => daRegion x.base ≤ 1 && x.ring = r).map fun x => (x.len + 4095) / 4096).sum

/-- How an allocation ends. -/
inductive Alloc where
  | at (da : Nat)
  | wait
  | limit
  deriving DecidableEq, Repr

/-- A span at a given address: taken if free, waiting while it is being filled (R187, R206). -/
def Hw.allocAt (h : Hw) (n : Paddock) (x : Span) : Alloc :=
  if !h.rangeInPaddock n x.base x.len || h.usedSpans.any x.meets then .limit
  else if h.fills.any x.meets then .wait
  else .at x.base
/-- A T1 allocation: a span of the ring of the paddock with the most free space; which span the controller takes is free (R206, notes/assumptions/1.md). -/
def Hw.allocT1 (h : Hw) (n : Paddock) (pages : Nat) : Alloc × Hw :=
  match h.paddockRings n with
  | [] => (.limit, h)
  | r0 :: rs =>
    let r := rs.foldl (fun b r => if h.ringFree r.val > h.ringFree b.val then r else b) r0
    let (k, h1) := h.free 64
    let used := h.usedSpans
    let from_ := fun (u : List Span) (g : Nat) => firstFit u r.val (max pages 1) (ringPages + 1) g
    match (from_ (used ++ h.fills) (k % ringPages)).or (from_ (used ++ h.fills) 0) with
    | some g => (.at (r.val <<< 41 + g * 4096), h1)
    | none => if (from_ used 0).isSome then (.wait, h) else (.limit, h)

/-- The charge of a T1 or T2 copy in pages (R191, R205). -/
def chargePages (size : Nat) (comp : Bool) (budget : Nat) : Nat := ((if comp then compBytes size budget else size) + 4095) / 4096
/-- Bytes of a T1 or T2 copy as stored. -/
def Obj.storedBytes (o : Obj) : Nat := if o.comp then compBytes o.size o.budget else o.size
/-- PADDOCK_n quota registers of a tier. -/
def quotaReg (n : Paddock) (tier : Nat) : Nat := pgPlaceGlobal + 0x100 + 0x40 * n.val + 0x10 * tier
/-- Bytes charged in a tier. -/
def Hw.used (h : Hw) (n : Paddock) (tier : Nat) : Nat := h.reg64 (quotaReg n tier + 8)
/-- An allocation stays within the quota; all ones is unlimited (R205). -/
def Hw.quotaOk (h : Hw) (n : Paddock) (tier bytes : Nat) : Bool :=
  h.reg64 (quotaReg n tier) = 2 ^ 64 - 1 || decide (h.used n tier + bytes ≤ h.reg64 (quotaReg n tier))
/-- Charge bytes to a paddock. -/
def Hw.charge (h : Hw) (n : Paddock) (tier bytes : Nat) : Hw := h.setReg64 (quotaReg n tier + 8) (h.used n tier + bytes)
/-- End a charge. -/
def Hw.uncharge (h : Hw) (n : Paddock) (tier bytes : Nat) : Hw := h.setReg64 (quotaReg n tier + 8) (h.used n tier - bytes)
/-- A command refused for quota is counted. -/
def Hw.quotaFail (h : Hw) (n : Paddock) : Hw := h.count (pgPlaceGlobal + Reg.placeGlobal.paddock0QuotaFail + 0x40 * n.val) 0 32 1
/-- A released span goes to zero fill (R187). -/
def Hw.fill (h : Hw) (x : Span) : Hw := if x.len = 0 then h else { h with fills := h.fills ++ [x] }

/-- An object's owner. -/
def Obj.own (o : Obj) : Paddock := ⟨o.owner % 4, Nat.mod_lt _ (by decide)⟩
/-- Release the T0 copy. -/
def Hw.dropT0 (h : Hw) (o : Obj) : Obj × Hw :=
  ({ o with inT0 := false, t0Da := 0, t0Units := 0 }, (h.uncharge o.own 0 (256 * o.t0Units)).fill ⟨o.t0Da, 256 * o.t0Units⟩)
/-- Release the draft (R193). -/
def Hw.dropDraft (h : Hw) (o : Obj) : Obj × Hw :=
  ({ o with hasDraft := false, draftDa := 0, t1Pages := o.t1Pages - o.draftPages, draftPages := 0, maxErr := 0 },
   (h.uncharge o.own 1 (4096 * o.draftPages)).fill ⟨o.draftDa, 4096 * o.draftPages⟩)
/-- Release the T1 copy. -/
def Hw.dropT1 (h : Hw) (o : Obj) : Obj × Hw :=
  let n := 4096 * (o.t1Pages - o.draftPages)
  ({ o with inT1 := false, t1Da := 0, t1Pages := o.draftPages }, (h.uncharge o.own 1 n).fill ⟨o.t1Da, n⟩)

/-- T0 space is allocated to an object, before its copy is valid too (COPIES.T0, R195). -/
def Obj.hasT0 (o : Obj) : Bool := o.inT0 || decide (o.t0Units ≠ 0)
/-- T1 space is allocated to an object (COPIES.T1, R195). -/
def Obj.hasT1 (o : Obj) : Bool := o.inT1 || decide (o.t1Pages > o.draftPages)
/-- The 128 bytes of a descriptor (R195). -/
def Obj.bytes (o : Obj) (handle queued : Nat) : List Byte :=
  let fl := b2n o.comp + 2 * b2n o.hasDraft + (match o.deferred with | some d => 4 + 8 * b2n d.evict + 16 * b2n d.discard | none => 0)
  let copies := b2n o.hasT0 + 2 * b2n o.hasT1 + 4 * b2n o.inT2 + 8 * b2n o.hasAlt
  let at_ := fun (b : Bool) (v : Nat) => if b then v else 0
  leBytes 6 handle ++ leBytes 1 o.state.code ++ leBytes 1 o.pins ++ leBytes 8 o.size ++ leBytes 4 o.nfw ++ leBytes 1 o.cls ++ leBytes 1 o.policy ++
  leBytes 1 o.owner ++ leBytes 1 o.share ++ leBytes 1 fl ++ leBytes 1 (min queued 255) ++ leBytes 2 o.t2Node ++ leBytes 2 o.altNode ++
  leBytes 1 copies ++ leBytes 1 0 ++ leBytes 8 (at_ o.hasT0 o.t0Da) ++ leBytes 8 (at_ o.hasT1 o.t1Da) ++ leBytes 8 (at_ o.hasDraft o.draftDa) ++
  leBytes 8 (at_ o.hasAlt o.altDa) ++ leBytes 4 o.t0Units ++ leBytes 4 o.t1Pages ++ leBytes 4 o.t2Pages ++ leBytes 4 o.maxErr ++
  leBytes 4 o.late ++ leBytes 4 o.fail ++ leBytes 8 o.lastChange ++ leBytes 8 o.budget ++ leBytes 24 0

/-- A command completes: PC_LAST, PC_REJECTED, its record and descriptor at COMPLETION_DA, its token (R218); one of a plan's object table is heard by the Ringmaster (R208). The state and pin count of an object that does not exist are free. -/
def State.plComplete (s : State) (c : PlCmd) (status : Nat) : State :=
  let home := s.hw.homeOf c.handle
  let pg := pgPlace home
  let h := s.hw.setRegN (pg + Reg.placement.pcLast) (c.code + status <<< 8)
  let h := if status ≤ 1 then h else h.count (pg + Reg.placement.pcRejected) 0 32 1
  let h := if status = 9 then h.raise pg 10 else h
  let h := if ((h.pad c.issuer).loadCmd.map (·.1)) = some c.arrival then h.setPad c.issuer { h.pad c.issuer with loadSt := some status } else h
  let (st, h) := match h.obj c.handle with
    | some o => (o.state.code + o.pins <<< 8, h)
    | none => h.free 16
  let rec_ := leBytes 6 c.handle ++ leBytes 1 c.code ++ leBytes 1 (status + (b2n (h.deadlinePast (c.f 8 8))) <<< 7) ++ leBytes 2 st ++ leBytes 2 0 ++ leBytes 4 h.stride
  let desc := if c.code = 8 ∧ status = 0 then
      (match h.obj c.handle with
       | some o => o.bytes c.handle ((h.plQueue home).countP fun x => x.handle = c.handle)
       | none => [])
    else []
  let s := { s with hw := h }
  let s := if c.f 0x10 8 = 0 then s else s.store none home.val (c.f 0x10 8) (rec_ ++ desc) plainInfo
  if c.opt 2 then s.onHw fun h => h.tokenSignal c.issuer none (c.f 0x18 4) 1 false else s

/-- What a command does when it is tried: it waits, or it is done with a status (255 while its transition runs). -/
inductive PlTry where
  | wait
  | done (status : Nat) (s : State)

/-- A command ends with a status and its record. -/
def plEnd (s : State) (c : PlCmd) (status : Nat) : PlTry := .done status (s.plComplete c status)
/-- A command refused for quota (R205). -/
def plQuota (s : State) (c : PlCmd) (n : Paddock) : PlTry := plEnd (s.onHw fun h => h.quotaFail n) c 4
/-- Transitions running at a home (R200). -/
def Hw.transits (h : Hw) (f : Field) : Nat := h.objs.countP fun p => p.2.transit.isSome && h.homeOf p.1 = f
/-- A change of residency state (LAST_CHANGE). -/
def Hw.move (h : Hw) (o : Obj) (st : Resid) : Obj := { o with state := st, lastChange := h.stride }

/-- TWO_PASS of an object's format word, which means nothing in a format that is not narrow (R137), in a class that counts (R135). -/
def twoPassObj (nfw cls : Nat) : Bool := nfwTwoPass nfw && nfwNarrow (nfwFormat nfw) && cls ≠ 2 && cls ≠ 3
/-- Objects with TWO_PASS that count against the 64 of a paddock (R135). -/
def Hw.twoPassCount (h : Hw) (n : Paddock) : Nat := h.objs.countP fun p => twoPassObj p.2.nfw p.2.cls && p.2.owner = n.val

/-- The argument tests of PLACE (R16, R135, R137, R188, R195, R199, R211, R241). -/
def placeBad (c : PlCmd) : Bool :=
  let cls := c.f 0x1D 1
  let size := c.f 0x20 8
  let nfw := c.f 0x28 4
  c.handle = 0 || decide (cls > 6) || !nfwOk nfw || decide (c.f 0x1F 1 > 15) || decide (c.f 0x1E 1 > 7) || (cls = 1 && c.tier ≠ 0) ||
  (cls = 3 && (c.tier = 0 || size % 2 = 1)) || (c.opt 1 && (codecFmt nfw).isNone) || (c.tier = 2 && c.f 0x2C 2 = 0xFFFF)

/-- PLACE (R206). -/
def plPlace (s : State) (c : PlCmd) : PlTry :=
  let h := s.hw
  let n := c.issuer
  let home := h.homeOf c.handle
  let size := c.f 0x20 8
  let cls := c.f 0x1D 1
  let budget := if c.opt 1 then c.f 0x38 8 else 0
  let units := if c.tier = 0 then (size + 255) / 256 else 0
  let pages := chargePages size (c.opt 1) budget
  if (h.obj c.handle).isSome then plEnd s c 3
  else if placeBad c then plEnd s c 6
  else if (h.objs.countP fun p => h.homeOf p.1 = home) ≥ 8192 then plEnd (s.onHw fun h => h.raise (pgPlace home) 9) c 5
  else if twoPassObj (c.f 0x28 4) cls && decide (h.twoPassCount n ≥ 64) then plEnd s c 5
  else if !h.quotaOk n c.tier (if c.tier = 0 then 256 * units else 4096 * pages) then plQuota s c n
  else
    let loc := c.f 0x30 8
    let (a, h) := if c.tier = 0 then ((if daRegion loc = 2 then h.allocAt n ⟨loc, 256 * units⟩ else .limit), h)
      else if c.tier = 1 then
        (if c.opt 3 then ((if daRegion loc ≤ 1 then h.allocAt n ⟨loc, 4096 * pages⟩ else .limit), h) else h.allocT1 n pages)
      else (Alloc.at 0, h)
    match a with
    | .wait => .wait
    | .limit => plEnd s c 5
    | .at da =>
      let o : Obj := {
        state := if c.tier = 0 then .t0 else if c.tier = 1 then .t1 else .t2
        pins := 0, size := size, nfw := c.f 0x28 4, cls := cls, policy := c.f 0x1E 1, owner := n.val, share := c.f 0x1F 1, comp := c.opt 1
        hasDraft := false, t2Node := c.f 0x2C 2, altNode := 0xFFFF, inT0 := c.tier = 0, inT1 := c.tier = 1, inT2 := c.tier = 2, hasAlt := false
        t0Da := if c.tier = 0 then da else 0
        t1Da := if c.tier = 1 then da else 0
        draftDa := 0, altDa := 0, t0Units := units
        t1Pages := if c.tier = 1 then pages else 0
        t2Pages := if c.tier = 2 then pages else 0
        draftPages := 0, maxErr := 0, late := 0, fail := 0, lastChange := h.stride, budget := budget, holds := 0, deferred := none, transit := none }
      let h := (h.setObj c.handle o).charge n c.tier (if c.tier = 0 then 256 * units else 4096 * pages)
      plEnd { s with hw := h } c 0

/-- PROMOTE (R200, R205). -/
def plPromote (s : State) (c : PlCmd) (o : Obj) : PlTry :=
  let h := s.hw
  let n := o.own
  let home := h.homeOf c.handle
  let units := (o.size + 255) / 256
  let pages := chargePages o.size o.comp o.budget
  let loc := c.f 0x30 8
  if c.tier ≥ 2 || (c.tier = 0 && o.cls = 3) then plEnd s c 6
  else match o.state with
    | .t2 =>
      if !h.quotaOk n 1 (4096 * pages) || (c.tier = 0 && !h.quotaOk n 0 (256 * units)) then plQuota s c n
      else
        let up := if c.tier = 0 then (if daRegion loc = 2 then h.allocAt n ⟨loc, 256 * units⟩ else .limit) else .at 0
        let (a, h) := h.allocT1 n pages
        match up, a with
        | .limit, _ | _, .limit => plEnd s c 5
        | .at u, .at da =>
          if h.transits home ≥ 16 then .wait
          else
            let o := h.move { o with t1Da := da, t1Pages := pages + o.draftPages, t0Da := u, t0Units := if c.tier = 0 then units else 0,
                                     transit := some ⟨c.tier, false, .t2, [(c.tier, c)]⟩ } .promT1
            let h := (h.setObj c.handle o).charge n 1 (4096 * pages)
            let h := if c.tier = 0 then h.charge n 0 (256 * units) else h
            .done 255 { s with hw := h.emit (.t2Read c.handle o.t2Node 0 o.storedBytes 0 0) }
        | _, _ => .wait
    | .promT1 =>
      if c.tier = 1 then .done 255 (s.onHw fun h => h.setObj c.handle { o with transit := o.transit.map fun t => { t with cmds := t.cmds ++ [(1, c)] } })
      else .wait
    | .t1 =>
      if c.tier = 1 then plEnd s c 0
      else if !h.quotaOk n 0 (256 * units) then plQuota s c n
      else match (if daRegion loc = 2 then h.allocAt n ⟨loc, 256 * units⟩ else .limit) with
        | .limit => plEnd s c 5
        | .wait => .wait
        | .at u =>
          if h.transits home ≥ 16 then .wait
          else
            let o := h.move { o with t0Da := u, t0Units := units, transit := some ⟨0, false, .t1, [(0, c)]⟩ } .promT0
            .done 255 { s with hw := (h.setObj c.handle o).charge n 0 (256 * units) }
    | .promT0 => .done 255 (s.onHw fun h => h.setObj c.handle { o with transit := o.transit.map fun t => { t with cmds := t.cmds ++ [(0, c)] } })
    | .t0 => plEnd s c 0
    | .demoting | .evicting => .wait

/-- Complete several commands with one status. -/
def State.plCompleteAll (s : State) (cs : List PlCmd) (status : Nat) : State := cs.foldl (fun s c => s.plComplete c status) s

/-- A DEMOTE or EVICT is carried out in a resident state with no pin (R199, R203): none where it must wait. -/
def plLower (s : State) (handle : Nat) (o : Obj) (evict discard : Bool) (cs : List PlCmd) : Option (Nat × State) :=
  let h := s.hw
  let n := o.own
  let pages := chargePages o.size o.comp o.budget
  let start := fun (h : Hw) (o : Obj) (st : Resid) =>
    if h.transits (h.homeOf handle) ≥ 16 then none
    else some (255, { s with hw := h.setObj handle (h.move { o with transit := some ⟨if evict then 2 else 1, discard, o.state, cs.map fun c => (2, c)⟩ } st) })
  if evict then
    if o.state = .t2 then some (0, s.plCompleteAll cs 0)
    else if o.t2Node = 0xFFFF || (discard && !o.inT2) then some (6, s.plCompleteAll cs 6)
    else if !discard && !o.inT2 then
      if !h.quotaOk n 2 (4096 * pages) then some (4, (s.onHw fun h => h.quotaFail n).plCompleteAll cs 4)
      else start (h.charge n 2 (4096 * pages)) { o with t2Pages := pages } .evicting
    else start h o .evicting
  else if o.state ≠ .t0 then some (0, s.plCompleteAll cs 0)
  else if discard && !o.inT1 && !o.inT2 then some (6, s.plCompleteAll cs 6)
  else if !discard && !o.inT1 then
    if !h.quotaOk n 1 (4096 * pages) then some (4, (s.onHw fun h => h.quotaFail n).plCompleteAll cs 4)
    else
      let (a, h) := h.allocT1 n pages
      match a with
      | .limit => some (5, s.plCompleteAll cs 5)
      | .wait => none
      | .at da => start (h.charge n 1 (4096 * pages)) { o with t1Da := da, t1Pages := o.t1Pages + pages } .demoting
  else start h o .demoting

/-- A DEMOTE or EVICT that cannot start goes to the deferred slot and completes with DEFERRED (R202). -/
def plDefer (s : State) (c : PlCmd) (o : Obj) (evict : Bool) : PlTry :=
  let d : Deferral := match o.deferred with
    | none => ⟨evict, c.opt 0, [c]⟩
    | some d => ⟨d.evict || evict, d.discard && c.opt 0, d.cmds ++ [c]⟩
  let s := s.onHw fun h =>
    (h.setObj c.handle { o with deferred := some d }).count (pdCounter c.issuer Reg.placeGlobal.paddock0Deferred) 0 32 1
  plEnd s c 1

/-- An object is pinned, by PIN or by a transfer that holds it. -/
def Obj.pinned (o : Obj) : Bool := decide (o.pins > 0) || decide (o.holds > 0)

/-- DEMOTE and EVICT by state (R200). -/
def plDown (s : State) (c : PlCmd) (o : Obj) (evict : Bool) : PlTry :=
  let join := PlTry.done 255 (s.onHw fun h => h.setObj c.handle { o with transit := o.transit.map fun t => { t with cmds := t.cmds ++ [(2, c)] } })
  let carry := match plLower s c.handle o evict (c.opt 0) [c] with
    | some (st, s) => PlTry.done st s
    | none => PlTry.wait
  if evict && o.t2Node = 0xFFFF then plEnd s c 6
  else match o.state with
    | .promT1 | .promT0 => plDefer s c o evict
    | .demoting => if evict then .wait else join
    | .evicting => if evict then join else .wait
    | .t2 => carry
    | .t1 => if evict && o.pinned then plDefer s c o evict else carry
    | .t0 => if o.pinned then plDefer s c o evict else carry

/-- FREE (R200): the object and every copy go. -/
def plFree (s : State) (c : PlCmd) (o : Obj) : PlTry :=
  if !o.state.resident || o.pinned then plEnd s c 7
  else
    let t := s.plComplete c 0
    let (o, h) := t.hw.dropT0 o
    let (o, h) := h.dropDraft o
    let (o, h) := h.dropT1 o
    let h := h.uncharge o.own 2 (4096 * o.t2Pages)
    .done 0 { t with hw := { h with objs := Tab.erase h.objs c.handle } }

/-- An object and its copies go (R208). -/
def Hw.unplace (h : Hw) (handle : Nat) : Hw :=
  match h.obj handle with
  | some o =>
    let (o, h) := h.dropT0 o
    let (o, h) := h.dropDraft o
    let (o, h) := h.dropT1 o
    let h := h.uncharge o.own 2 (4096 * o.t2Pages)
    { h with objs := Tab.erase h.objs handle }
  | none => h

/-- The uncompressed bytes of an object's T1 copy; none where a block of a compressed one does not decode to its CRC (R188 to R192). -/
def objT1Bytes (m : List Host.Cell) (o : Obj) : Option (List Byte) :=
  if !o.comp then some (memBytes m o.t1Da o.size)
  else match codecFmt o.nfw with
    | none => none
    | some w =>
      let lens := codeLengths (memBytes m o.t1Da 256)
      ((List.range (compBlocks o.size)).foldl (fun (acc : Option (List Byte)) b =>
        let e := memBytes m (o.t1Da + 256 + 16 * b) 16
        let sec := leAt e 4 1
        match acc, decodeBlock w lens sec (memBytes m (o.t1Da + compDataOff o.size + 256 * leAt e 8 8) (256 * min sec 16)) with
        | some l, some d => if crc32 d = leAt e 0 4 then some (l ++ d) else none
        | _, _ => none) (some [])).map fun l => l.take o.size
/-- A compressed allocation written from uncompressed bytes with the object's table; raw blocks where the table is not valid. The second part says whether the budget holds it (R190, R191). -/
def compWrite (w : Nat × Nat) (table : List Byte) (size budget : Nat) (bytes : List Byte) : List Byte × List Byte × Bool :=
  let lens := codeLengths table
  let ok := tableOk w lens
  let (idx, dat) := (List.range (compBlocks size)).foldl (fun (acc : List Byte × List Byte) b =>
    let blk := sliceD (bytes.take size) (4096 * b) 4096 0
    let (sec, d) := if ok then encodeBlock w lens blk else (16, blk)
    (acc.1 ++ leBytes 4 (crc32 blk) ++ leBytes 1 sec ++ leBytes 3 0 ++ leBytes 8 (acc.2.length / 256), acc.2 ++ d)) ([], [])
  (idx, dat, decide (dat.length ≤ 256 * budget))
/-- Bytes of an object's highest copy. -/
def objBytes (m : List Host.Cell) (o : Obj) : Option (List Byte) := if o.inT0 then some (memBytes m o.t0Da o.size) else objT1Bytes m o

/-- MAKE_DRAFT: FP4 elements in blocks of 16 with E5M3 scales (R193). -/
def plDraft (s : State) (c : PlCmd) (o : Obj) : PlTry :=
  let h := s.hw
  if o.cls ≠ 2 || decide (nfwFormat o.nfw > 3) then plEnd s c 6
  else if o.state ≠ .t1 ∧ o.state ≠ .t0 then plEnd s c 7
  else
    let f := nfwFmt (nfwFormat o.nfw)
    let eb := f.bits / 8
    let n := o.size / eb
    let dataLen := ((n + 1) / 2 + 255) / 256 * 256
    let pages := (dataLen + (n + 15) / 16 + 4095) / 4096
    if !o.hasDraft && !h.quotaOk o.own 1 (4096 * pages) then plQuota s c o.own
    else
      let (a, h) := if o.hasDraft then (Alloc.at o.draftDa, h) else h.allocT1 o.own pages
      match a, objBytes s.mem o with
      | .wait, _ => .wait
      | .limit, _ => plEnd s c 5
      | .at _, none => plEnd s c 9
      | .at da, some bytes =>
        let codes := (List.range n).map fun i => leAt bytes (i * eb) eb
        let blocks := (List.range ((n + 15) / 16)).map fun b => writeBlock e2m1 true (1, 0) (((codes.drop (16 * b)).take 16).map f.decode)
        let elems := blocks.flatMap fun b => b.2.map (·.code)
        let err := (List.range n).foldl (fun (e : Nat × Int) i =>
          let q := f.ofVal (narrowVal e2m1 true (blocks.getD (i / 16) (0, [])).1 (elems.getD i 0)) true
          match f.decode (codes.getD i 0), f.decode q.1 with
          | .fin s1 m1 e1, .fin s2 m2 e2 => let (x, k) := dyAdd (sgnInt s1 m1) e1 (sgnInt (!s2) m2) e2; dyMax e (x.natAbs, k)
          | _, _ => e) (0, 0)
        let c0 := fp32.roundMag err.1 1 err.2
        let up := match fp32.decode c0 with | .fin _ m k => if dyLe err.1 err.2 m k then c0 else c0 + 1 | _ => c0
        let h := if o.hasDraft then h else h.charge o.own 1 (4096 * pages)
        let o := { o with hasDraft := true, draftDa := da, t1Pages := if o.hasDraft then o.t1Pages else o.t1Pages + pages,
                          draftPages := pages, maxErr := up }
        let t := ({ s with hw := h.setObj c.handle o } : State).store none (h.homeOf c.handle).val da
          (sliceD (packBytes 4 elems) 0 dataLen 0 ++ blocks.map fun b => BitVec.ofNat 8 b.1) plainInfo
        plEnd t c 0

/-- BIND_WINDOW: window TIER of the issuing paddock names the object (R210, R219). -/
def plBind (s : State) (c : PlCmd) : PlTry :=
  let k := pgPlaceGlobal + Reg.placeGlobal.paddock0Win0Lo + 0x80 * c.issuer.val + 8 * (c.tier % 16)
  plEnd (s.onHw fun h => (h.setRegN k (c.handle % 2 ^ 32)).setRegN (k + 4) (c.handle >>> 32 + 1 <<< 31)) c 0

/-- A command is tried at its home: owner, class and state tests, then its own body (R199). -/
def plTry (s : State) (c : PlCmd) : PlTry :=
  if c.code = 1 then plPlace s c
  else match s.hw.obj c.handle with
    | none => plEnd s c 2
    | some o =>
      if c.pad ≠ o.owner && !(bitOf o.share c.pad && (c.code = 5 || c.code = 6 || c.code = 8 || c.code = 13)) then plEnd s c 8
      else if o.cls = 1 && c.code ≠ 5 && c.code ≠ 6 && c.code ≠ 7 && c.code ≠ 8 then plEnd s c 6
      else match c.code with
        | 2 => plPromote s c o
        | 3 => plDown s c o false
        | 4 => plDown s c o true
        | 5 => if o.pins ≥ 255 then plEnd s c 5 else plEnd (s.onHw fun h => h.setObj c.handle { o with pins := o.pins + 1 }) c 0
        | 6 => if o.pins = 0 then plEnd s c 7 else plEnd (s.onHw fun h => h.setObj c.handle { o with pins := o.pins - 1 }) c 0
        | 7 => plFree s c o
        | 8 => plEnd s c 0
        | 9 => if c.f 0x1E 1 > 7 then plEnd s c 6 else plEnd (s.onHw fun h => h.setObj c.handle { o with policy := c.f 0x1E 1 }) c 0
        | 10 =>
          let da := c.f 0x38 8
          if c.opt 4 && !(decide (daRegion da ≤ 1) && s.hw.rangeInPaddock o.own da o.storedBytes) then plEnd s c 6
          else plEnd (s.onHw fun h => h.setObj c.handle { o with altNode := c.f 0x2E 2, hasAlt := c.opt 4, altDa := if c.opt 4 then da else 0 }) c 0
        | 11 => plDraft s c o
        | 12 => plEnd (s.onHw fun h => let (o, h) := h.dropDraft o; h.setObj c.handle o) c 0
        | 13 => plBind s c
        | _ => plEnd s c 6

/-- A deferred command could start: the object is resident with no pin (R202). -/
def Obj.deferReady (o : Obj) : Bool := o.deferred.isSome && o.state.resident && !o.pinned

/-- A command arrives at its home: PIN and UNPIN at once; others after the object's earlier waiting commands, or when they can start (R200, R201). -/
def State.plArrive (s : State) (c : PlCmd) : Nat × State :=
  let home := s.hw.homeOf c.handle
  let q := s.hw.plQueue home
  let hold := s.onHw fun h => { h with plq := Tab.set h.plq home.val (q ++ [c]) }
  let behind := c.code ≠ 5 && c.code ≠ 6 && (q.any (fun x => x.handle = c.handle) ||
    (match s.hw.obj c.handle with | some o => o.deferReady | none => false))
  if behind then (255, hold)
  else match plTry s c with
    | .wait => (255, hold)
    | .done st s => (st, s)

/-- A command with an argument record, from a unit that stages none: the Ringmaster's object table, a sweep (R208, R254). -/
def State.plIssue (s : State) (code arg : Nat) (n : Paddock) : Nat × State :=
  let c : PlCmd := ⟨code, arg, n.val, s.hw.plNext⟩
  (s.onHw fun h => { h with plNext := h.plNext + 1 }).plArrive c

/-- The argument record a path has staged at a placement page. -/
def Hw.plRecord (h : Hw) (p : Path) (f : Field) : Nat :=
  (List.range 16).foldl (fun v i => v + (h.argOf p (pgPlace f + Reg.placement.pcArg0 + 4 * i)).toNat <<< (32 * i)) 0
/-- The paddock a command is issued for: an S-core's own; else REQ_PADDOCK (R199). -/
def Hw.plPaddock (h : Hw) (p : Path) (arg : Nat) : Option Paddock :=
  match p with
  | .score cl => h.paddockOfCluster cl
  | .ue f _ => h.paddockOfField f
  | _ =>
    let n : Paddock := ⟨bitsOf arg (8 * 0x1C) 8 % 4, Nat.mod_lt _ (by decide)⟩
    if bitsOf arg (8 * 0x1C) 8 > 3 then none
    else match p.host with
      | some x => if h.holds x n.val then some n else none
      | none => some n
/-- A malformed record (R218). -/
def Hw.plMalformed (h : Hw) (code arg : Nat) (n : Paddock) : Bool :=
  let da := bitsOf arg (8 * 0x10) 64
  let tier := bitsOf arg (8 * 6) 8
  decide (bitsOf arg (8 * 7 + 5) 3 ≠ 0) || ((code = 1 || code = 2) && decide (tier > 2)) || (code = 13 && decide (tier > 15)) ||
  (da ≠ 0 && !(decide (daRegion da ≤ 2) && decide (da < 2 ^ 56) && h.rangeInPaddock n da (if code = 8 then 144 else 16)))

/-- A placement command written to a controller's page (R199, R200, R218). -/
def plCommand (p : Path) (f : Field) (code : Nat) (s : State) : State :=
  let pg := pgPlace f
  runCmd s p pg code (s.hw.mayCommand p pg none) [0, 1] fun s =>
    let arg := s.hw.plRecord p f
    match s.hw.plPaddock p arg with
    | none => (.badArg, s)
    | some n =>
      let home := s.hw.homeOf (bitsOf arg 0 48)
      if s.hw.plMalformed code arg n then (.badArg, s)
      else if s.hw.blkState pg = 1 || decide ((s.hw.plQueue home).length ≥ 64) then (.busy, s.onHw fun h => h.raise pg 8)
      else
        let s := if home = f then s else s.onHw fun h => h.count (pg + Reg.placement.pcForwarded) 0 32 1
        (.ok, (s.plIssue code arg n).2)

/-- PLACE. -/
def execPlace (p : Path) (f : Field) (s : State) : Res := .next (plCommand p f 0x01 s)
/-- PROMOTE. -/
def execPromote (p : Path) (f : Field) (s : State) : Res := .next (plCommand p f 0x02 s)
/-- DEMOTE. -/
def execDemote (p : Path) (f : Field) (s : State) : Res := .next (plCommand p f 0x03 s)
/-- EVICT. -/
def execEvict (p : Path) (f : Field) (s : State) : Res := .next (plCommand p f 0x04 s)
/-- PIN. -/
def execPin (p : Path) (f : Field) (s : State) : Res := .next (plCommand p f 0x05 s)
/-- UNPIN. -/
def execUnpin (p : Path) (f : Field) (s : State) : Res := .next (plCommand p f 0x06 s)
/-- FREE. -/
def execFree (p : Path) (f : Field) (s : State) : Res := .next (plCommand p f 0x07 s)
/-- QUERY. -/
def execQuery (p : Path) (f : Field) (s : State) : Res := .next (plCommand p f 0x08 s)
/-- SET_POLICY. -/
def execSetPolicy (p : Path) (f : Field) (s : State) : Res := .next (plCommand p f 0x09 s)
/-- SET_ALT. -/
def execSetAlt (p : Path) (f : Field) (s : State) : Res := .next (plCommand p f 0x0A s)
/-- MAKE_DRAFT. -/
def execMakeDraft (p : Path) (f : Field) (s : State) : Res := .next (plCommand p f 0x0B s)
/-- DROP_DRAFT. -/
def execDropDraft (p : Path) (f : Field) (s : State) : Res := .next (plCommand p f 0x0C s)
/-- BIND_WINDOW. -/
def execBindWindow (p : Path) (f : Field) (s : State) : Res := .next (plCommand p f 0x0D s)

/-- The order of waiting commands on different objects: earliest deadline, then arrival; no deadline comes last (R200). -/
def Hw.plBefore (h : Hw) (a b : PlCmd) : Bool :=
  let key := fun (c : PlCmd) => if c.f 8 8 = 0 then none else some (deadlineStride h.stride (c.f 8 8), c.f 8 8 % 2 ^ 20)
  match key a, key b with
  | some x, some y => decide (x.1 < y.1) || (decide (x.1 = y.1) && (decide (x.2 < y.2) || (x.2 = y.2 && decide (a.arrival < b.arrival))))
  | some _, none => true
  | none, some _ => false
  | none, none => decide (a.arrival < b.arrival)
/-- A waiting command is at the head of its object's commands, and its object has no deferred command ahead of it. -/
def Hw.plHead (h : Hw) (q : List PlCmd) (c : PlCmd) : Bool :=
  !(q.any fun x => x.handle = c.handle && decide (x.arrival < c.arrival)) && !(match h.obj c.handle with | some o => o.deferReady | none => false)
/-- A waiting command could start now. -/
def State.plCan (s : State) (q : List PlCmd) (c : PlCmd) : Bool :=
  s.hw.plHead q c && (match plTry s c with | .wait => false | .done _ _ => true)

/-- QUEUED_COMMAND_START: a waiting command starts once its object's state allows, the earliest deadline first (R200). -/
def execQueuedCommandStart (f : Field) (i : Nat) (s : State) : Res :=
  let q := s.hw.plQueue f
  .next <| match q[i]? with
  | some c =>
    if s.plCan q c && !(q.any fun x => s.hw.plBefore x c && s.plCan q x) then
      let t := s.onHw fun h => { h with plq := Tab.set h.plq f.val (q.eraseIdx i) }
      (match plTry t c with
       | .wait => s
       | .done _ t => t)
    else s
  | none => s

/-- A transition ends well: the object's new state, and the commands that complete now. -/
def State.transitEnd (s : State) (handle : Nat) (o : Obj) (t : Transit) (status : Nat) : State :=
  (s.onHw fun h => h.setObj handle { o with transit := none }).plCompleteAll (t.cmds.map (·.2)) status

/-- A transition fails: what it allocated is released and the object keeps its previous resident state (R216). -/
def State.transitFail (s : State) (handle : Nat) (o : Obj) (t : Transit) (status : Nat) : State :=
  let h := s.hw
  let (o, h) := if o.inT0 then (o, h) else h.dropT0 o
  let (o, h) := if o.inT1 then (o, h) else h.dropT1 o
  let (o, h) := if o.inT2 then (o, h) else ({ o with t2Pages := 0 }, h.uncharge o.own 2 (4096 * o.t2Pages))
  let h := h.setObj handle (h.move { o with fail := satAdd 32 o.fail (if status = 9 then 1 else 0) } t.was)
  let h := if status = 9 then h.count (pdCounter o.own Reg.placeGlobal.paddock0ReadFail) 0 32 1 else h
  match h.obj handle with
  | some o => ({ s with hw := h } : State).transitEnd handle o t status
  | none => { s with hw := h }

/-- Bytes of a write-back from T0 as a T1 or T2 copy holds them: the offset of each piece; none over budget. -/
def writeBack (m : List Host.Cell) (o : Obj) (table : List Byte) : Option (List (Nat × List Byte)) :=
  let bytes := memBytes m o.t0Da o.size
  match o.comp, codecFmt o.nfw with
  | true, some w =>
    let (idx, dat, ok) := compWrite w table o.size o.budget bytes
    if ok then some [(256, idx), (compDataOff o.size, dat)] else none
  | _, _ => some [(0, bytes)]

/-- TRANSITION_DONE: the copy of a transition has ended (R200, R203, R216). -/
def execTransitionDone (f : Field) (h : Handle) (k : CopyResult) (s : State) : Res :=
  let hd := h.toNat
  .next <| match s.hw.obj hd with
  | none => s
  | some o =>
    match o.transit with
    | none => s
    | some t =>
      if s.hw.homeOf hd ≠ f then s
      else match k with
      | .readFail => s.transitFail hd o t 9
      | .unreachable => s.transitFail hd o t 10
      | .ok data =>
        match o.state with
        | .promT1 =>
          let s := s.store none f.val o.t1Da (data.take o.storedBytes) plainInfo
          if t.target = 1 then s.transitEnd hd (s.hw.move { o with inT1 := true } .t1) t 0
          else
            let now := t.cmds.filter fun x => x.1 = 1
            let o := s.hw.move { o with inT1 := true, transit := some { t with was := .t1, cmds := t.cmds.filter fun x => x.1 ≠ 1 } } .promT0
            (s.onHw fun h => h.setObj hd o).plCompleteAll (now.map (·.2)) 0
        | .promT0 =>
          (match objT1Bytes s.mem o with
           | some bytes => (s.store none f.val o.t0Da bytes plainInfo).transitEnd hd (s.hw.move { o with inT0 := true } .t0) t 0
           | none => s.transitFail hd o t 9)
        | .demoting =>
          (match (if t.discard then some [] else writeBack s.mem o (memBytes s.mem o.t1Da 256)) with
           | some ps =>
             let s := ps.foldl (fun s p => s.store none f.val (o.t1Da + p.1) p.2 plainInfo) s
             let (o, h) := s.hw.dropT0 o
             let o := { o with inT1 := o.inT1 || !t.discard }
             ({ s with hw := h } : State).transitEnd hd (h.move o (if o.inT1 then .t1 else .t2)) t 0
           | none => s.transitFail hd o t 5)
        | .evicting =>
          let copy := if t.discard then some [] else if o.inT0 then writeBack s.mem o (memBytes s.mem o.t1Da 256) else some [(0, memBytes s.mem o.t1Da o.storedBytes)]
          (match copy with
           | some ps =>
             let s := ps.foldl (fun s p => s.onHw fun h => h.emit (.t2Write hd o.t2Node p.1 p.2)) s
             let (o, h) := s.hw.dropT0 o
             let (o, h) := h.dropDraft o
             let (o, h) := h.dropT1 o
             ({ s with hw := h } : State).transitEnd hd (h.move { o with inT2 := o.inT2 || !t.discard } .t2) t 0
           | none => s.transitFail hd o t 5)
        | _ => s

/-- DEFERRED_COMMAND_START: the deferred DEMOTE or EVICT starts once the object is resident with no pin (R202). -/
def execDeferredCommandStart (f : Field) (h : Handle) (s : State) : Res :=
  let hd := h.toNat
  .next <| match s.hw.obj hd with
  | some o =>
    (match o.deferred with
     | some d =>
       if s.hw.homeOf hd = f && o.deferReady then
         let o := { o with deferred := none }
         (match plLower (s.onHw fun h => h.setObj hd o) hd o d.evict d.discard d.cmds with
          | some (_, t) => t
          | none => s)
       else s
     | none => s)
  | none => s

/-- ZERO_FILL_DONE: a released span holds zeros with valid check codes and is free again (R187). -/
def execZeroFillDone (i : Nat) (s : State) : Res :=
  .next <| match s.hw.fills[i]? with
  | some x =>
    let inside := fun (q : Nat) => decide (if daRegion x.base = 0 then
        (daRegion q = 1 ∧ (deinterleave q).1.val = bitsOf x.base 41 2 ∧ bitsOf x.base 0 41 ≤ (deinterleave q).2 ∧ (deinterleave q).2 < bitsOf x.base 0 41 + x.len)
      else (x.base % 2 ^ 56 ≤ q ∧ q < x.base % 2 ^ 56 + x.len))
    let touched := if daRegion x.base = 2 then [] else
      (List.range 96).filterMap fun j =>
        let n := if daRegion x.base = 1 then (if siteOf x.base = j then x.len else 0)
          else (let (a, b) := x.pages 41
                let y : Span := ⟨siteAddr j 0, 64 <<< 30⟩
                if y.ring = x.ring then 4096 * ((b + 24 - y.siteIdx) / 24 - (a + 23 - y.siteIdx) / 24) else 0)
        if n = 0 then none else some (j, n)
    { s with
      mem := s.mem.filter fun c => !inside c.1
      hw := touched.foldl (fun h p => if hp : p.1 < 96 then
          (let k := sitePage ⟨p.1, hp⟩ + Reg.msite.msBytesWrLo; h.setReg64 k (h.reg64 k + p.2)) else h)
        { s.hw with fills := s.hw.fills.eraseIdx i } }
  | none => s

/-- MS_CLEAR_COUNTERS (R217). -/
def execMsClearCounters (p : Path) (i : Site) (s : State) : Res :=
  .next <| plainCmd s p (sitePage i) 0x01 (s.hw.mayCommand p (sitePage i) none) [3, 4] fun h =>
    h.clearRegs (sitePage i) [Reg.msite.msCrcErr, Reg.msite.msDecompErr, Reg.msite.msBytesRdLo, Reg.msite.msBytesRdHi, Reg.msite.msBytesWrLo, Reg.msite.msBytesWrHi]

end Sys2Proof.Machine
end

