-- ==== Sys2Proof/Machine/Mover.lean ====
section
/-! DEFINITION. Mover channels (R220 to R230): descriptors and their checks, SHADOW and ACTIVE, completion records. -/
namespace Sys2Proof

open Machine

/-- The channel's endpoint: field + cluster × 2^6 + unit × 2^9 (R220). -/
def MvLoc.ep : MvLoc → Nat
  | .cluster cl _ => epNum cl.f.val cl.c.val 8
  | .site s _ => epNum (s.val / 2) 6 (1 + s.val % 2)
  | .port f _ => epNum f.val 6 3
  | .host h _ => epNum (hostField h).val 6 4
/-- The channel number. -/
def MvLoc.ch : MvLoc → Nat
  | .cluster _ c => c.val
  | .site _ c => c.val
  | .port _ c => c.val
  | .host _ c => c.val
/-- Rate of the channel's link, bytes per µs (R234). -/
def MvLoc.rate : MvLoc → Nat
  | .cluster _ _ => 460800
  | .site _ _ => 2000000
  | .port _ _ => 1600000
  | .host _ _ => 128000
/-- A port channel. -/
def MvLoc.isPort : MvLoc → Bool
  | .port _ _ => true
  | _ => false
/-- A host channel's port. -/
def MvLoc.hostPort : MvLoc → Option HostId
  | .host h _ => some h
  | _ => none
/-- The cluster of a cluster channel. -/
def MvLoc.clusterOf : MvLoc → Option ClLoc
  | .cluster cl _ => some cl
  | _ => none
/-- SELECT of the channel as a monitor source: group and cluster (R403). -/
def MvLoc.monSel : MvLoc → Nat
  | .cluster cl c => c.val + 4 <<< 4 + cl.c.val <<< 8
  | .site s c => c.val + (s.val % 2) <<< 4
  | .port _ c => c.val + 2 <<< 4
  | .host _ c => c.val + 3 <<< 4

namespace Machine

/-- The channel of an endpoint and tag. -/
def mvOfEp (ep tag : Nat) : Option MvLoc :=
  let c := bitsOf ep 6 3
  let u := bitsOf ep 9 4
  if hf : ep % 64 < 48 then
    if hc : c < 6 then (if u = 8 ∧ tag < 4 then some (.cluster ⟨⟨ep % 64, hf⟩, ⟨c, hc⟩⟩ ⟨tag % 4, Nat.mod_lt _ (by decide)⟩) else none)
    else if c = 6 ∧ (u = 1 ∨ u = 2) ∧ tag < 16 then
      some (.site ⟨(2 * (ep % 64) + (u - 1)) % 96, Nat.mod_lt _ (by decide)⟩ ⟨tag % 16, Nat.mod_lt _ (by decide)⟩)
    else if c = 6 ∧ u = 3 ∧ tag < 8 then some (.port ⟨ep % 64, hf⟩ ⟨tag % 8, Nat.mod_lt _ (by decide)⟩)
    else if c = 6 ∧ u = 4 ∧ tag < 8 ∧ (ep % 64 = 19 ∨ ep % 64 = 28) then
      some (.host (if ep % 64 = 19 then 0 else 1) ⟨tag % 8, Nat.mod_lt _ (by decide)⟩)
    else none
  else none

/-- A channel's state. -/
def Hw.mvAt (h : Hw) (m : MvLoc) : MvState := Tab.get h.mv m.page MvState.empty
/-- A channel's BLK_STATE and MVR_STATUS follow its state (R239). -/
def Hw.mvShow (h : Hw) (m : MvLoc) : Hw :=
  let x := h.mvAt m
  let outst := (x.active.map (·.reads.length)).getD 0
  let drain := match x.active with
    | some a => a.status.isSome || a.ending.isSome || (h.bit (m.page + Reg.mover.mvrCtrl) 0 && !x.paused)
    | none => false
  let h := h.setRegN (m.page + Reg.mover.mvrStatus)
    (b2n x.active.isSome + 2 * b2n x.shadow.isSome + 4 * b2n x.paused + 8 * b2n drain + (min outst 1023) <<< 5 + (min x.records.length 7) <<< 15)
  if h.blkState m.page = 3 then h else h.setBlkState m.page (if x.paused then 2 else b2n x.active.isSome)
/-- Set a channel's state. -/
def Hw.setMv (h : Hw) (m : MvLoc) (x : MvState) : Hw := ({ h with mv := Tab.set h.mv m.page x } : Hw).mvShow m
/-- Set the transfer in ACTIVE. -/
def Hw.setXfer (h : Hw) (m : MvLoc) (x : Xfer) : Hw := h.setMv m { h.mvAt m with active := some x }
/-- The paddock a channel belongs to (R221). -/
def Hw.mvPaddock (h : Hw) (m : MvLoc) : Option Paddock :=
  match m with
  | .cluster cl _ => h.paddockOfCluster cl
  | _ => some ⟨h.fld (m.page + Reg.mover.mvrCtrl) 4 2 % 4, Nat.mod_lt _ (by decide)⟩

/-- A descriptor field: n bytes from an offset (R222). -/
def dF (d off n : Nat) : Nat := bitsOf d (8 * off) (8 * n)
/-- SRC. -/
def dSrc (d : Nat) : Nat := dF d 0x00 8
/-- DST. -/
def dDst (d : Nat) : Nat := dF d 0x08 8
/-- LENGTH. -/
def dLen (d : Nat) : Nat := dF d 0x10 4
/-- ROWS. -/
def dRows (d : Nat) : Nat := dF d 0x14 4
/-- SRC_STRIDE. -/
def dSrcStride (d : Nat) : Int := signOf 64 (dF d 0x18 8)
/-- DST_STRIDE. -/
def dDstStride (d : Nat) : Int := signOf 64 (dF d 0x20 8)
/-- DEADLINE. -/
def dDeadline (d : Nat) : Nat := dF d 0x28 8
/-- HANDLE. -/
def dHandle (d : Nat) : Nat := dF d 0x30 6
/-- FORMAT. -/
def dFormat (d : Nat) : Nat := dF d 0x37 1
/-- FLAGS bit. -/
def dFlag (d i : Nat) : Bool := bitOf (dF d 0x3E 2) i
/-- AUX_DA. -/
def dAux (d : Nat) : Nat := dF d 0x40 8
/-- Format code of SRC_NFW. -/
def dSrcFmt (d : Nat) : Nat := nfwFormat (dF d 0x48 4)
/-- DST_NFW. -/
def dDstNfw (d : Nat) : Nat := dF d 0x4C 4
/-- Format code of DST_NFW. -/
def dDstFmt (d : Nat) : Nat := nfwFormat (dDstNfw d)
/-- CURB_SHARE. -/
def dShare (d : Nat) : Nat := dF d 0x3C 1
/-- CURB_BURST. -/
def dBurst (d : Nat) : Nat := dF d 0x3D 1
/-- UNIT_BASE. -/
def dUnitBase (d : Nat) : Nat := dF d 0x54 4
/-- REMOTE_NODE. -/
def dRemote (d : Nat) : Nat := dF d 0x58 2
/-- Bits of a source element. -/
def dSrcBits (d : Nat) : Nat := nfwBits (dSrcFmt d)
/-- n, the number of source elements (R440). -/
def dElems (d : Nat) : Nat := dLen d * 8 / dSrcBits d
/-- An AIF format's 48-bit variant. -/
def aif48 (fmt : Nat) : Bool := fmt = 9
/-- Bytes of an AIF block (R440). -/
def aifBlockBytes (fmt : Nat) : Nat := if aif48 fmt then 384 else 256
/-- Block size of the narrow format of a BSC transform. -/
def dBlock (d : Nat) : Nat := nfwBlock (if dFormat d = 3 then dDstNfw d else dF d 0x48 4)
/-- The source is at a host bus address. -/
def dSrcHost (d : Nat) : Bool := dFlag d 3
/-- The destination is at a host bus address. -/
def dDstHost (d : Nat) : Bool := dFlag d 4

/-- A range of a descriptor: base, stride, rows, bytes per row; whether it is read and written, and its space: 0 device addresses, 1 the host, 2 another module. -/
structure MvRange where
  base : Nat
  stride : Int
  rows : Nat
  len : Nat
  rd : Bool
  wr : Bool
  space : Nat

/-- The scale bytes that BSC_PACK writes at AUX_DA, with the 16 bytes of T ahead of them (R134, R440). Ahead of address 16 there is no room for T: the range then reaches below 0, which activation refuses (R224). -/
def scaleRange (a n : Nat) (two : Bool) : MvRange :=
  if !two then ⟨a, 0, 1, n, false, true, 0⟩
  else if a < 16 then ⟨a, -16, 2, max n 1, false, true, 0⟩
  else ⟨a - 16, 0, 1, n + 16, false, true, 0⟩
/-- The ranges that a descriptor's own fields name (R440). -/
def descRanges (d : Nat) : List MvRange :=
  let len := dLen d
  let n := dElems d
  let one := fun (base len : Nat) (rd wr : Bool) (space : Nat) => (⟨base, 0, 1, len, rd, wr, space⟩ : MvRange)
  let ss := if dSrcHost d then 1 else 0
  let ds := if dDstHost d then 1 else if dRemote d ≠ 0xFFFF then 2 else 0
  let src := one (dSrc d) len true false ss
  let all : List MvRange := match dFormat d with
   | 0 => [⟨dSrc d, dSrcStride d, dRows d, len, true, false, ss⟩, ⟨dDst d, dDstStride d, dRows d, len, false, true, ds⟩]
   | 1 => [src]
   | 2 => [one (dDst d) len false true ds]
   | 3 => [src, one (dDst d) ((n * nfwBits (dDstFmt d) + 7) / 8) false true ds,
           scaleRange (dAux d) ((n + dBlock d - 1) / dBlock d) (nfwTwoPass (dDstNfw d))]
   | 4 => [src, one (dAux d) ((n + dBlock d - 1) / dBlock d) true false 0, one (dDst d) (4 * n) false true ds]
   | 5 => [src, one (dAux d) ((n + 63) / 64) false true 0]
   | 6 => [src, one (dAux d) (len / aifBlockBytes (dSrcFmt d)) true false 0, one (dDst d) (256 * (len / aifBlockBytes (dSrcFmt d))) false true ds]
   | _ => [src, one (dDst d) len true true ds]
  all.filter fun r => r.rows ≠ 0 && r.len ≠ 0
/-- The range that SRC names, and the auxiliary list that is read (R440). -/
def srcRange (d : Nat) : List MvRange := (descRanges d).take 1
def auxRange (d : Nat) : List MvRange := if dFormat d = 4 ∨ dFormat d = 6 then ((descRanges d).drop 1).take 1 else []
/-- The bounding interval of a range (R224). -/
def MvRange.bounds (r : MvRange) : Int × Int :=
  let last : Int := (r.base : Int) + ((r.rows : Int) - 1) * r.stride
  (min (r.base : Int) last, max (r.base : Int) last + (r.len : Int))
/-- The bounding intervals of two ranges of one space overlap. -/
def MvRange.overlaps (a b : MvRange) : Bool :=
  a.space = b.space && decide (a.bounds.1 < b.bounds.2) && decide (b.bounds.1 < a.bounds.2)

/-- FORMAT accepts the numeric formats of the descriptor (R440). -/
def formatsOk (d : Nat) : Bool :=
  let s := dSrcFmt d
  let t := dDstFmt d
  match dFormat d with
  | 0 => true
  | 1 | 2 => decide (s ≤ 2) && s = t
  | 3 => decide (s ≤ 3) && nfwNarrow t
  | 4 => nfwNarrow s && t = 0
  | 5 => decide (s ≤ 2) && (t = 9 || t = 10)
  | 6 => (s = 9 || s = 10) && t = 0
  | _ => s = 0 && t = 0

/-- The load checks of a descriptor's fields on a channel (R221, R222, R224). -/
def descBad (m : MvLoc) (d : Nat) : Bool :=
  let fmt := dFormat d
  let len := dLen d
  let rs := descRanges d
  let das := (if dSrcHost d || fmt = 2 then [] else [dSrc d]) ++ (if dDstHost d || fmt = 1 || fmt = 5 then [] else [dDst d]) ++ [dAux d]
  let window := fun (a : Nat) => decide (0x10 ≤ daRegion a ∧ daRegion a ≤ 0x1F)
  decide (fmt > 7) || decide (bitsOf (dF d 0x36 1) 3 4 ≠ 0) || decide (bitsOf (dF d 0x3E 2) 5 11 ≠ 0) || !nfwOk (dF d 0x48 4) || !nfwOk (dDstNfw d) ||
  decide (bitsOf (dF d 0x50 2) 10 6 ≠ 0) || decide (bitsOf (dF d 0x52 2) 10 6 ≠ 0) || decide (bitsOf (dUnitBase d) 18 14 ≠ 0) || decide (dUnitBase d % 256 ≠ 0) ||
  decide (dF d 0x5A 6 ≠ 0) || das.any (fun a => decide (a ≥ 2 ^ 56)) ||
  ((fmt = 1 || fmt = 5) && decide (dDst d ≠ 0)) || (!(fmt = 3 || fmt = 4 || fmt = 5 || fmt = 6) && decide (dAux d ≠ 0)) ||
  !formatsOk d || (fmt = 7 && (dDstHost d || decide (dRemote d ≠ 0xFFFF) || decide (daRegion (dDst d) ≠ 2))) || (bitOf (dF d 0x36 1) 7 && dHandle d = 0) || (dShare d ≠ 0 && dBurst d = 0) ||
  (fmt ≠ 0 && (decide (dRows d ≠ 1) || (if fmt = 6 then decide (len % aifBlockBytes (dSrcFmt d) ≠ 0) else decide (len * 8 % dSrcBits d ≠ 0)))) ||
  rs.any (fun a => a.rd && rs.any fun b => b.wr && !(a.wr && b.rd) && a.overlaps b) ||
  (match rs.filter (·.wr) with | [a, b] => a.overlaps b | _ => false) ||
  (!m.isPort && (das.any window || decide (dRemote d ≠ 0xFFFF))) || (m.hostPort.isNone && (dSrcHost d || dDstHost d)) || das.any fun a => daRegion a = 3

/-- A descriptor is loaded into SHADOW (R226): BUSY before the field checks, then BAD_ARG. -/
def Hw.mvLoad (h : Hw) (m : MvLoc) (d : Nat) (ue : Bool) : CmdRes × Hw :=
  let x := h.mvAt m
  if h.fencedPage m.page then (.fenced, h)
  else if x.shadow.isSome || decide (x.records.length ≥ 4) then (.busy, h)
  else if descBad m d then (.badArg, h)
  else (.ok, h.setMv m { x with shadow := some (d, ue), kicks := x.kicks + 1 })

/-- A path may command or write a channel's page: of a host channel, the Ringmaster and its own host only (R221). -/
def Hw.mvMay (h : Hw) (p : Path) (m : MvLoc) : Bool :=
  match m with
  | .host x _ => p = .rm || p.host = some x
  | _ => h.mayCommand p m.page none
/-- Who may LOAD: channels 14 and 15 of a site take the Ringmaster's loads in bring-up only; a host channel its host's while that holds the paddock's lease (R220, R221). -/
def Hw.mvMayLoad (h : Hw) (p : Path) (m : MvLoc) : Bool :=
  match m with
  | .site _ c => if c.val ≥ 14 then p = .rm && !h.bit (pgModule + Reg.module.glbStatus) 0 else true
  | .host _ _ => (match p.host, h.mvPaddock m with | some x, some n => h.holds x n.val | some _, none => false | none, _ => true)
  | _ => true
/-- The descriptor a path has staged (R222). -/
def Hw.mvStaged (h : Hw) (p : Path) (m : MvLoc) : Nat :=
  (List.range 24).foldl (fun v i => v + (h.argOf p (m.page + Reg.mover.mvrShadow0 + 4 * i)).toNat <<< (32 * i)) 0

/-- LOAD (R226). -/
def execMvrLoad (p : Path) (m : MvLoc) (s : State) : Res :=
  .next <| runCmd s p m.page 0x01 (s.hw.mvMay p m) [0, 1, 2] fun s =>
    if !s.hw.mvMayLoad p m then (.badArg, s)
    else
      let (r, h) := s.hw.mvLoad m (s.hw.mvStaged p m) false
      (r, { s with hw := h })

/-- An object is held, or released, for a transfer (R210, R230). -/
def Hw.hold (h : Hw) (handle : Nat) (up : Bool) : Hw :=
  match h.obj handle with
  | some o => h.setObj handle { o with holds := if up then o.holds + 1 else o.holds - 1 }
  | none => h

/-- Remove the oldest record (R228). -/
def Hw.mvTake (h : Hw) (m : MvLoc) : Option (MvRecord × Hw) :=
  let x := h.mvAt m
  match x.records with
  | r :: rest => some (r, h.setMv m { x with records := rest, kicks := x.kicks - 1 })
  | [] => none
/-- An S-core that waits in SMV.WAIT on a channel takes the record that has come (R228). -/
def Hw.smvWake (h : Hw) (m : MvLoc) : Hw :=
  match m with
  | .cluster l c =>
    let q := h.sqAt l
    (match q.wait with
     | some (.mover rd ch) =>
       if ch = c.val then
         match h.mvTake m with
         | some (r, h) => (h.setSq l { h.sqAt l with wait := none }).setX l rd r.status
         | none => h
       else h
     | _ => h)
  | _ => h

/-- A completion record is made, with what follows from it: counters, events, the token, the item's error, watch counts (R146, R228, R302). -/
def Hw.mvRecord (h : Hw) (m : MvLoc) (d status : Nat) (late alt draft reorder refused : Bool) (seq bytes : Nat) (pad : Option Paddock) : Hw :=
  let pg := m.page
  let x := h.mvAt m
  let h := h.setMv m { x with records := x.records ++ [⟨status + 128 * b2n late, b2n alt + 2 * b2n draft + 4 * b2n reorder + 8 * b2n refused, seq % 2 ^ 16, bytes⟩] }
  let good := decide (status ≤ 1)
  let h := h.count (pg + (if good then Reg.mover.mvrDone else Reg.mover.mvrErr)) 0 32 1
  let h := if good then h.watchCommit pg else h.watchDrop pg
  let h := if good then h else h.raise pg 9
  let h := if good || decide (status = 14) then h else match m.clusterOf with
    | some cl => h.emit (.itemError cl pg 8)
    | none => h
  let h := h.smvWake m
  if status = 14 then h
  else
    let h := if dFlag d 2 then h.raise pg 8 else h
    match dFlag d 1, pad with
    | true, some n => h.tokenSignal n none (dF d 0x38 4) 1 (!good)
    | _, _ => h

/-- The channel's next sequence number. -/
def Hw.mvSeq (h : Hw) (m : MvLoc) : Nat × Hw :=
  let x := h.mvAt m
  (x.nextSeq, h.setMv m { x with nextSeq := (x.nextSeq + 1) % 2 ^ 16 })

/-- The committed slot of a paddock: the generation pointer (R241, R298). -/
def Hw.genSlot (h : Hw) (n : Paddock) : Nat := h.fld (pgCommit n + Reg.stepCommit.scProgress) 8 1
/-- The paddock is halted (R242, R293). -/
def Hw.padHalted (h : Hw) (n : Paddock) : Bool := h.slotState n = 4 || h.blkState (pgCommit n) = 7

/-- Ring pages that a T1 interval covers within a site-local interval of a site, and whether they share a byte (R186). -/
def mixMeets (x : Span) (y : Span) : Bool :=
  let j := y.siteIdx
  let a := bitsOf x.base 0 41
  let c := bitsOf y.base 0 36
  let e := c + y.len
  let lo := max (c / 4096) ((a / 4096 + 23 - j) / 24)
  let hi := min ((e - 1) / 4096) (((a + x.len - 1) / 4096 + 24 - j) / 24 - 1)
  let piece := fun (k : Nat) =>
    let p := (24 * k + j) * 4096
    let l := p + (c - k * 4096)
    let r := p + min 4096 (e - k * 4096)
    decide (a < r) && decide (l < a + x.len)
  x.ring = y.ring && decide ((a + x.len - 1) / 4096 ≥ j) && decide (lo ≤ hi) && (decide (hi ≥ lo + 2) || piece lo || piece hi)
/-- Two ranges of device addresses share a stored byte, whichever of regions 0x00 and 0x01 names it (R242). -/
def bytesMeet (x y : Span) : Bool :=
  if x.len = 0 || y.len = 0 then false
  else if daRegion x.base = daRegion y.base || daRegion x.base = 2 || daRegion y.base = 2 then
    decide (x.base < y.base + y.len) && decide (y.base < x.base + x.len)
  else if daRegion x.base = 0 then mixMeets x y else mixMeets y x

/-- Addresses of a range's rows. -/
def MvRange.rowAddrs (r : MvRange) : List Int := (List.range r.rows).map fun (i : Nat) => (r.base : Int) + (i : Int) * r.stride
/-- A window of a paddock: the handle bound to it, if any (R210, R219). -/
def Hw.window (h : Hw) (n : Paddock) (w : Nat) : Option Nat :=
  let k := pgPlaceGlobal + Reg.placeGlobal.paddock0Win0Lo + 0x80 * n.val + 8 * w
  if h.bit (k + 4) 31 then some (h.regN k + (h.fld (k + 4) 0 16) <<< 32) else none
/-- One row of a range passes the activation checks: addresses, population, paddock, windows, objects of optimizer state (R22, R186, R210, R224, R242). -/
def Hw.rowOk (h : Hw) (n : Paddock) (d : Nat) (ue : Bool) (r : MvRange) (a : Int) : Bool :=
  let top : Int := if r.space = 1 then 2 ^ 64 else 2 ^ 56
  if a < 0 ∨ a + (r.len : Int) > top then false
  else
    let a := a.toNat
    if r.space = 1 then true
    else if r.space = 2 then populated a r.len && decide (daRegion a ≤ 2) && decide (a % 16 = 0)
    else if 0x10 ≤ daRegion a ∧ daRegion a ≤ 0x1F then
      match (h.window n (daRegion a - 0x10)).bind h.obj with
      | none => false
      | some o =>
        decide (bitsOf a 0 48 + r.len ≤ o.size) && (!r.rd || o.owner = n.val || bitOf o.share n.val) && (!r.wr || (o.owner = n.val && o.state = .t2))
    else if !(decide (daRegion a ≤ 2) && h.rangeInPaddock n a r.len) then false
    else
      let row : Span := ⟨a, r.len⟩
      (h.objs.filter fun p => p.2.cls = 3).all fun p =>
        let t1 : Span := ⟨p.2.t1Da, if p.2.inT1 then p.2.size else 0⟩
        if !bytesMeet row t1 then true
        else
          let free := ue || (p.2.owner = n.val && h.padHalted n)
          dHandle d = p.1 && (free || (!r.wr && !bytesMeet row ⟨p.2.t1Da + p.2.size / 2, p.2.size / 2⟩))

/-- A compressed object's data as a transfer sees it: element widths, code lengths, table, T1 address. -/
def Hw.codecOf (h : Hw) (m : List Host.Cell) (handle : Nat) : Option (Obj × (Nat × Nat) × List Byte) :=
  match h.obj handle with
  | some o => if o.comp && o.inT1 then (codecFmt o.nfw).map fun w => (o, w, memBytes m o.t1Da 256) else none
  | none => none
/-- The handle whose coded blocks a transfer reads: of DECOMPRESS, or of a window onto a compressed object resident in T1 (R210, R230). -/
def Hw.codedSource (h : Hw) (n : Paddock) (d : Nat) : Option Nat :=
  if dFormat d = 2 then some (dHandle d)
  else if dSrcHost d || dFormat d = 1 then none
  else if 0x10 ≤ daRegion (dSrc d) ∧ daRegion (dSrc d) ≤ 0x1F then
    match h.window n (daRegion (dSrc d) - 0x10) with
    | some w => (h.obj w).bind fun o => if o.comp && (o.state = .t1 || o.state = .t0) then some w else none
    | none => none
  else none
/-- Handle of the object behind a window source. -/
def Hw.windowSource (h : Hw) (n : Paddock) (d : Nat) : Option Nat :=
  if dSrcHost d || dFormat d = 2 then none
  else if 0x10 ≤ daRegion (dSrc d) ∧ daRegion (dSrc d) ≤ 0x1F then h.window n (daRegion (dSrc d) - 0x10) else none

/-- The activation checks (R189, R224, R230, R242): none, or the status to end with. -/
def State.activation (s : State) (n : Paddock) (d : Nat) (ue : Bool) : Option Nat :=
  let h := s.hw
  let rs := descRanges d
  let fmt := dFormat d
  let codec := h.codecOf s.mem (dHandle d)
  if dHandle d ≠ 0 && (h.obj (dHandle d)).isNone then some 2
  else if !(rs.all fun r => r.rowAddrs.all fun a => h.rowOk n d ue r a) then some 2
  else if fmt = 1 ∨ fmt = 2 then
    match codec with
    | none => some 2
    | some (o, w, table) =>
      let alloc : MvRange := ⟨o.t1Da, 0, 1, compBytes o.size o.budget, true, true, 0⟩
      if nfwFormat o.nfw ≠ dSrcFmt d ∨ !h.rangeInPaddock n o.t1Da (compBytes o.size o.budget) ∨ rs.any (fun r => r.overlaps alloc) then some 2
      else if fmt = 2 ∧ dSrc d + dLen d > o.size then some 2
      else if !tableOk w (codeLengths table) then some 3
      else if fmt = 1 ∧ (dLen d + 4095) / 4096 ≠ tableBlocks table then some 2
      else none
  else none

/-- A new transfer. -/
def newXfer (d seq pad : Nat) (ue : Bool) (now id : Nat) : Xfer :=
  { desc := d, seq := seq, pad := pad, fromUe := ue, startAt := now, status := none, ending := none, late := false, alt := false, draft := false, reorder := false,
    refused := false, pos := 0, inPos := 0, outPos := 0, written := 0, sent := 0, acc := 0, red := 0, flushed := false, reads := [], nextId := id, ahead := [], raw := [], segDone := 0,
    pend := [], plainIn := 0, done := 0, sectors := 0, slotAdd := 0, auxAdd := 0, bucket := dBurst d * 1024 * 460800, cycle := now * 9 / 5,
    phase := if dFormat d = 5 || (dFormat d = 3 && nfwTwoPass (dDstNfw d)) then 1 else 2, amax := (0, 0), own := [], agreed := [], units := 0, raw2 := [], held := [] }

/-- HANDOVER: SHADOW becomes ACTIVE and is checked (R224 to R226, R230, R242). -/
def execHandover (m : MvLoc) (s : State) : Res :=
  .next <|
    let x := s.hw.mvAt m
    match x.active, x.shadow with
    | none, some (d, ue) =>
      if x.paused || s.hw.bit (m.page + Reg.mover.mvrCtrl) 0 || s.hw.fencedPage m.page then s
      else
        let s := s.onHw fun h => (h.setMv m { x with shadow := none }).raise m.page 12
        let (seq, h) := s.hw.mvSeq m
        let pad := if ue then h.paddockOfField m.field else h.mvPaddock m
        let fin := fun (h : Hw) (status : Nat) => h.mvRecord m d status false false false false false seq 0 pad
        match pad with
        | none => { s with hw := fin h 2 }
        | some n =>
          if dLen d = 0 ∨ dRows d = 0 then { s with hw := fin h 1 }
          else match ({ s with hw := h } : State).activation n d ue with
            | some st => { s with hw := fin h st }
            | none =>
              let slot := fun (rs : List MvRange) => match h.obj (dHandle d) with
                | some o => if o.cls = 3 && !ue && !h.padHalted n && rs.any (fun r => r.rd && r.space = 0 && r.rowAddrs.any fun a => bytesMeet ⟨a.toNat, r.len⟩ ⟨o.t1Da, o.size⟩) &&
                    h.genSlot n = 1 then o.size / 2 else 0
                | none => 0
              let held := (if dFormat d = 1 ∨ dFormat d = 2 then [dHandle d] else []) ++ (h.windowSource n d).toList
              let h := held.foldl (fun h k => h.hold k true) h
              { s with hw := h.setXfer m { newXfer d seq n.val ue h.clk.now (h.mvAt m).idBase with slotAdd := slot (srcRange d), auxAdd := slot (auxRange d), held := held } }
    | _, _ => s

/-- STOP: the transfer drains and ends with STOPPED (R236). -/
def execMvrStop (p : Path) (m : MvLoc) (s : State) : Res :=
  .next <| plainCmd s p m.page 0x02 (s.hw.mvMay p m) [1, 2] fun h =>
    match (h.mvAt m).active with
    | some x => h.setXfer m { x with ending := x.ending.or (some 13) }
    | none => h
/-- SHADOW is dropped with a status (R236). -/
def Hw.dropShadow (h : Hw) (m : MvLoc) (status : Nat) : Hw :=
  let x := h.mvAt m
  match x.shadow with
  | some (d, ue) =>
    let (seq, h) := (h.setMv m { x with shadow := none, shadowEnd := none }).mvSeq m
    h.mvRecord m d status false false false false false seq 0 (if ue then h.paddockOfField m.field else h.mvPaddock m)
  | none => h
/-- SHADOW ends with a status: at once on a channel with no transfer, else after the transfer in ACTIVE has ended (R236, R237, R356). -/
def Hw.endShadow (h : Hw) (m : MvLoc) (status : Nat) : Hw :=
  let x := h.mvAt m
  if x.active.isSome && x.shadow.isSome then h.setMv m { x with shadowEnd := some (x.shadowEnd.getD status) } else h.dropShadow m status
/-- DROP_SHADOW (R236). -/
def execDropShadow (p : Path) (m : MvLoc) (s : State) : Res :=
  .next <| plainCmd s p m.page 0x03 (s.hw.mvMay p m) [0, 1, 2] fun h => h.dropShadow m 13
/-- COLLECT (R228). -/
def execCollect (p : Path) (m : MvLoc) (s : State) : Res :=
  .next <| runCmd s p m.page 0x04 (s.hw.mvMay p m) [0, 1, 2] fun s =>
    match s.hw.mvTake m with
    | some (r, h) => (.ok, { s with hw := (h.setRegN (m.page + Reg.mover.mvrLast) (r.status + r.flags <<< 8 + r.seq <<< 16)).setReg64 (m.page + Reg.mover.mvrLastBytesLo) r.bytes })
    | none =>
      let x := s.hw.mvAt m
      if x.active.isSome || x.shadow.isSome then (.busy, s)
      else (.ok, s.onHw fun h => h.setFld (m.page + Reg.mover.mvrLast) 0 8 0x7F)
/-- CLEAR_COUNTERS (R239). -/
def execMvrClearCounters (p : Path) (m : MvLoc) (s : State) : Res :=
  .next <| plainCmd s p m.page 0x05 (s.hw.mvMay p m) [0, 1, 2] fun h =>
    h.clearRegs m.page [Reg.mover.mvrDone, Reg.mover.mvrErr, Reg.mover.mvrLateCount, Reg.mover.mvrCurbWait, Reg.mover.mvrBytesLo, Reg.mover.mvrBytesHi]

/-- A write of MVR_CTRL from a path: PAUSE, and PADDOCK from the Ringmaster only (R221). -/
def Hw.mvCtrlMay (h : Hw) (p : Path) (m : MvLoc) : Bool :=
  match m with
  | .host x _ => p = .rm || p.host = some x
  | _ => h.mayWrite p m.page Reg.mover.mvrCtrl
/-- The channel pauses: at once when idle (R235). -/
def Hw.pauseSet (h : Hw) (m : MvLoc) : Hw :=
  let x := h.mvAt m
  let h := h.setBit (m.page + Reg.mover.mvrCtrl) 0 true
  if x.active.isNone && !x.paused then (h.setMv m { x with paused := true }).raise m.page 11 else h.setMv m x
/-- PAUSE_SET (R235). -/
def execPauseSet (p : Path) (m : MvLoc) (s : State) : Res :=
  .next (s.onHw fun h => if h.deadFor p m.page then h else if h.mvCtrlMay p m then h.pauseSet m else h.denied p)
/-- Bytes of a source block of a transform (R235): transfers stop only between blocks. -/
def Xfer.blockBytes (x : Xfer) : Nat :=
  let d := x.desc
  match dFormat d with
  | 1 => 4096
  | 3 => dBlock d * dSrcBits d / 8
  | 4 => dBlock d * dSrcBits d / 8
  | 5 => (if x.phase = 1 then 256 else 1) * 64 * dSrcBits d / 8
  | 6 => aifBlockBytes (dSrcFmt d)
  | _ => 1
/-- Every read issued has been written and every flit accounted (R227). -/
def Xfer.quiet (x : Xfer) : Bool := x.reads.isEmpty && decide (x.acc ≥ x.sent) && x.red = 0
/-- PAUSE_DONE: outstanding reads are written and accounted (R235). -/
def execPauseDone (m : MvLoc) (s : State) : Res :=
  .next (s.onHw fun h =>
    let x := h.mvAt m
    match x.active with
    | some a => if h.bit (m.page + Reg.mover.mvrCtrl) 0 && !x.paused && a.quiet && a.pend.isEmpty then (h.setMv m { x with paused := true }).raise m.page 11 else h
    | none => h)
/-- The channel resumes with a full Curb bucket, or a pending pause is cancelled (R234, R235). -/
def Hw.pauseClear (h : Hw) (m : MvLoc) : Hw :=
  let x := h.mvAt m
  let h := h.setBit (m.page + Reg.mover.mvrCtrl) 0 false
  let a := if x.paused then x.active.map fun a => { a with bucket := dBurst a.desc * 1024 * 460800, cycle := h.clk.now * 9 / 5 } else x.active
  h.setMv m { x with paused := false, active := a }
/-- PAUSE_CLEAR. -/
def execPauseClear (p : Path) (m : MvLoc) (s : State) : Res :=
  .next (s.onHw fun h => if h.deadFor p m.page then h else if h.mvCtrlMay p m then h.pauseClear m else h.denied p)

/-- A channel is fenced: it drains, ends ACTIVE and drops SHADOW with FENCED (R236). -/
def Hw.mvFence (h : Hw) (m : MvLoc) : Hw :=
  let h := (h.setBit (m.page + 0x008) 1 true).endShadow m 4
  let h := match (h.mvAt m).active with
    | some x => h.setXfer m { x with ending := x.ending.or (some 4) }
    | none => h
  h.setBlkState m.page 3
/-- A fence is lifted. -/
def Hw.mvUnfence (h : Hw) (m : MvLoc) : Hw := ((h.setBit (m.page + 0x008) 1 false).setBlkState m.page 0).mvShow m

/-- All channels of the module. -/
def allChannels : List MvLoc :=
  (allClusters.flatMap fun cl => (List.finRange 4).map fun c => MvLoc.cluster cl c) ++
  ((List.finRange 96).flatMap fun i => (List.finRange 16).map fun c => MvLoc.site i c) ++
  ((List.finRange 48).flatMap fun f => (List.finRange 8).map fun c => MvLoc.port f c) ++
  ((List.finRange 2).flatMap fun p => (List.finRange 8).map fun c => MvLoc.host p c)
/-- A step abort on one channel: no further reads, unsent and unaccepted reduction flits go, ACTIVE and SHADOW end ABORTED, its list begins again (R237). -/
def Hw.mvAbort (h : Hw) (m : MvLoc) : Hw :=
  let h := h.endShadow m 14
  let x := h.mvAt m
  h.setMv m { x with active := x.active.map fun a => { a with ending := some 14, red := 0, ahead := [], pend := [] }, listGo := false, listNext := 0 }

/-- SMV.KICK: the descriptor at S-core SRAM address rs1 goes to SHADOW of cluster channel rs2[1:0], FLAGS bit 0 taken from the tracked item; rd ← the result code (R213, R222). -/
def execSmvKick (l : ClLoc) (rd : Fin 32) (a b : Dword) (s : State) : Res :=
  .next <|
    if (s.hw.sqAt l).wait.isSome then s
    else
      let q := s.hw.sqAt l
      let m := MvLoc.cluster l ⟨b.toNat % 4, Nat.mod_lt _ (by decide)⟩
      let d := memNat s.mem (t0Addr l.f.val l.c.val 8 (a.toNat % 2 ^ 21 / 32 * 32)) 96
      let nt := match q.lateItem.bind fun i => q.items[i]? with | some e => e.flags % 2 | none => 0
      let (r, h) := s.hw.mvLoad m (withBits d (8 * 0x3E) 1 nt) false
      { s with hw := h.setX l rd.val r.code }
/-- SMV.WAIT: rd ← the status of the oldest record of channel rs1[1:0], NO_TRANSFER where there is neither record nor transfer; else the S-core waits (R228). -/
def execSmvWait (l : ClLoc) (rd : Fin 32) (a : Dword) (s : State) : Res :=
  .next (s.onHw fun h =>
    let q := h.sqAt l
    let c := a.toNat % 4
    let m := MvLoc.cluster l ⟨c, Nat.mod_lt _ (by decide)⟩
    if q.wait.isSome then h
    else match h.mvTake m with
      | some (r, h) => h.setX l rd.val r.status
      | none =>
        if (h.mvAt m).active.isSome || (h.mvAt m).shadow.isSome then h.setSq l { q with wait := some (.mover rd.val c) }
        else h.setX l rd.val 0x7F)
/-- A T0 address that names a logical cluster and unit, as the map has them now; none where the plan has no such cluster or unit (R208, R238). -/
def Hw.bindT0 (h : Hw) (n : Paddock) (lc u off : Nat) : Option Nat :=
  match h.hostOf n lc with
  | none => none
  | some l =>
    if 1 ≤ u ∧ u ≤ 4 then (h.mcoreSlot l (u - 1)).map fun m => t0Addr m.cl.f.val m.cl.c.val (m.slot.val + 1) off
    else if u = 5 ∨ 8 < u then none
    else some (t0Addr l.f.val l.c.val u off)
/-- An address field of a list descriptor, bound through the map where it lies in region 0x02 (R238). -/
def Hw.bindField (h : Hw) (n : Paddock) (d off : Nat) : Nat :=
  let a := dF d off 8
  if daRegion a = 2 then (match h.bindT0 n (bitsOf a 37 9) (bitsOf a 33 4) (a % 2 ^ 33) with | some x => withBits d (8 * off) 64 x | none => d) else d
/-- A list element binds its T0 addresses through the map, and its deadline to STEP_BASE, as SDL.MAKE does; no deadline stays none (R238). -/
def listDesc (h : Hw) (n : Paddock) (e : Nat) : Nat :=
  let d := [0x00, 0x08, 0x40].foldl (h.bindField n) (e >>> 128)
  if dDeadline d = 0 then d else withBits d (8 * 0x28) 64 (mkDeadline ((h.pad n).stepBase + bitsOf (dDeadline d) 20 44) (dDeadline d))
/-- LIST_ELEMENT_LOAD: the next element of a plan mover list goes to SHADOW once its stride has begun and SHADOW is empty; one that fails the load checks completes with BAD_DESC (R238). -/
def execListElementLoad (m : MvLoc) (s : State) : Res :=
  .next (s.onHw fun h =>
    let x := h.mvAt m
    match h.mvPaddock m, x.list[x.listNext]? with
    | some n, some e =>
      if x.listGo && x.shadow.isNone && decide (x.records.length < 4) && decide (h.stride ≥ (h.pad n).stepBase + e % 2 ^ 32) && !h.fencedPage m.page then
        let d := listDesc h n e
        let h := h.setMv m { x with listNext := x.listNext + 1 }
        let h := h.setFld (m.page + Reg.mover.mvrList) 0 16 (x.listNext + 1)
        (match h.mvLoad m d false with
         | (.ok, h) => h
         | (_, h) =>
           let (seq, h) := h.mvSeq m
           h.mvRecord m d 16 false false false false false seq 0 (some n))
      else h
    | _, _ => h)

end Machine
end Sys2Proof
end

