-- ==== Sys2Proof/Machine/MoverRun.lean ====
section
/-! DEFINITION. Mover transfers under way (R188 to R193, R212 to R216, R225 to R234): reads and Curb, data coming back, transforms, writes, late and failed reads, completion. -/
namespace Sys2Proof.Machine

/-- Change the transfer in ACTIVE. -/
def Hw.onXfer (h : Hw) (m : MvLoc) (f : Xfer → Xfer) : Hw :=
  match (h.mvAt m).active with
  | some x => h.setXfer m (f x)
  | none => h
/-- Flits of a transfer are accounted to its channel. -/
def Hw.mvAccount (h : Hw) (m : MvLoc) (n : Nat) : Hw := h.onXfer m fun x => { x with acc := x.acc + n }
/-- Destination bytes are written. -/
def Hw.mvWrote (h : Hw) (m : MvLoc) (n : Nat) : Hw :=
  let k := m.page + Reg.mover.mvrBytesLo
  (h.onXfer m fun x => { x with written := x.written + n }).setReg64 k (h.reg64 k + n)
/-- A transfer meets its first error (R228). -/
def Hw.mvError (h : Hw) (m : MvLoc) (status : Nat) : Hw := h.onXfer m fun x => { x with status := x.status.or (some status) }
/-- A transfer that meets no error and is not being ended. -/
def Xfer.live (x : Xfer) : Bool := x.status.isNone && x.ending.isNone

/-- A mesh endpoint and the byte offset in it of a stored byte. -/
def physEp (q : Nat) : Nat × Nat :=
  if daRegion q = 1 then (epNum (siteOf q / 2) 6 (1 + siteOf q % 2), bitsOf q 0 36) else (epNum (daField q) (daCluster q) (daUnit q), bitsOf q 0 33)

/-- Bytes to a device address of this module: WRITE flits of up to 256 bytes, cut at 256-byte boundaries. Flits address units of 16 bytes: bytes ahead of the first such boundary are stored at once (notes/assumptions/11.md). -/
def State.mvLocal (s : State) (m : MvLoc) (last : Bool) : Nat → Nat → List Byte → State
  | 0, _, _ => s
  | fuel + 1, a, bytes =>
    if bytes.isEmpty then s
    else
      let odd := decide (a % 16 ≠ 0)
      let n := min bytes.length (if odd then 16 - a % 16 else 256 - a % 256)
      let rest := bytes.drop n
      let s := match physAddr a with
        | none => s
        | some q =>
          if odd then (s.put a (bytes.take n)).onHw fun h => h.mvWrote m n
          else
            let (dep, off) := physEp q
            s.onHw fun h => (h.onXfer m fun x => { x with sent := x.sent + 1 }).inject (epNode m.ep) (mkFlit 1 (last && rest.isEmpty) dep m.ep m.ch (off / 16) (bytes.take n))
      State.mvLocal s m last fuel (a + n) rest
/-- Bytes to another module, as WRITE flits in frames (R323, R335). -/
def Hw.mvRemote (h : Hw) (m : MvLoc) (node group : Nat) (last : Bool) : Nat → Nat → List Byte → Hw
  | 0, _, _ => h
  | fuel + 1, a, bytes =>
    if bytes.isEmpty then h
    else
      let n := min bytes.length (256 - a % 256)
      let rest := bytes.drop n
      let h := match physAddr a with
        | none => h
        | some q =>
          let (dep, off) := physEp q
          ((h.onXfer m fun x => { x with sent := x.sent + 1 }).mvWrote m n).portFlit m.field node group (mkFlit 1 (last && rest.isEmpty) dep m.ep m.ch (off / 16) (bytes.take n))
      Hw.mvRemote h m node group last fuel (a + n) rest
/-- Bytes to an object's T2 copy: OBJ WRITE frames of 256 bytes; a piece that does not begin on a 256-byte boundary has no frame of the manual's and is handed on whole (R338, notes/assumptions/11.md). -/
def Hw.mvT2 (h : Hw) (m : MvLoc) (handle node group : Nat) : Nat → Nat → List Byte → Hw
  | 0, _, _ => h
  | fuel + 1, off, bytes =>
    if bytes.isEmpty then h
    else
      let n := min bytes.length (256 - off % 256)
      let h := h.mvWrote m n
      let h := if off % 256 ≠ 0 then h.emit (.t2Write handle node off (bytes.take n))
        else
          let h := (h.onXfer m fun x => { x with sent := x.sent + 1 }).streamOut m.field m.ep m.ch 1
          h.routeFrameWith m.field (h.objFrame node group handle (off / 256) 2 false (bytes.take n))
            fun h => (h.streamAcc m.field m.ep m.ch 1).respLocal m.field m.ep m.ch 2 1 0
      Hw.mvT2 h m handle node group fuel (off + n) (bytes.drop n)
/-- Bytes to host memory, 512 at a time (R356). -/
def Hw.mvHost (h : Hw) (m : MvLoc) (p : HostId) : Nat → Nat → List Byte → Hw
  | 0, _, _ => h
  | fuel + 1, a, bytes =>
    if bytes.isEmpty then h
    else Hw.mvHost ((h.emit (.hostWrite p m.ch a (bytes.take 512))).mvWrote m (min 512 bytes.length)) m p fuel (a + 512) (bytes.drop 512)

/-- Bytes to a destination address of a descriptor. -/
def State.mvTo (s : State) (m : MvLoc) (x : Xfer) (a : Nat) (bytes : List Byte) (last : Bool) (info : Nat → WriteInfo) : State :=
  let d := x.desc
  let n : Paddock := ⟨x.pad % 4, Nat.mod_lt _ (by decide)⟩
  let fuel := bytes.length + 1
  match dDstHost d, m.hostPort with
  | true, some p => s.onHw fun h => h.mvHost m p fuel a bytes
  | _, _ =>
    if dRemote d ≠ 0xFFFF then s.onHw fun h => h.mvRemote m (dRemote d) (h.groupId n) last fuel a bytes
    else if 0x10 ≤ daRegion a ∧ daRegion a ≤ 0x1F then
      s.onHw fun h => match h.window n (daRegion a - 0x10) with
        | some w => (match h.obj w with | some o => h.mvT2 m w o.t2Node (h.groupId n) fuel (bitsOf a 0 48) bytes | none => h)
        | none => h
    else (s.onHw fun h => h.watchWrite (some m.page) m.field.val a bytes info).mvLocal m last fuel a bytes

/-- Address of a stream position: row by row of LENGTH bytes. -/
def rowAddr (base : Nat) (stride : Int) (len pos : Nat) : Nat := ((base : Int) + ((pos / len : Nat) : Int) * stride).toNat + pos % len
/-- Bytes of a source pass, uncompressed. -/
def srcBytes (d : Nat) : Nat := dLen d * dRows d
/-- The coded blocks a transfer reads, in order: block, and the part of it that is wanted (R192, R230). -/
def Hw.codedSegs (h : Hw) (x : Xfer) : List (Nat × Nat × Nat) :=
  let d := x.desc
  match h.codedSource ⟨x.pad % 4, Nat.mod_lt _ (by decide)⟩ d with
  | none => []
  | some _ =>
    (List.range (dRows d)).flatMap fun r =>
      let o := bitsOf (rowAddr (dSrc d) (dSrcStride d) (dLen d) (r * dLen d)) 0 48
      (List.range ((o + dLen d - 1) / 4096 - o / 4096 + 1)).map fun i =>
        let b := o / 4096 + i
        (b, max o (4096 * b) - 4096 * b, min (o + dLen d) (4096 * b + 4096) - 4096 * b)
/-- Index entry of a block: CRC-32, sectors, sector offset (R188). -/
def blockIndex (m : List Host.Cell) (o : Obj) (b : Nat) : Nat × Nat × Nat :=
  let e := memBytes m (o.t1Da + 256 + 16 * b) 16
  (leAt e 0 4, leAt e 4 1, leAt e 8 8)
/-- Bytes of a block as stored. -/
def blockStored (sec : Nat) : Nat := 256 * min sec 16
/-- Where the coded stream stands at a position: the address and the bytes left in its block. -/
def codedAt (m : List Host.Cell) (o : Obj) : List (Nat × Nat × Nat) → Nat → Option (Nat × Nat)
  | [], _ => none
  | (b, _, _) :: r, pos =>
    let (_, sec, off) := blockIndex m o b
    let n := blockStored sec
    if pos < n then some (o.t1Da + compDataOff o.size + 256 * off + pos, n - pos) else codedAt m o r (pos - n)

/-- Where a transfer reads next. -/
inductive ReadAt where
  | da (a : Nat)
  | t2 (handle node off : Nat)
  | host (a : Nat)
  deriving DecidableEq, Repr

/-- The next piece of the source stream: where it lies and how long a read may be (R225). -/
def State.nextRead (s : State) (x : Xfer) : Option (ReadAt × Nat) :=
  let h := s.hw
  let d := x.desc
  let n : Paddock := ⟨x.pad % 4, Nat.mod_lt _ (by decide)⟩
  let cut := fun (a room : Nat) => min (min room (4096 - a % 4096)) (if dShare d ≠ 0 ∧ dBurst d < 4 then 1024 * dBurst d else 4096)
  match (h.codedSource n d).bind h.obj with
  | some o => (codedAt s.mem o (h.codedSegs x) x.pos).map fun (a, room) => (.da a, cut a room)
  | none =>
    if x.pos ≥ srcBytes d then none
    else
      let a := rowAddr (dSrc d) (dSrcStride d) (dLen d) x.pos
      let room := dLen d - x.pos % dLen d
      if dSrcHost d then some (.host a, cut a room)
      else match h.windowSource n d with
        | some w =>
          (match h.obj w with
           | some o => if o.state = .t1 ∨ o.state = .t0 then some (.da (o.t1Da + bitsOf a 0 48), cut (o.t1Da + bitsOf a 0 48) room)
             else some (.t2 w o.t2Node (bitsOf a 0 48), cut a room)
           | none => none)
        | none => some (.da (a + x.slotAdd), cut (a + x.slotAdd) room)

/-- The object a transfer names, and the offset in its T0 or T1 copy of a source address (R229). -/
def Hw.inCopy (h : Hw) (d a : Nat) : Option (Obj × Nat) :=
  match h.obj (dHandle d) with
  | some o =>
    if o.inT0 ∧ o.t0Da ≤ a ∧ a < o.t0Da + o.size then some (o, a - o.t0Da)
    else if o.inT1 ∧ o.t1Da ≤ a ∧ a < o.t1Da + o.storedBytes then some (o, a - o.t1Da)
    else none
  | none => none
/-- The deadline policy of a transfer (R211). -/
def Hw.policy (h : Hw) (d : Nat) : Nat :=
  let p := dF d 0x36 1
  if bitOf p 7 then ((h.obj (dHandle d)).map (·.policy)).getD 0 else p
/-- The bytes of an object as its draft gives them: q × s rounded to the object's format (R193). -/
def draftBytes (m : List Host.Cell) (o : Obj) (off len : Nat) : List Byte :=
  let f := nfwFmt (nfwFormat o.nfw)
  let eb := f.bits / 8
  let n := o.size / eb
  let dataLen := ((n + 1) / 2 + 255) / 256 * 256
  let e0 := off / eb
  let e1 := (off + len + eb - 1) / eb
  let all := (List.range (e1 - e0)).flatMap fun i =>
    let e := e0 + i
    let code := bitsOf (memNat m (o.draftDa + e / 2) 1) (4 * (e % 2)) 4
    leBytes eb (f.ofVal (narrowVal e2m1 true (memNat m (o.draftDa + dataLen + e / 16) 1) code) true).1
  sliceD all (off - e0 * eb) len 0

/-- A read leaves the channel: as a READ_REQ flit, an OBJ frame or a host read; the return offset carries its number. -/
def Hw.sendRead (h : Hw) (m : MvLoc) (x : Xfer) (w : ReadAt) (alt : Bool) (id len : Nat) : Hw :=
  let n : Paddock := ⟨x.pad % 4, Nat.mod_lt _ (by decide)⟩
  let ret := (id % 512) * 512
  match w with
  | .da a =>
    (match physAddr a with
     | some q =>
       let (dep, off) := physEp q
       h.inject (epNode m.ep) (mkFlit 2 true dep m.ep m.ch 0 (leBytes 8 off ++ leBytes 4 len ++ leBytes 4 ret))
     | none => h)
  | .t2 handle node off =>
    let h := h.streamOut m.field m.ep m.ch ((len + off % 256 + 255) / 256)
    h.routeFrameWith m.field (h.objFrame node (h.groupId n) handle (off / 256) (if alt then 3 else 1) alt
        (leBytes 4 (len + off % 256) ++ leBytes 6 (h.reg64 (pgCommit n + Reg.stepCommit.stepCommittedLo)) ++ leBytes 6 0 ++ leBytes 8 (m.ep + m.ch <<< 16) ++ leBytes 4 0 ++ leBytes 4 ret))
      fun h => (h.streamAcc m.field m.ep m.ch ((len + off % 256 + 255) / 256)).respLocal m.field m.ep m.ch 2 1 (readMark ret)
  | .host a => (match m.hostPort with | some p => h.emit (.hostRead p m.ch a len id) | none => h)
/-- A read is issued and kept as outstanding. -/
def Hw.startRead (h : Hw) (m : MvLoc) (w : ReadAt) (pos len : Nat) (alt : Bool) : Hw :=
  match (h.mvAt m).active with
  | none => h
  | some x =>
    let skip := match w with | .t2 _ _ off => off % 256 | _ => 0
    let a := match w with | .da a | .host a => a | .t2 _ _ off => off
    let h := h.setXfer m { x with nextId := (x.nextId + 1) % 512, reads := x.reads ++ [⟨x.nextId, a, len, pos, skip, [], alt, false⟩] }
    h.sendRead m x w alt x.nextId len
/-- Where the alternate holds what a source address names: ALT_DA, else ALT_NODE (R215). -/
def Hw.altOf (h : Hw) (x : Xfer) (a : Nat) : Option ReadAt :=
  match h.inCopy x.desc a with
  | some (o, off) =>
    if o.hasAlt then some (.da (o.altDa + off)) else if o.altNode ≠ 0xFFFF then some (.t2 (dHandle x.desc) o.altNode off) else none
  | none => none

/-- Bytes join the stream in order; what came ahead of its turn waits. -/
def takeAhead (x : Xfer) : Nat → Xfer
  | 0 => x
  | fuel + 1 =>
    match Tab.find x.ahead x.inPos with
    | some b => takeAhead { x with ahead := Tab.erase x.ahead x.inPos, raw := x.raw ++ b, inPos := x.inPos + b.length } fuel
    | none => x

/-- What one step of conversion answers: the transfer, bytes to write with what the watch is told of them, an error. -/
structure Conv where
  x : Xfer
  outs : List (Nat × List Byte × (Nat → WriteInfo))
  err : Option Nat

/-- A RED unit of a transfer: its flits by GPOS (R172, R173). -/
def redFlits (m : MvLoc) (rid unit : Nat) (bytes : List Byte) : List Flit :=
  (List.range (bytes.length / 256)).map fun g =>
    mkFlit 6 (decide (g + 1 = bytes.length / 256)) m.ep m.ep m.ch (rid + unit <<< 10 + g <<< 28) (sliceD bytes (256 * g) 256 0)
/-- Units go into their tree (R232). -/
def Hw.mvRed (h : Hw) (m : MvLoc) (ks : List Flit) : Hw :=
  ks.foldl (fun h k => h.inject (epNode m.ep) k) (h.onXfer m fun x => { x with red := x.red + ks.length })

/-- Blocks of the exponent and data phases of AIF_PACK. -/
def aifBlocks (d : Nat) : Nat := (dElems d + 63) / 64
/-- Values of a packed source list of a format, padded with zeros to n. -/
def srcVals (d : Nat) (bytes : List Byte) (n : Nat) : List FpVal :=
  let f := nfwFmt (dSrcFmt d)
  (List.range n).map fun i => if (i + 1) * f.bits ≤ bytes.length * 8 then f.decode (packedElem bytes f.bits i) else .fin false 0 0
/-- A magnitude reaches 2^b (R232). -/
def reaches (v : FpVal) (b : Int) : Bool :=
  match v with
  | .fin _ m e => dyLe 1 b m e
  | _ => true

/-- Conversion of the plain bytes at hand (R230 to R233): none where no whole block is there. -/
def convert (m : List Host.Cell) (h : Hw) (x : Xfer) : Option Conv :=
  let d := x.desc
  let atEnd := decide (x.plainIn ≥ srcBytes d)
  if x.pend.isEmpty then none
  else match dFormat d with
  | 0 | 2 =>
    let rowLen := dLen d
    let a := if dFormat d = 2 then dDst d + x.outPos else rowAddr (dDst d) (dDstStride d) rowLen x.outPos
    let left := rowLen - x.outPos % rowLen
    let n := if x.pend.length ≥ left then left else x.pend.length - (a + x.pend.length) % 256
    if n = 0 ∨ (x.pend.length < left ∧ x.pend.length < (a + x.pend.length) % 256) then none
    else some ⟨{ x with pend := x.pend.drop n, outPos := x.outPos + n }, [(a, x.pend.take n, plainInfo)], none⟩
  | 1 =>
    if x.pend.length < 4096 ∧ !atEnd then none
    else match h.codecOf m (dHandle d) with
      | none => some ⟨x, [], some 2⟩
      | some (o, w, table) =>
        let blk := sliceD x.pend 0 4096 0
        let (sec, data) := encodeBlock w (codeLengths table) blk
        if x.sectors + sec > o.budget then some ⟨x, [], some 12⟩
        else
          let entry := leBytes 4 (crc32 blk) ++ leBytes 1 sec ++ leBytes 3 0 ++ leBytes 8 x.sectors
          some ⟨{ x with pend := x.pend.drop 4096, sectors := x.sectors + sec, done := x.done + 1 },
            [(o.t1Da + compDataOff o.size + 256 * x.sectors, data, plainInfo), (o.t1Da + 256 + 16 * x.done, entry, plainInfo)], none⟩
  | 3 =>
    let f := nfwFmt (dSrcFmt d)
    if x.phase = 1 then
      let n := x.pend.length * 8 / f.bits
      if n = 0 then none
      else
        let x1 := { x with pend := x.pend.drop (n * f.bits / 8), amax := dyMax x.amax (amaxOf (srcVals d (x.pend.take (n * f.bits / 8)) n)) }
        some ⟨x1, [], none⟩
    else
      let t := nfwFmt (dDstFmt d)
      let e5 := nfwE5M3 (dDstNfw d)
      let bl := dBlock d
      let bb := bl * f.bits / 8
      let nb := if atEnd then (x.pend.length + bb - 1) / bb else x.pend.length / bb
      if nb = 0 then none
      else
        let two := nfwTwoPass (dDstNfw d)
        let ts := if two then fp32Mag (tensorScale t e5 x.amax) else (1, 0)
        let n := min (nb * bl) (x.pend.length * 8 / f.bits)
        let vals := srcVals d x.pend n
        let blocks := (List.range nb).map fun i => writeBlock t e5 ts ((vals.drop (i * bl)).take bl)
        let outs := blocks.flatMap (·.2)
        some ⟨{ x with pend := x.pend.drop (nb * bb), done := x.done + nb },
          [(dDst d + x.done * bl * t.bits / 8, packBytes t.bits (outs.map (·.code)), fun i =>
              let o := outs.getD i ⟨0, false, false, 0⟩
              ⟨o.sat, o.under, some (e5, (blocks.getD (i / bl) (0, [])).1)⟩),
           (dAux d + x.done, blocks.map (fun b => BitVec.ofNat 8 b.1), plainInfo)], none⟩
  | 4 =>
    let f := nfwFmt (dSrcFmt d)
    let bl := dBlock d
    let bb := bl * f.bits / 8
    let nb := if atEnd then (x.pend.length + bb - 1) / bb else x.pend.length / bb
    if nb = 0 then none
    else
      let n := min (nb * bl) (x.pend.length * 8 / f.bits)
      let e5 := nfwE5M3 (dF d 0x48 4)
      let codes := (List.range n).map fun i =>
        fp32.ofVal (narrowVal f e5 (memNat m (dAux d + x.auxAdd + x.done + i / bl) 1) (packedElem x.pend f.bits i)) true
      some ⟨{ x with pend := x.pend.drop (nb * bb), done := x.done + nb },
        [(dDst d + 4 * x.done * bl, codes.flatMap fun c => leBytes 4 c.1, plainInfo)], none⟩
  | 5 =>
    let eb := (nfwFmt (dSrcFmt d)).bits / 8
    let bb := 64 * eb
    if x.pend.length < bb ∧ !atEnd then none
    else
      let vals := srcVals d (x.pend.take bb) 64
      if x.phase = 1 then some ⟨{ x with pend := x.pend.drop bb, done := x.done + 1, own := x.own ++ [aifExponent vals] }, [], none⟩
      else
        let c := Tab.get x.agreed x.done 0
        if c ≠ 0 ∧ c ≠ 255 ∧ vals.any (fun v => reaches v ((c : Int) - 127)) then some ⟨x, [], some 11⟩
        else some ⟨{ x with pend := x.pend.drop bb, done := x.done + 1 }, [], none⟩
  | 6 =>
    let w48 := aif48 (dSrcFmt d)
    let bb := aifBlockBytes (dSrcFmt d)
    let nb := x.pend.length / bb
    if nb = 0 then none
    else
      let outs := (List.range (64 * nb)).map fun i =>
        aifDecode w48 (memNat m (dAux d + x.auxAdd + x.done + i / 64) 1) (packedElem (sliceD x.pend (i / 64 * bb) bb 0) (aifWidth w48) (i % 64))
      some ⟨{ x with pend := x.pend.drop (nb * bb), done := x.done + nb },
        [(dDst d + 256 * x.done, outs.flatMap fun o => leBytes 4 o.code, fun i => let o := outs.getD i ⟨0, false, false, 0⟩; ⟨o.sat, o.under, none⟩)], none⟩
  | _ =>
    let n := x.pend.length / 4
    if n = 0 then none
    else
      let a := dDst d + x.outPos
      let sums := (List.range n).flatMap fun i => leBytes 4 (fp32.add (memNat m (a + 4 * i) 4) (leAt x.pend (4 * i) 4)).1
      some ⟨{ x with pend := x.pend.drop (4 * n), outPos := x.outPos + 4 * n }, [(a, sums, plainInfo)], none⟩

/-- Values packed into one AIF block under an agreed byte (R140). -/
def aifBlock (d c : Nat) (vals : List FpVal) : List Byte :=
  let w48 := aif48 (dDstFmt d)
  packBytes (aifWidth w48) (vals.map (aifPack w48 c))

/-- AIF_PACK sends what is ready: exponent units of 256 bytes, or data units of two AIF-48 blocks or one AIF-32 block (R232). -/
def aifReady (m : MvLoc) (before x : Xfer) : Xfer × List Flit :=
  let d := x.desc
  let base := dUnitBase d
  if x.phase = 1 then
    let n := x.own.length
    let full := if n ≥ aifBlocks d then (n + 255) / 256 else n / 256
    ({ x with units := full },
     (List.range (full - x.units)).flatMap fun i =>
       let u := x.units + i
       redFlits m (dF d 0x50 2 % 1024) (base / 256 + u) (sliceD (((x.own.drop (256 * u)).take 256).map fun v => BitVec.ofNat 8 v) 0 256 0))
  else if x.done = before.done then (x, [])
  else
    let bb := 64 * (nfwFmt (dSrcFmt d)).bits / 8
    let blk := aifBlock d (Tab.get x.agreed before.done 0) (srcVals d (before.pend.take bb) 64)
    let w48 := aif48 (dDstFmt d)
    let held := x.raw2 ++ blk
    if !w48 then ({ x with units := x.units + 1 }, redFlits m (dF d 0x52 2 % 1024) (base + before.done) blk)
    else if held.length ≥ 768 ∨ x.done ≥ aifBlocks d then
      ({ x with raw2 := [], units := x.units + 1 }, redFlits m (dF d 0x52 2 % 1024) ((base + before.done) / 2) (sliceD held 0 768 0))
    else ({ x with raw2 := held }, [])

/-- Where a decoded block fails, in the order of R216: the alternate's copy, the draft, else an error. -/
def State.blockFallback (s : State) (m : MvLoc) (x : Xfer) (o : Obj) (w : Nat × Nat) (lens : List Nat) (b : Nat) : Option (List Byte) × State :=
  let h := s.hw
  let n : Paddock := ⟨x.pad % 4, Nat.mod_lt _ (by decide)⟩
  let (crc, sec, off) := blockIndex s.mem o b
  let pol := h.policy x.desc
  let site := physAddr (o.t1Da + compDataOff o.size + 256 * off)
  let h := match site with
    | some q => if hq : siteOf q < 96 then h.count (sitePage ⟨siteOf q, hq⟩ + Reg.msite.msDecompErr) 16 16 1 else h
    | none => h
  let h := (h.count (pdCounter n Reg.placeGlobal.paddock0ReadFail) 0 32 1)
  let h := h.setObj (dHandle x.desc) { o with fail := satAdd 32 o.fail 1 }
  let alt := if bitOf pol 1 && o.hasAlt then
      (decodeBlock w lens sec (memBytes s.mem (o.altDa + compDataOff o.size + 256 * off) (blockStored sec))).filter fun d => crc32 d = crc
    else none
  match alt with
  | some dat => (some dat, { s with hw := (h.count (pdCounter n Reg.placeGlobal.paddock0Alt) 0 32 1).onXfer m fun x => { x with alt := true } })
  | none =>
    if bitOf pol 2 && dFlag x.desc 0 && o.hasDraft then
      (some (draftBytes s.mem o (4096 * b) 4096), { s with hw := (h.count (pdCounter n Reg.placeGlobal.paddock0Draft) 0 32 1).onXfer m fun x => { x with draft := true } })
    else (none, { s with hw := h.mvError m 8 })

/-- Coded bytes in order become plain bytes, block by block, each checked against its CRC-32 (R192); bytes of a source that is not coded are plain as they are. -/
def State.mvDecode (s : State) (m : MvLoc) : Nat → State
  | 0 => s
  | fuel + 1 =>
    match (s.hw.mvAt m).active with
    | none => s
    | some x =>
      let n : Paddock := ⟨x.pad % 4, Nat.mod_lt _ (by decide)⟩
      match (s.hw.codedSource n x.desc).bind fun w => s.hw.codecOf s.mem w with
      | none =>
        if x.raw.isEmpty then s
        else s.onHw fun h => h.setXfer m { x with raw := [], pend := x.pend ++ x.raw, plainIn := x.plainIn + x.raw.length }
      | some (o, w, table) =>
        match (s.hw.codedSegs x)[x.segDone]? with
        | none => s
        | some (b, lo, hi) =>
          let (crc, sec, _) := blockIndex s.mem o b
          let nb := blockStored sec
          if x.raw.length < nb then s
          else
            let lens := codeLengths table
            let (dat, s) := match (decodeBlock w lens sec (x.raw.take nb)).filter fun d => crc32 d = crc with
              | some dat => (some dat, s)
              | none => s.blockFallback m x o w lens b
            match dat with
            | none => s
            | some dat =>
              State.mvDecode (s.onHw fun h => h.onXfer m fun x =>
                { x with raw := x.raw.drop nb, segDone := x.segDone + 1, pend := x.pend ++ (dat.drop lo).take (hi - lo), plainIn := x.plainIn + (hi - lo) }) m fuel

/-- A pass over the source ends: a two-pass pack begins its second pass, with T written to the 16 bytes ahead of the scales (R134, R231). -/
def State.mvPassEnd (s : State) (m : MvLoc) : State :=
  match (s.hw.mvAt m).active with
  | some x =>
    if dFormat x.desc = 3 && x.phase = 1 && decide (x.plainIn ≥ srcBytes x.desc) && x.pend.isEmpty then
      let t := tensorScale (nfwFmt (dDstFmt x.desc)) (nfwE5M3 (dDstNfw x.desc)) x.amax
      let x := { x with phase := 2, pos := 0, inPos := 0, plainIn := 0, segDone := 0 }
      (s.onHw fun h => h.setXfer m x).mvTo m x (dAux x.desc - 16) (leBytes 4 t ++ leBytes 12 0) false plainInfo
    else s
  | none => s
/-- A destination that is written in one action with the sum it forms (R233): ACC_FP32. -/
def State.mvAcc (s : State) (m : MvLoc) (a : Nat) (bytes : List Byte) : State :=
  ((s.onHw fun h => h.watchWrite (some m.page) m.field.val a bytes plainInfo).put a bytes).onHw fun h => h.mvWrote m bytes.length

/-- Plain bytes are converted and written while whole blocks are there (R230 to R233). -/
def State.mvConvert (s : State) (m : MvLoc) : Nat → State
  | 0 => s
  | fuel + 1 =>
    match (s.hw.mvAt m).active with
    | none => s
    | some x =>
      match convert s.mem s.hw x with
      | none => s
      | some c =>
        match c.err with
        | some e => s.onHw fun h => h.mvError m e
        | none =>
          let (x', ks) := if dFormat x.desc = 5 then aifReady m x c.x else (c.x, [])
          let s := s.onHw fun h => (h.setXfer m x').mvRed m ks
          let last := decide (x'.plainIn ≥ srcBytes x.desc) && x'.pend.isEmpty
          let s := if dFormat x.desc = 7 then c.outs.foldl (fun s o => s.mvAcc m o.1 o.2.1) s
            else c.outs.foldl (fun s o => s.mvTo m x' o.1 o.2.1 last o.2.2) s
          State.mvConvert s m fuel
/-- Data at hand is decoded, converted and written. -/
def State.mvAdvance (s : State) (m : MvLoc) : State :=
  match (s.hw.mvAt m).active with
  | some x =>
    let s := s.onHw fun h => h.setXfer m (takeAhead x (x.ahead.length + 1))
    let s := s.mvDecode m (x.ahead.length + x.raw.length + 4096)
    match (s.hw.mvAt m).active with
    | some y => (s.mvConvert m (y.pend.length + 1)).mvPassEnd m
    | none => s
  | none => s

/-- Bytes of the stream arrive at a position. -/
def State.mvBytes (s : State) (m : MvLoc) (pos : Nat) (bytes : List Byte) : State :=
  (s.onHw fun h => h.onXfer m fun x => { x with ahead := Tab.set x.ahead pos bytes }).mvAdvance m

/-- A read is done: its data is delivered unless the other source delivered it first (R212). -/
def State.mvReadDone (s : State) (m : MvLoc) (r : ReadOut) (bytes : List Byte) : State :=
  let s := s.onHw fun h => h.onXfer m fun x =>
    { x with reads := (x.reads.filter fun y => y.id ≠ r.id).map fun y => if y.pos = r.pos then { y with dead := true } else y }
  let live := match (s.hw.mvAt m).active with | some x => x.live | none => false
  if r.dead || !live then s else s.mvBytes m r.pos (sliceD bytes r.skip r.len 0)
/-- A piece of a read's data comes back: its position follows from the return offset (R167). -/
def State.mvReadData (s : State) (m : MvLoc) (off : Nat) (bytes : List Byte) : State :=
  match (s.hw.mvAt m).active with
  | some x =>
    (match x.reads.find? fun r => r.id = off / 512 % 512 with
     | some r =>
       let r := { r with got := Tab.set r.got (off % 512) bytes }
       let all : List Byte := (r.got.map fun p => p.2).flatten
       if all.length ≥ r.skip + r.len then s.mvReadDone m r all
       else s.onHw fun h => h.setXfer m { x with reads := x.reads.map fun y => if y.id = r.id then r else y }
     | none => s)
  | none => s

/-- Draft data for a read, where its source lies in the object's copy (R193, R229). -/
def State.draftFor (s : State) (x : Xfer) (r : ReadOut) : Option (List Byte) :=
  match s.hw.inCopy x.desc r.src with
  | some (o, off) => if o.hasDraft && !o.comp then some (draftBytes s.mem o off r.len) else none
  | none => none
/-- A transfer may use its object's draft: enabled, marked NOT_TRAINING, and there is one (R212, R213). -/
def Hw.mayDraft (h : Hw) (d : Nat) : Bool :=
  bitOf (h.policy d) 2 && dFlag d 0 && (match h.obj (dHandle d) with | some o => o.hasDraft | none => false)

/-- A read fails (R216): its alternate if it has one and this was not it; else the draft; else the transfer ends in error. -/
def State.mvReadFail (s : State) (m : MvLoc) (off status : Nat) : State :=
  match (s.hw.mvAt m).active with
  | none => s
  | some x =>
    match x.reads.find? fun r => r.id = off / 512 % 512 with
    | none => s
    | some r =>
      let n : Paddock := ⟨x.pad % 4, Nat.mod_lt _ (by decide)⟩
      let twin := x.reads.any fun y => y.id ≠ r.id && y.pos = r.pos && !y.dead
      let h := s.hw.setXfer m { x with reads := x.reads.filter fun y => y.id ≠ r.id }
      if r.dead then { s with hw := h }
      else
        let h := h.count (pdCounter n Reg.placeGlobal.paddock0ReadFail) 0 32 1
        let h := match h.obj (dHandle x.desc) with | some o => h.setObj (dHandle x.desc) { o with fail := satAdd 32 o.fail 1 } | none => h
        let s := { s with hw := h }
        if twin then s
        else match (if bitOf (h.policy x.desc) 1 && !r.alt then h.altOf x r.src else none) with
          | some w => s.onHw fun h => ((h.count (pdCounter n Reg.placeGlobal.paddock0Alt) 0 32 1).onXfer m fun x => { x with alt := true }).startRead m w r.pos r.len true
          | none =>
            match (if h.mayDraft x.desc then s.draftFor x r else none) with
            | some b =>
              (s.onHw fun h => (h.count (pdCounter n Reg.placeGlobal.paddock0Draft) 0 32 1).onXfer m fun x => { x with draft := true }).mvBytes m r.pos b
            | none => s.onHw fun h => h.mvError m status

/-- Fabric cycles since the model's time 0: 1.8 GHz (R234). -/
def Hw.cycles (h : Hw) : Nat := h.clk.now * 9 / 5
/-- The channel must not issue: it ends, pauses at a block boundary, or holds 512 reads (R228, R234, R235). -/
def Hw.mvIssueOk (h : Hw) (m : MvLoc) (x : Xfer) : Bool :=
  let paused := (h.mvAt m).paused || (h.bit (m.page + Reg.mover.mvrCtrl) 0 && x.pos % x.blockBytes = 0)
  x.live && !paused && decide (x.reads.length < 512)

/-- MVR_READ_ISSUE: the next read is issued once the Curb bucket covers it (R225, R234). A bucket that does not cover it is waited for: the clock moves on and the cycles count. -/
def execMvrReadIssue (m : MvLoc) (s : State) : Res :=
  .next <|
    match (s.hw.mvAt m).active with
    | none => s
    | some x =>
      if !s.hw.mvIssueOk m x then s
      else
        let n : Paddock := ⟨x.pad % 4, Nat.mod_lt _ (by decide)⟩
        let segs := s.hw.codedSegs x
        let coded := (s.hw.codedSource n x.desc).bind s.hw.obj
        match x.draft && coded.isSome && s.hw.mayDraft x.desc, segs[x.segDone]?, coded with
        | true, some (b, lo, hi), some o =>
          let b := draftBytes s.mem o (4096 * b + lo) (hi - lo)
          (s.onHw fun h => h.setXfer m { x with segDone := x.segDone + 1, pend := x.pend ++ b, plainIn := x.plainIn + b.length }).mvAdvance m
        | true, _, _ => s
        | false, _, _ =>
          match s.nextRead x with
          | none => s
          | some (w, len) =>
            let blk := x.blockBytes
            let len := if s.hw.bit (m.page + Reg.mover.mvrCtrl) 0 then min len (blk - x.pos % blk) else len
            let curb := decide (dShare x.desc ≠ 0)
            let cap := dBurst x.desc * 1024 * 460800
            let fill := dShare x.desc * m.rate
            let h := s.hw
            let c0 := max h.cycles (x.cycle + 1)
            let bucket := min cap (x.bucket + fill * (c0 - x.cycle))
            let need := len * 460800
            let wait := if curb ∧ bucket < need then (need - bucket + fill - 1) / fill else 0
            let h := h.atLeast (((c0 + wait) * 5 + 8) / 9)
            let h := if wait = 0 then h else h.count (m.page + Reg.mover.mvrCurbWait) 0 32 wait
            let x1 := { x with pos := x.pos + len, cycle := c0 + wait, bucket := if curb then min cap (bucket + fill * wait) - need else x.bucket }
            let s := { s with hw := h.setXfer m x1 }
            let a := match w with | .da a | .host a => a | .t2 _ _ off => off
            match (if x.draft then s.draftFor x ⟨0, a, len, x.pos, 0, [], false, false⟩ else none) with
            | some b => s.mvBytes m x.pos b
            | none =>
              let s := s.onHw fun h => h.startRead m w x.pos len false
              (match (if x.alt && x.late then s.hw.altOf x a else none) with
               | some w => s.onHw fun h => h.startRead m w x.pos len true
               | none => s)

/-- Every byte of the transfer has been read, converted and sent. -/
def Xfer.finished (x : Xfer) : Bool :=
  x.live && x.phase = 2 && decide (x.plainIn ≥ srcBytes x.desc) && x.pend.isEmpty && x.raw.isEmpty && x.ahead.isEmpty && x.reads.all (·.dead) &&
  (dFormat x.desc ≠ 5 || decide (x.done ≥ aifBlocks x.desc))

/-- DEADLINE_LATE: the transfer is late; LATE counts once, and its policy applies: draft, alternate, notice, or STALL (R212, R213). -/
def execDeadlineLate (m : MvLoc) (s : State) : Res :=
  .next <|
    match (s.hw.mvAt m).active with
    | none => s
    | some x =>
      let d := dDeadline x.desc
      let h := s.hw
      if x.late || d = 0 || decide (deadlineStride h.stride d > (h.stride : Int)) || !x.live || (x.finished && x.quiet) then s
      else
        let n : Paddock := ⟨x.pad % 4, Nat.mod_lt _ (by decide)⟩
        let cnt := fun (h : Hw) (off : Nat) => h.count (pdCounter n off) 0 32 1
        let h := if deadlineStride h.stride d = (h.stride : Int) then h.atLeast (h.clk.tickAt + min (d % 2 ^ 20) h.curLen) else h
        let h := cnt ((h.count (m.page + Reg.mover.mvrLateCount) 0 32 1).raise m.page 10) Reg.placeGlobal.paddock0Late
        let obj := h.obj (dHandle x.desc)
        let h := match obj with | some o => h.setObj (dHandle x.desc) { o with late := satAdd 32 o.late 1 } | none => h
        let pol := h.policy x.desc
        let hasDraft := match obj with | some o => o.hasDraft | none => false
        let useDraft := h.mayDraft x.desc
        let refused := bitOf pol 2 && hasDraft && !dFlag x.desc 0
        let h := if refused then cnt h Reg.placeGlobal.paddock0DraftRefused else h
        let altKnown := match obj with | some o => o.hasAlt || decide (o.altNode ≠ 0xFFFF) | none => false
        let useAlt := !useDraft && bitOf pol 1 && altKnown
        let reorder := bitOf pol 0
        let h := h.setXfer m { x with late := true, draft := x.draft || useDraft, alt := x.alt || useAlt, reorder := reorder, refused := refused }
        let h := if useDraft then cnt h Reg.placeGlobal.paddock0Draft else if useAlt then cnt h Reg.placeGlobal.paddock0Alt else cnt h Reg.placeGlobal.paddock0Stall
        let h := match reorder, h.hostOf n (dF x.desc 0x38 4 % 512) with
          | true, some cl => h.emit (.lateNotice cl (bitsOf (dF x.desc 0x38 4) 16 8))
          | _, _ => h
        let s := { s with hw := h }
        if useDraft then
          if (h.codedSource n x.desc).isSome then
            s.onHw fun h => h.onXfer m fun x => { x with reads := x.reads.map (fun r => { r with dead := true }), raw := [], ahead := [] }
          else x.reads.foldl (fun s r => match s.draftFor x r with
            | some b => (s.onHw fun h => h.onXfer m fun x => { x with reads := x.reads.map fun y => if y.id = r.id then { y with dead := true } else y }).mvBytes m r.pos b
            | none => s) s
        else if useAlt then
          x.reads.foldl (fun s r => if r.dead || r.alt then s else match s.hw.altOf x r.src with
            | some w => s.onHw fun h => h.startRead m w r.pos r.len true
            | none => s) s
        else s

/-- AIF_DATA_PHASE_START: every agreed byte has returned; packing begins, unless an own byte exceeds its agreed byte (R139, R232). -/
def execAifDataPhaseStart (m : MvLoc) (s : State) : Res :=
  .next (s.onHw fun h =>
    match (h.mvAt m).active with
    | some x =>
      let nb := aifBlocks x.desc
      if dFormat x.desc = 5 && x.phase = 1 && x.live && decide (x.own.length ≥ nb) && (List.range nb).all fun j => (Tab.find x.agreed j).isSome then
        if (List.range nb).any fun j => decide (x.own.getD j 0 > Tab.get x.agreed j 0) then h.mvError m 10
        else h.setXfer m { x with phase := 2, pos := 0, inPos := 0, plainIn := 0, segDone := 0, done := 0, units := 0 }
      else h
    | none => h)

/-- A transfer to the host ends with a zero-length read of the last address written (R356). -/
def Hw.mvFlush (h : Hw) (m : MvLoc) : Hw :=
  match (h.mvAt m).active, m.hostPort with
  | some x, some p =>
    if dDstHost x.desc && !x.flushed && x.finished then
      (h.setXfer m { x with flushed := true, sent := x.sent + 1 }).emit (.hostRead p m.ch (rowAddr (dDst x.desc) (dDstStride x.desc) (dLen x.desc) (srcBytes x.desc - 1)) 0 x.nextId)
    else h
  | _, _ => h

/-- The descriptor that copies an arrival range to its FWD_NODE (R246). -/
def mirrorDesc (r : ArrRange) : Nat := r.da + r.da <<< 64 + r.len <<< (8 * 0x10) + 1 <<< (8 * 0x14) + r.fwd <<< (8 * 0x58)
/-- The complex loads the next mirror copy into port channel 7 while SHADOW has room (R246). -/
def Hw.mirrorNext (h : Hw) (f : Field) : Hw :=
  let u := h.ucAt f
  match u.mirror with
  | [] => h
  | i :: rest =>
    match u.ranges[i]? with
    | none => h.setUc f { u with mirror := rest }
    | some r => match h.mvLoad (.port f 7) (mirrorDesc r) true with
      | (.busy, _) => h
      | (_, h) => h.setUc f { h.ucAt f with mirror := rest }
/-- TRANSFER_COMPLETE: a transfer whose reads are written and whose flits are accounted makes its completion record (R227, R228). -/
def execTransferComplete (m : MvLoc) (s : State) : Res :=
  .next (s.onHw fun h =>
    let h := h.mvFlush m
    match (h.mvAt m).active with
    | some x =>
      let reads := x.reads.filter fun r => !r.dead
      if (x.finished || !x.live) && reads.isEmpty && decide (x.acc ≥ x.sent) && x.red = 0 then
        let status := match x.ending, x.status with
          | some 14, _ => 14
          | _, some e => e
          | some e, none => e
          | none, none => 0
        let h := x.held.foldl (fun h k => h.hold k false) h
        let h := h.setMv m { h.mvAt m with active := none, idBase := x.nextId }
        let h := h.mvRecord m x.desc status x.late x.alt x.draft x.reorder x.refused x.seq x.written (some ⟨x.pad % 4, Nat.mod_lt _ (by decide)⟩)
        let h := if status = 1 ∨ status = 2 ∨ status = 14 ∨ h.fencedPage m.page then h
          else h.monSample m.field 1 m.monSel ((h.clk.now : Int) - (x.startAt : Int))
        let h := match m with
          | .port f c => if c.val = 7 && x.fromUe then
              let h := h.count (pgUpdate f + Reg.ucomplex.ucMirror) (if status ≤ 1 then 0 else 16) 16 1
              ((match h.mvTake m with | some (_, h) => h | none => h) : Hw).mirrorNext f
            else h
          | _ => h
        let h := match (h.mvAt m).shadowEnd with | some e => h.dropShadow m e | none => h
        if h.bit (m.page + Reg.mover.mvrCtrl) 0 && !(h.mvAt m).paused then (h.setMv m { h.mvAt m with paused := true }).raise m.page 11 else h
      else h
    | none => h)

end Sys2Proof.Machine
end

