-- ==== Sys2Proof/Machine/Flits.lean ====
section
/-! DEFINITION. Flits at their destinations (R154 to R179): writes, reads, responses, chains, in-network reduction, ticks, tokens, fences. -/
namespace Sys2Proof.Machine

/-- The channel that a flit's destination and tag name, while its transfer has flits that are not accounted for or this read is outstanding. -/
def Hw.awaiting (h : Hw) (ep tag off : Nat) (read : Bool) : Option MvLoc :=
  (mvOfEp ep tag).filter fun m => match (h.mvAt m).active with
    | some x => if read then x.reads.any (fun r => r.id = off / 512 % 512) else decide (x.acc < x.sent) || !x.reads.isEmpty
    | none => false
/-- The inbound context of an optical port that a flit's destination and tag name (R337). -/
def Hw.ctxOf (h : Hw) (ep tag : Nat) : Option (Field × InCtx) :=
  if hf : ep % 64 < 48 ∧ ep >>> 6 = 6 + 3 <<< 3 then (Tab.find (h.opPort ⟨ep % 64, hf.1⟩).ctxs tag).map fun c => (⟨ep % 64, hf.1⟩, c) else none
/-- A reply to a proxied stream goes back to its source in a frame (R337). -/
def Hw.ctxReply (h : Hw) (f : Field) (c : InCtx) (tag n : Nat) (k : Flit) : Hw :=
  let p := h.opPort f
  let h := h.setOpPort f { p with ctxs := Tab.set p.ctxs tag { c with out := c.out - n, last := h.clk.now } }
  h.portFlit f c.node c.group (Flit.sealed ((k.put 40 13 c.ep).put 66 6 c.tag))

/-- A transit bundle's flit at its leaving port: headers and data are kept, and each frame whose header and data are there is sent (R335). -/
def Hw.bundleIn (h : Hw) (f : Field) (k : Flit) : Hw :=
  let b := (k.src % 64) <<< 24 + k.off % 2 ^ 24
  let pos := bitsOf k.off 24 3
  let p := h.opPort f
  let p := if bitOf k.off 27 then { p with inHead := Tab.set p.inHead b ((List.range (k.valid.length / 28)).map fun i => leAt k.data (28 * i) 28) }
    else { p with inData := Tab.set p.inData (8 * b + pos) k.data }
  let heads := Tab.get p.inHead b []
  let ready := (List.range heads.length).filter fun i => heads.getD i 0 ≠ 0 && (Tab.find p.inData (8 * b + i)).isSome
  let left := (List.range heads.length).map fun i => if ready.contains i then 0 else heads.getD i 0
  let p' := { p with
    inHead := if left.all (· = 0) then Tab.erase p.inHead b else Tab.set p.inHead b left
    inData := p.inData.filter fun e => !(e.1 / 8 = b && ready.contains (e.1 % 8)) }
  ready.foldl (fun h i => h.routeFrame f (Frame.seal ⟨BitVec.ofNat 224 (heads.getD i 0), Tab.get p.inData (8 * b + i) [], 0⟩)) (h.setOpPort f p')

/-- A flit for an endpoint without memory: a port's transit bundles, or a unit the block hands it to. -/
def Hw.toUnit (h : Hw) (k : Flit) : Hw :=
  let f := k.dst % 64
  if hf : f < 48 ∧ k.dst >>> 6 = 6 + 3 <<< 3 then h.bundleIn ⟨f, hf.1⟩ k
  else (h.emit (.deliver f (k.dst >>> 6) k)).account k.dst k.src k.tag 0 1 k.last

/-- FLIT_WRITE: the data is stored at its offset, counted for the transfer that sent it, and accounted for (R159, R167). -/
def execFlitWrite (r : RtrLoc) (q : Fin 7) (k : Flit) (s : State) : Res :=
  .next (flitArrive s r q.val k 1 fun s =>
    match flitAddr k.dst (16 * k.off) with
    | some a =>
      let n := k.valid.length
      let s := match s.hw.awaiting k.src k.tag 0 false with
        | some m => (s.put a k.valid).onHw fun h => h.mvWrote m n
        | none => s.store none (k.dst % 64) a k.valid plainInfo
      s.onHw fun h => h.account k.dst k.src k.tag 0 1 k.last
    | none =>
      s.onHw fun h => if k.dst % 64 ≥ 48 ∨ (bitsOf k.dst 6 3 = 6 ∧ 3 ≤ bitsOf k.dst 9 4) then h.toUnit k else h.account k.dst k.src k.tag 4 1 k.last)

/-- The check of a memory read counts where the memory is: a site's page, a cluster memory's, an M-core's or a VE's (R68, R185, R422). The second part says whether the data may be used. -/
def Hw.readCheck (h : Hw) (a : Nat) (x : MemCheck) : Hw × Bool :=
  match physAddr a with
  | none => (h, false)
  | some p =>
    let (pg, off, ev) :=
      if daRegion p = 1 then (pageBase (siteOf p / 2) 6 (1 + siteOf p % 2) 0, Reg.msite.msCrcErr, 32)
      else if daUnit p = 0 then (pageBase (daField p) (daCluster p) 0 0, Reg.clmem.cmCrc, 8)
      else if daUnit p ≤ 5 then (pageBase (daField p) (daCluster p) (daUnit p) 0, Reg.mcore.mcLmemCrc, 10)
      else (pageBase (daField p) (daCluster p) (daUnit p) 1, Reg.ve.veLmemCrc, 10)
    let out := decide (daRegion p = 1) && decide (h.blkState (pageBase (siteOf p / 2) 6 (1 + siteOf p % 2) 0) = 5)
    match x with
    | .ok => (h, !out)
    | .corrected n => if out then (h, false) else if daUnit p = 8 ∧ daRegion p = 2 then (h, true) else (h.count (pg + off) 0 16 n, true)
    | .failed o =>
      if out then (h, false)
      else
        let h := if daUnit p = 8 ∧ daRegion p = 2 then h else h.count (pg + off) 16 16 1
        let h := if daRegion p = 1 then h.classify (unitOfPage pg) false else h
        (if ev = 32 ∨ (daUnit p = 8 ∧ daRegion p = 2) then h else (h.logError pg o ev).raise pg ev, false)

/-- FLIT_READ_REQ: READ_DATA flits of 256 bytes at the return offset, or a RESP where the read fails (R159, R167, R185; the failure's status is notes/assumptions/10.md). -/
def execFlitReadReq (r : RtrLoc) (q : Fin 7) (k : Flit) (x : MemCheck) (s : State) : Res :=
  .next (flitArrive s r q.val k 2 fun s =>
    let len := min (leAt k.data 8 4) 4096
    let ret := leAt k.data 12 4
    match flitAddr k.dst (leAt k.data 0 8) with
    | none => s.onHw fun h => h.inject r (respFlit k.dst k.src k.tag 4 (readFlits k) (readMark ret))
    | some a =>
      let (h, ok) := s.hw.readCheck a x
      if !ok then { s with hw := h.inject r (respFlit k.dst k.src k.tag 8 (readFlits k) (readMark ret)) }
      else
        let bytes := memBytes s.mem a len
        let h := h.countRead a len
        let n := (len + 255) / 256
        { s with hw := times n h fun i h =>
            h.inject r (mkFlit 3 (decide (i + 1 = n)) k.src k.dst k.tag (ret + 16 * i) ((bytes.drop (256 * i)).take 256)) })

/-- FLIT_READ_DATA: to the read of the channel that asked, through a port's context to another module, or to another unit that asked (R167, R225, R337). -/
def execFlitReadData (r : RtrLoc) (q : Fin 7) (k : Flit) (s : State) : Res :=
  .next (flitArrive s r q.val k 3 fun s =>
    match s.hw.awaiting k.dst k.tag k.off true, s.hw.ctxOf k.dst k.tag with
    | some m, _ => s.mvReadData m k.off k.valid
    | none, some (f, c) => s.onHw fun h => h.ctxReply f c k.tag 1 k
    | none, none => s.onHw fun h => h.emit (.deliver (k.dst % 64) (k.dst >>> 6) k))

/-- The mover status of a RESP status (R228, R336). -/
def respStatus (st : Nat) : Nat :=
  match st with
  | 1 => 4 | 2 => 5 | 3 => 6 | 4 => 7 | 5 => 15 | _ => 8
/-- A RESP to a channel: it accounts for flits sent, or ends a read (R167, R227, R228). -/
def State.mvResp (s : State) (m : MvLoc) (k : Flit) : State :=
  let n := leAt k.data 0 4
  let st := leAt k.data 4 1
  match (s.hw.mvAt m).active with
  | none => s
  | some x =>
    let named := bitOf k.off 31
    let rd : Option ReadOut := if named then x.reads.find? fun r => r.id = k.off / 512 % 512
      else if x.acc < x.sent then none else if st = 0 then none else x.reads.head?
    match rd with
    | none =>
      let s := s.onHw fun h => h.mvAccount m (min n (x.sent - x.acc))
      if st = 0 then s else s.onHw fun h => h.mvError m (respStatus st)
    | some r =>
      if st = 0 then s
      else if st = 1 ∨ st = 3 ∨ st = 5 then
        s.onHw fun h => (h.setXfer m { x with reads := x.reads.filter fun y => y.id ≠ r.id }).mvError m (respStatus st)
      else s.mvReadFail m (512 * r.id) (if st = 2 ∧ 0x10 ≤ daRegion (dSrc x.desc) ∧ daRegion (dSrc x.desc) ≤ 0x1F then 9 else respStatus st)

/-- FLIT_RESP (R167, R337). -/
def execFlitResp (r : RtrLoc) (q : Fin 7) (k : Flit) (s : State) : Res :=
  .next (flitArrive s r q.val k 4 fun s =>
    let tag := leAt k.data 5 1 % 64
    let read := bitOf k.off 31
    match s.hw.awaiting k.dst tag k.off read, s.hw.ctxOf k.dst tag with
    | some m, _ => s.mvResp m k
    | none, some (f, c) => s.onHw fun h => h.ctxReply f c tag (leAt k.data 0 4)
        { k with payload := leBytes 4 (leAt k.data 0 4) ++ leBytes 1 (leAt k.data 4 1) ++ leBytes 1 c.tag ++ (k.data.drop 6) }
    | none, none => s.onHw fun h => h.emit (.deliver (k.dst % 64) (k.dst >>> 6) k))

/-- DATA0, DATA1 and DATA2 of a stream slot (R171). -/
def RouterState.slot (x : RouterState) (i : Nat) : Word × Word × Word := Tab.get x.slots i (0, 0, 0)
/-- The M-core slots a chain passes at a router: LOCAL_SLOTS (R171, R179). -/
def chainLocals (d2 : Word) : List Nat := ((List.range 4).map fun i => wbits d2 (4 + 3 * i) 3).takeWhile (· ≠ 0)
/-- The M-core slot 1 to 5 of a cluster. -/
def localMcore (cl : ClLoc) (u : Nat) : McLoc := ⟨cl, ⟨(u - 1) % 5, Nat.mod_lt _ (by decide)⟩⟩
/-- The tile of a packet: scales first in classes 2 and 4, then the data rows (R70, R178); the tag is R81's. -/
def packetTile (tag : Nat) (bytes : List Byte) : Tile :=
  let fmt := bitsOf tag 2 3
  let s := if meG fmt ≥ 2 then 1024 else 0
  { shape := bitsOf tag 0 2, fmt := fmt, blk := bitsOf tag 5 2, sfmt := bitsOf tag 7 1
    data := sliceD bytes s (64 * tileRowBytes fmt) 0, scales := bytes.take s }

/-- FLIT_CHAIN: to the first listed M-core, on to the next, out of OUT_PORT, or discarded and accounted OK at a tail (R178, R179). At CORE the flit's DST_UNIT names the M-core it comes from. -/
def execFlitChain (r : RtrLoc) (q : Fin 7) (k : Flit) (s : State) : Res :=
  .next <|
    if k.kind ≠ 5 || !s.hw.rtrUp r then s
    else
      let (h, ok) := s.hw.hopIn r q.val k
      if !ok then { s with hw := h }
      else
        let x := h.rtrAt r
        match x.flitSlot k with
        | none => { s with hw := h }
        | some i =>
          let (d0, _, d2) := x.slot i
          let core := decide (q.val = r.localPort)
          let origin := if core then none else some (q.val, Plane.a, 16 + i)
          if x.aborted.contains i || (!core && !wbit d0 (17 + q.val)) then { s with hw := h.freeCredit r origin }
          else
            let locals := match r with | .cluster _ => chainLocals d2 | .hub _ => []
            let next := if core then (locals.dropWhile (· ≠ k.f 49 4)).drop 1 else locals
            match r, next with
            | .cluster cl, u :: _ =>
              let h := h.freeCredit r origin
              if h.unitFenced r u then { s with hw := h.discard r k 1 }
              else
                let (bytes, tag) := if k.f 88 1 = 1 then ([], k.f 72 8) else Tab.get x.tiles i ([], 0)
                let all := bytes ++ k.data
                let h := h.setBit (r.page + Reg.router.rtrSlotStatus) i true
                if k.last then
                  let l : MeLoc := ⟨localMcore cl u, 0⟩
                  let h := h.setRtr r { h.rtrAt r with tiles := Tab.erase x.tiles i }
                  let h := h.setMe l { h.meAt l with chainIn := (h.meAt l).chainIn ++ [packetTile tag all] }
                  { s with hw := meDrainFrom s.mem h l }
                else { s with hw := h.setRtr r { h.rtrAt r with tiles := Tab.set x.tiles i (all, tag) } }
            | _, _ =>
              let out := wbits d0 24 3
              if out = 7 then { s with hw := ((h.freeCredit r origin).count (r.page + Reg.router.rtrChainTail) 0 32 1).account k.dst k.src k.tag 0 1 k.last }
              else { s with hw := (h.setBit (r.page + Reg.router.rtrSlotStatus) i true).sendPort r k out origin }

/-- Flits of a unit of an operation (R172). -/
def unitFlits (op : Nat) : Nat := if op = 1 then 3 else 1
/-- A reduction flit joins its slot's queue; the contributor's flit counts as delivered (R173). -/
def redAccept (h : Hw) (r : RtrLoc) (q : Nat) (k : Flit) : Hw :=
  let x := h.rtrAt r
  match x.flitSlot k with
  | none => h
  | some i =>
    if x.aborted.contains i then h.freeCredit r (if q = r.localPort then none else some (q, .b, 16 + i))
    else
      let u : RedUnit := ⟨q, k.f 82 18, k.f 100 2, k.kind, k.data⟩
      let h := (h.setRtr r { x with units := Tab.set x.units i (Tab.get x.units i [] ++ [u]) }).setBit (r.page + Reg.router.rtrSlotStatus) i true
      if q = r.localPort then
        match mvOfEp k.src k.tag with
        | some m => h.onXfer m fun x => { x with red := x.red - 1 }
        | none => h
      else h
/-- FLIT_RED_UP: a unit's flit is accepted by its slot (R161, R173). -/
def execFlitRedUp (r : RtrLoc) (q : Fin 7) (k : Flit) (s : State) : Res :=
  .next (s.onHw fun h =>
    if k.kind ≠ 6 || !h.rtrUp r then h
    else
      let (h, ok) := h.hopIn r q.val k
      if ok then redAccept h r q.val k else h)

/-- Elements of n bytes combined one by one. -/
def zipElems (n : Nat) (f : Nat → Nat → Nat) (a b : List Byte) : List Byte :=
  (List.range (a.length / n)).flatMap fun i => leBytes n (f (leAt a (n * i) n) (leAt b (n * i) n))
/-- Two inputs combined by an operation (R172). -/
def redOp (op : Nat) (a b : List Byte) : List Byte :=
  match op with
  | 1 => zipElems 6 (fun x y => x + y) a b
  | 2 => zipElems 4 (fun x y => x + y) a b
  | 3 => zipElems 4 (fun x y => (fp32.add x y).1) a b
  | 4 => zipElems 1 max a b
  | 5 => zipElems 1 min a b
  | 6 => zipElems 4 max a b
  | 7 => zipElems 4 min a b
  | 8 => zipElems 1 (fun x y => x &&& y) a b
  | _ => zipElems 1 (fun x y => x ||| y) a b
/-- A two's-complement addition of an AIF operation overflows (R175). -/
def redOvf (op : Nat) (a b : List Byte) : Bool :=
  let n := if op = 1 then 6 else 4
  decide (op ≤ 2) && (List.range (a.length / n)).any fun i =>
    let x := signOf (8 * n) (leAt a (n * i) n) + signOf (8 * n) (leAt b (n * i) n)
    decide (x ≠ signOf (8 * n) (twos (8 * n) x))

/-- The input ports of a slot. -/
def slotPorts (d0 : Word) : List Nat := (List.range 7).filter fun p => wbit d0 (17 + p)
/-- The order a slot folds its inputs in: ORDER for FP32_ADD, the ports in order otherwise (R174). -/
def foldOrder (d0 d1 : Word) : List Nat :=
  if wbits d0 13 4 = 3 then ((List.range 7).map fun i => wbits d1 (3 * i) 3).takeWhile (· ≠ 7) else slotPorts d0
/-- Inputs folded, with the additions that overflowed. -/
def foldInputs (op : Nat) : List (List Byte) → List Byte × Nat
  | [] => ([], 0)
  | a :: r => r.foldl (fun acc b => (redOp op acc.1 b, acc.2 + b2n (redOvf op acc.1 b))) (a, 0)

/-- The tree table's entry of a port for a RID (R337). -/
def Hw.treeOf (h : Hw) (f : Field) (rid : Nat) : Nat := Tab.get (h.opPort f).trees rid 0
/-- A unit on a link of an optical port (R337). -/
def Hw.treeSend (h : Hw) (f : Field) (link : Nat) (pad : Nat) (k : Flit) : Hw :=
  let l : LinkLoc := ⟨f, ⟨link % 8, Nat.mod_lt _ (by decide)⟩⟩
  h.linkSend l (h.mkFrame 1 (kindClass k.kind).2 (h.opLink l).peerNode (h.groupId ⟨pad % 4, Nat.mod_lt _ (by decide)⟩) (k.f 35 77) 0 k.payload)
/-- A unit of a RED kind as flits (R159). -/
def unitOut (kind src rid unit : Nat) (bytes : List Byte) : List Flit :=
  let n := max 1 ((bytes.length + 255) / 256)
  (List.range n).map fun g => mkFlit kind (decide (g + 1 = n)) src src 63 (rid + unit <<< 10 + g <<< 28) (sliceD bytes (256 * g) 256 0)
/-- The endpoint number of a node's own page, the source of what it sends. -/
def rtrEp : RtrLoc → Nat
  | .cluster l => epNum l.f.val l.c.val 0
  | .hub f => epNum f.val 6 15

/-- RED_COMBINE: the head units of every input are combined and go on toward the root, or are written and returned there (R173 to R176). -/
def execRedCombine (r : RtrLoc) (i : Fin 16) (s : State) : Res :=
  .next <|
    let h := s.hw
    let pg := r.page
    let x := h.rtrAt r
    let (d0, d1, d2) := x.slot i.val
    let op := wbits d0 13 4
    let fl := unitFlits op
    let us := Tab.get x.units i.val []
    let heads : List (Nat × List RedUnit) := (slotPorts d0).map fun p => (p, (us.filter fun (u : RedUnit) => u.port = p).take fl)
    if !(wbit d0 0 && wbits d0 1 2 = 1) || h.bit (pg + Reg.router.rtrSlotStatus) (16 + i.val) || heads.isEmpty ||
        heads.any (fun p => decide (p.2.length < fl)) || !h.rtrUp r then s
    else
      let unit := ((heads.head?.bind fun p => p.2.head?).map (·.unit)).getD 0
      if heads.any fun p => p.2.any fun u => u.unit ≠ unit then
        { s with hw := ((h.setBit (pg + Reg.router.rtrSlotStatus) (16 + i.val) true).raise pg 11).emit (.abortAsk (wbits d0 28 2) false) }
      else
        let input := fun (p : Nat) => ((heads.filter fun z => z.1 = p).flatMap fun z => z.2.flatMap (·.payload))
        let (bytes, ovf) := foldInputs op ((foldOrder d0 d1).map input)
        let rest := heads.foldl (fun us z => z.2.foldl (fun us u => us.erase u) us) us
        let h := h.setRtr r { x with units := if rest.isEmpty then Tab.erase x.units i.val else Tab.set x.units i.val rest }
        let h := if rest.isEmpty then h.setBit (pg + Reg.router.rtrSlotStatus) i.val false else h
        let h := heads.foldl (fun h z => z.2.foldl (fun h _ => h.freeCredit r (if z.1 = r.localPort then none else some (z.1, .b, 16 + i.val))) h) h
        let h := if ovf = 0 then h else (h.count (pg + Reg.router.rtrAifOvf) 0 32 ovf).raise pg 12
        let rid := wbits d0 3 10
        let out := wbits d0 24 3
        let ks := unitOut 6 (rtrEp r) rid unit bytes
        if out ≠ r.localPort then { s with hw := ks.foldl (fun h k => h.sendPort r k out none) h }
        else
          match r with
          | .hub f =>
            if bitOf (h.treeOf f rid) 7 then { s with hw := ks.foldl (fun h k => h.treeSend f (bitsOf (h.treeOf f rid) 4 3) (wbits d0 28 2) k) h }
            else
              let s : State := { s with hw := h }
              let s := match flitAddr (epNum f.val 6 (wbits d2 0 4)) (wbits d2 4 28 * 256 + unit * (256 * fl)) with
                | some a => s.store none f.val a bytes plainInfo
                | none => s
              if wbit d0 27 then s.onHw fun h => (unitOut 7 (rtrEp r) rid unit bytes).foldl (fun h k => h.inject r k) h else s
          | .cluster l =>
            let s : State := { s with hw := h }
            let s := match flitAddr (epNum l.f.val l.c.val (wbits d2 0 4)) (wbits d2 4 28 * 256 + unit * (256 * fl)) with
              | some a => s.store none l.f.val a bytes plainInfo
              | none => s
            if wbit d0 27 then s.onHw fun h => (unitOut 7 (rtrEp r) rid unit bytes).foldl (fun h k => h.inject r k) h else s

/-- The channels at a node. -/
def nodeChannels : RtrLoc → List MvLoc
  | .cluster l => (List.finRange 4).map fun c => .cluster l c
  | .hub f => allChannels.filter fun m => m.field = f && bitsOf m.ep 6 3 = 6
/-- Agreed exponent bytes reach the contributors at a node: kept for their packing and written at AUX_DA (R139, R176, R232). -/
def State.agree (s : State) (r : RtrLoc) (rid unit : Nat) (bytes : List Byte) : State :=
  (nodeChannels r).foldl (fun s m =>
    match (s.hw.mvAt m).active with
    | some x =>
      let d := x.desc
      let j0 := (unit - dUnitBase d / 256) * 256
      if dFormat d = 5 && dF d 0x50 2 % 1024 = rid && decide (dUnitBase d / 256 ≤ unit) && decide (j0 < aifBlocks d) then
        let n := min 256 (aifBlocks d - j0)
        let s := s.onHw fun h => h.setXfer m { x with agreed := (List.range n).foldl (fun t j => Tab.set t (j0 + j) (bytes.getD j 0).toNat) x.agreed }
        s.store (some m.page) m.field.val (dAux d + j0) (bytes.take n) plainInfo
      else s
    | none => s) s
/-- FLIT_RED_DOWN: a result unit goes back to every input of its slot (R176, R337). -/
def execFlitRedDown (r : RtrLoc) (q : Fin 7) (k : Flit) (s : State) : Res :=
  .next <|
    if k.kind ≠ 7 || !s.hw.rtrUp r then s
    else
      let (h, ok) := s.hw.hopIn r q.val k
      let x := h.rtrAt r
      match ok, x.flitSlot k with
      | true, some i =>
        let origin := if q.val = r.localPort then none else some (q.val, Plane.b, 16 + i)
        let h := h.freeCredit r origin
        if x.aborted.contains i then { s with hw := h }
        else
          let (d0, _, _) := x.slot i
          let h := (slotPorts d0).foldl (fun h p => h.sendPort r k p none) h
          let h := match r with
            | .hub f =>
              let t := h.treeOf f k.rid
              if wbit d0 (17 + 6) && bitOf t 3 then h.treeSend f (bitsOf t 0 3) (wbits d0 28 2) k else h
            | .cluster _ => h
          let s : State := { s with hw := h }
          if wbit d0 (17 + r.localPort) then s.agree r k.rid (k.f 82 18) k.data else s
      | _, _ => { s with hw := h }

/-- FLIT_TICK: the node takes the stride's number, length and fire time (payload bytes 0–5, 6–8 and 9–16) and passes the flit down the tree (R157, R158). -/
def execFlitTick (r : RtrLoc) (q : Fin 7) (k : Flit) (s : State) : Res :=
  .next (s.onHw fun h =>
    if k.kind ≠ 8 || !h.rtrUp r then h
    else
      let (h, ok) := h.hopIn r q.val k
      if !ok then h
      else
        let h := h.freeCredit r (if q.val = r.localPort then none else some (q.val, .a, 3))
        let h := h.rtrTick r (leAt k.data 9 8) (leAt k.data 6 3)
        (h.tickPorts r q.val).foldl (fun h p => h.sendPort r k p none) h)

/-- FLIT_TOKEN: COUNT (payload bytes 2–3) is added to token byte 0 of the S-core, byte 4 the ERR mark (R37, R302). -/
def execFlitToken (r : RtrLoc) (q : Fin 7) (k : Flit) (s : State) : Res :=
  .next (flitArrive s r q.val k 0xB fun s => s.onHw fun h =>
    match r with
    | .cluster l => h.tokenAdd l (leAt k.data 0 1) (leAt k.data 2 2) (bitOf (leAt k.data 4 1) 0)
    | .hub _ => h)

/-- FLIT_FENCE: payload byte 0 sets (1) or clears the fence of unit byte 1, 16 for the whole cluster (R169). -/
def execFlitFence (r : RtrLoc) (q : Fin 7) (k : Flit) (s : State) : Res :=
  .next (flitArrive s r q.val k 0xC fun s => s.onHw fun h =>
    let u := leAt k.data 1 1
    if u ≤ 8 ∨ u = 16 then h.setBit (r.page + Reg.router.rtrFenceMask) u (bitOf (leAt k.data 0 1) 0) else h)

end Sys2Proof.Machine
end

