-- ==== Sys2Proof/Machine/Calliope.lean ====
section
/-! DEFINITION. Calliope (R256, R264 to R267, R270): hyperparameter records in FP64, with correctly rounded cospi, exp2 and log2. -/
namespace Sys2Proof.Machine

/-- Sum of a series of fixed-point terms t(k+1) = f k (t k), with alternating sign or not; fuel bounds the terms. -/
def series (alt : Bool) (f : Nat → Nat → Nat) : Nat → Nat → Nat → Int
  | 0, _, _ => 0
  | fuel + 1, k, t => if t = 0 then 0 else (t : Int) + (if alt then -series alt f fuel (k + 1) (f k t) else series alt f fuel (k + 1) (f k t))
/-- Σ (±) z^(2k+1) ÷ (2k+1) in fixed point with p fraction bits, for z = a ÷ b: arctangent (alternating) or its hyperbolic form. -/
def atanSeries (alt : Bool) (p a b : Nat) : Int :=
  let rec go : Nat → Nat → Nat → Int
    | 0, _, _ => 0
    | fuel + 1, k, t =>
      if t = 0 then 0
      else
        let rest := go fuel (k + 1) (t * a * a / (b * b))
        ((t / (2 * k + 1) : Nat) : Int) + (if alt then -rest else rest)
  go p 0 (2 ^ p * a / b)
/-- π with p fraction bits, by Machin's formula. -/
def piFix (p : Nat) : Nat := (16 * atanSeries true p 1 5 - 4 * atanSeries true p 1 239).toNat
/-- ln 2 with p fraction bits. -/
def ln2Fix (p : Nat) : Nat := (2 * atanSeries false p 1 3).toNat

/-- The FP64 code that an exact value rounds to, from approximations v(p) × 2^-p that are off by less than 2^(20 − p): the first precision at which both ends round alike. -/
def ziv (v : Nat → Int) (scale : Int) : List Nat → Nat
  | [] => 0
  | p :: ps =>
    let x := v p
    let lo := (fp64.roundInt (x - 2 ^ 20) (scale - (p : Int)) false).1
    let hi := (fp64.roundInt (x + 2 ^ 20) (scale - (p : Int)) false).1
    if lo = hi then lo else match ps with | [] => (fp64.roundInt x (scale - (p : Int)) false).1 | _ => ziv v scale ps
/-- Precisions tried. -/
def zivPrec : List Nat := [192, 384, 768, 1536, 3072, 6144]

/-- A fixed-point value of m × 2^e with p fraction bits, toward zero. -/
def toFix (m : Nat) (e : Int) (p : Nat) : Nat := if e + p ≥ 0 then m * 2 ^ (e + p).toNat else m / 2 ^ (-(e + p)).toNat
/-- cos(y) of a fixed-point y in [0, 2). -/
def cosFix (y p : Nat) : Int := series true (fun k t => t * y / 2 ^ p * y / 2 ^ p / ((2 * k + 1) * (2 * k + 2))) p 0 (2 ^ p)
/-- sin(y). -/
def sinFix (y p : Nat) : Int := series true (fun k t => t * y / 2 ^ p * y / 2 ^ p / ((2 * k + 2) * (2 * k + 3))) p 0 y
/-- exp(y) of a fixed-point y in [0, 1). -/
def expFix (y p : Nat) : Int := series false (fun k t => t * y / 2 ^ p / (k + 1)) p 0 (2 ^ p)

/-- cospi of an FP64 code in [0, 1], correctly rounded (R264). -/
def cospi64 (a : Nat) : Nat :=
  match fp64.decode a with
  | .fin _ m e =>
    if m = 0 then 0x3FF0000000000000
    else
      let le := fun (num : Nat) (k : Int) => dyLe m e num k
      -- x above 1/2 is reflected; a quarter is where sine takes over
      let refl := !le 1 (-1)
      let e' := min e (-2)
      let n : Int := ((m * 2 ^ (e - e').toNat : Nat) : Int)
      let one : Int := ((2 ^ (-e').toNat : Nat) : Int)
      let x := if refl then one - n else n
      if 2 * x = one then 0
      else if x = 0 then (fp64.roundInt (-1) 0 false).1
      else
        let v := fun (p : Nat) =>
          let c := if 4 * x ≤ one then cosFix (toFix x.toNat e' p * piFix p / 2 ^ p) p
            else sinFix (toFix (one - 2 * x).toNat (e' - 1) p * piFix p / 2 ^ p) p
          if refl then -c else c
        ziv v 0 zivPrec
  | _ => fp64.nanCode
/-- exp2, correctly rounded. -/
def exp264 (a : Nat) : Nat :=
  match fp64.decode a with
  | .nan => fp64.nanCode
  | .inf s => if s then 0 else fp64.infMag
  | .fin s m e =>
    if m = 0 then 0x3FF0000000000000
    else if dyLe 1100 0 m e then (if s then 0 else fp64.infMag)
    else
      let e' := min e 0
      let x := sgnInt s (m * 2 ^ (e - e').toNat)
      let one : Int := ((2 ^ (-e').toNat : Nat) : Int)
      let n := x / one
      let r := (x - n * one).toNat
      if r = 0 then (fp64.roundInt 1 n false).1
      else ziv (fun p => expFix (toFix r e' p * ln2Fix p / 2 ^ p) p) n zivPrec
/-- log2, correctly rounded. -/
def log264 (a : Nat) : Nat :=
  match fp64.decode a with
  | .nan => fp64.nanCode
  | .inf s => if s then fp64.nanCode else fp64.infMag
  | .fin s m e =>
    if m = 0 then fp64.signCode true + fp64.infMag
    else if s then fp64.nanCode
    else
      let k := log2Q m 1
      if m = 2 ^ k.toNat then (fp64.ofInt (k + e)).1
      else
        -- m ÷ 2^k in (1, 2); above 3/2 it is halved
        let up := decide (2 * m > 3 * 2 ^ k.toNat)
        let b := if up then 2 ^ (k.toNat + 1) else 2 ^ k.toNat
        let i := k + e + (if up then 1 else 0)
        let v := fun (p : Nat) =>
          let z := 2 * atanSeries false p (if up then b - m else m - b) (m + b)
          let f := z * ((2 ^ p : Nat) : Int) / ((ln2Fix p : Nat) : Int)
          i * ((2 ^ p : Nat) : Int) + (if up then -f else f)
        ziv v 0 zivPrec

/-- A group of a paddock's Calliope. -/
def Hw.calGroup (h : Hw) (n : Paddock) (g : Nat) : CalGroup := Tab.get h.cal (64 * n.val + g) CalGroup.empty
/-- Set a group. -/
def Hw.setCal (h : Hw) (n : Paddock) (g : Nat) (x : CalGroup) : Hw := { h with cal := Tab.set h.cal (64 * n.val + g) x }
/-- A word of a group's values; an unlisted one has its register's reset value. -/
def calWord (t : Tab Nat) (off : Nat) : Nat := Tab.get t off (resetOf (pgCalliope 0 + off))
/-- An FP64 value of a group. -/
def calF (t : Tab Nat) (off : Nat) : Nat := calWord t off + calWord t (off + 4) <<< 32
/-- The offset of the i-th FP64 pair: ETA_MAX, ETA_MIN, GAMMA, WD, B1_START, B1_END, B2_START, B2_END, EPS, DAMPEN, PEPS, PDAMP, PTOL (R270). -/
def calPair (i : Nat) : Nat := 0x128 + 8 * i
/-- An integer in FP64. -/
def i64 (n : Nat) : Nat := (fp64.ofInt (n : Int)).1
/-- FP64 operations, each rounded once. -/
def fadd (a b : Nat) : Nat := (fp64.add a b).1
/-- Difference. -/
def fsub (a b : Nat) : Nat := (fp64.sub a b).1
/-- Product. -/
def fmul (a b : Nat) : Nat := (fp64.mul a b).1
/-- Quotient. -/
def fdiv (a b : Nat) : Nat := (fp64.div a b).1

/-- The restart loop: τ and len (R265). -/
def restart (mult : Nat) : Nat → Nat → Nat → Nat × Nat
  | 0, tau, len => (tau, len)
  | fuel + 1, tau, len => if tau ≥ len then restart mult fuel (tau - len) (len * mult) else (tau, len)
/-- η(t) (R265). -/
def calEta (v : Tab Nat) (t : Nat) : Nat :=
  let cfg := calWord v 0x110
  let w := calWord v 0x114
  let t0 := calWord v 0x118
  let mult := calWord v 0x11C % 2 ^ 16
  let max := calF v (calPair 0)
  let min := calF v (calPair 1)
  let one := i64 1
  if w > 0 ∧ t ≤ w then
    let r := fdiv (i64 t) (i64 w)
    if bitOf cfg 0 then fmul max (fdiv (fsub one (cospi64 r)) (i64 2)) else fmul max r
  else
    let u := t - w
    match bitsOf cfg 1 3 with
    | 0 => max
    | 3 => (fp64.maxc min (fmul max (fp64.sqrt (fdiv (i64 t0) (i64 (t0 + u)))).1)).1
    | 4 => (fp64.maxc min (fmul max (exp264 (fmul (log264 (calF v (calPair 2))) (fdiv (i64 u) (i64 t0)))))).1
    | d =>
      let (tau, len) := if !bitOf cfg 4 then (u, t0) else if mult = 1 then (u % t0, t0) else restart mult 64 u t0
      if tau ≥ len then min
      else if d = 1 then fadd min (fmul (fsub max min) (fdiv (fadd one (cospi64 (fdiv (i64 tau) (i64 len)))) (i64 2)))
      else fsub max (fmul (fsub max min) (fdiv (i64 tau) (i64 len)))
/-- β(t) from its start and end (R266). -/
def calBeta (v : Tab Nat) (i t : Nat) : Nat :=
  let tb := calWord v 0x120
  let b0 := calF v (calPair i)
  if tb = 0 then b0 else fadd b0 (fmul (fsub (calF v (calPair (i + 1))) b0) (fdiv (i64 (min t tb)) (i64 tb)))
/-- Bias correction of a product (R266). -/
def calBc (p : Nat) : Nat :=
  let d := fsub (i64 1) p
  if d % 2 ^ 63 = 0 then i64 1 else fdiv (i64 1) d
/-- The hyperparameter record of a group for step t, with e the loss exponent (R256, R266). -/
def calRecord (g : CalGroup) (t : Nat) (e : Int) : List Nat :=
  let v := g.eff
  let eta := calEta v t
  let b1 := calBeta v 4 t
  let b2 := calBeta v 6 t
  let max := calF v (calPair 0)
  let cfg := calWord v 0x110
  let wd0 := calF v (calPair 3)
  let wd := if !bitOf cfg 5 then wd0 else if max % 2 ^ 63 = 0 then 0 else fmul wd0 (fdiv eta max)
  let n := calWord v 0x124 % 2 ^ 16
  let one := i64 1
  let r := fun (x : Nat) => (fp64.convert fp32 x).1
  [r eta, r wd, r b1, r (fsub one b1), r b2, r (fsub one b2), r (calBc (fmul g.p1 b1)), r (calBc (fmul g.p2 b2)), r (calF v (calPair 8)),
   (fp32.roundInt 1 (-e) false).1, r (fsub one (calF v (calPair 9))), r (calF v (calPair 10)), r (calF v (calPair 11)), r (calF v (calPair 12)),
   b2n (t % n = 0) + 2 * b2n (t % n = n - 1) + 4 * b2n (bitOf cfg 6), t % 2 ^ 32]

/-- CAL_COUNT. -/
def Hw.calCount (h : Hw) (n : Paddock) : Nat := h.reg64 (pgCalliope n + Reg.calliope.calCountLo)
/-- The loss exponent e. -/
def Hw.lossExp (h : Hw) (n : Paddock) : Int := signOf 8 (h.fld (pgCalliope n + Reg.calliope.calLossExp) 0 8)
/-- A group computes records: ENABLE. -/
def CalGroup.on (g : CalGroup) : Bool := bitOf (calWord g.eff 0x110) 7
/-- A COMMIT advances the count and the products of the step committed (R264, R266). -/
def Hw.calCommit (h : Hw) (n : Paddock) : Hw :=
  let t := h.calCount n + 1
  let h := (List.range 64).foldl (fun h i =>
    let g := h.calGroup n i
    if g.on then h.setCal n i { g with p1 := fmul g.p1 (calBeta g.eff 4 t), p2 := fmul g.p2 (calBeta g.eff 6 t) } else h) h
  h.setReg64 (pgCalliope n + Reg.calliope.calCountLo) t
/-- At a step boundary staged values take effect, and the records of the attempt that follows go to every update complex of the paddock (R264, R267). -/
def Hw.calBoundary (h : Hw) (n : Paddock) : Hw :=
  let pg := pgCalliope n
  let wait := (List.range 64).filter fun i => (h.calGroup n i).apply.isSome
  let h := wait.foldl (fun h i => let g := h.calGroup n i; h.setCal n i { g with eff := g.apply.getD g.eff, apply := none }) h
  let h := if wait.isEmpty then h else h.raise pg 9
  let t := h.calCount n + 1
  let recs := ((List.range 64).filter fun i => (h.calGroup n i).on).map fun i => (i, calRecord (h.calGroup n i) t (h.lossExp n))
  let h := recs.foldl (fun h p => let g := h.calGroup n p.1; h.setCal n p.1 { g with eta := calEta g.eff t }) h
  let words := recs.flatMap fun p => (List.range 16).map fun k => (16 * p.1 + k, p.2.getD k 0)
  let h := (h.paddockFields n).foldl (fun h f =>
    let u := Tab.get h.uc f.val UcState.empty
    { h with uc := Tab.set h.uc f.val { u with records := words.foldl (fun t p => Tab.set t p.1 p.2) u.records } }) h
  if recs.isEmpty then h else h.raise pg 8

/-- The group that CAL_SEL names. -/
def Hw.calSel (h : Hw) (n : Paddock) : Nat := h.fld (pgCalliope n + Reg.calliope.calSel) 0 6
/-- A Calliope command (R270). -/
def calCmd (p : Path) (n : Paddock) (code : Nat) (legal : List Nat) (f : Hw → Hw) (s : State) : State :=
  plainCmd s p (pgCalliope n) code (s.hw.mayCommand p (pgCalliope n) none) legal f
/-- STAGE_LOAD: the selected group's effective values go to its staging (R270). -/
def execStageLoad (p : Path) (n : Paddock) (s : State) : Res :=
  .next (calCmd p n 0x01 [0, 1, 2] (fun h => let g := h.calGroup n (h.calSel n); h.setCal n (h.calSel n) { g with stag := g.eff }) s)
/-- APPLY: the staged values take effect at the next step boundary (R267, R270). -/
def execApply (p : Path) (n : Paddock) (s : State) : Res :=
  .next (calCmd p n 0x02 [0, 1, 2] (fun h => let g := h.calGroup n (h.calSel n); h.setCal n (h.calSel n) { g with apply := some g.stag }) s)
/-- SET_COUNT: the count is set; the products are recomputed (R267). -/
def execSetCount (p : Path) (n : Paddock) (s : State) : Res :=
  .next (calCmd p n 0x03 [0, 2] (fun h =>
    let pg := pgCalliope n
    let h := { h with calBack := Tab.set h.calBack n.val (h.blkState pg) }
    (h.setReg64 (pg + Reg.calliope.calCountLo) (h.reg64 (pg + Reg.calliope.calArgLo))).setBlkState pg 3) s)
/-- Π₁ and Π₂ after steps 1 to t (R266). -/
def calProducts (v : Tab Nat) : Nat → Nat × Nat
  | 0 => (i64 1, i64 1)
  | t + 1 => let (a, b) := calProducts v t; (fmul a (calBeta v 4 (t + 1)), fmul b (calBeta v 6 (t + 1)))
/-- SET_COUNT_DONE: every enabled group's products have been recomputed from step 1 (R267). -/
def execSetCountDone (n : Paddock) (s : State) : Res :=
  .next (s.onHw fun h =>
    let pg := pgCalliope n
    if h.blkState pg ≠ 3 then h
    else
      let h := (List.range 64).foldl (fun h i =>
        let g := h.calGroup n i
        if g.on then (let (a, b) := calProducts g.eff (h.calCount n); h.setCal n i { g with p1 := a, p2 := b }) else h) h
      (h.setBlkState pg (Tab.get h.calBack n.val 0)).raise pg 10)

end Sys2Proof.Machine
end

