-- ==== Sys2Proof/Machine/Gait.lean ====
section
/-! DEFINITION. Gaits and the inrush governor (R373 to R377): requests, ceilings, wakes, raises; what a step boundary does to them. -/
namespace Sys2Proof.Machine

/-- Set the gait in force on a cluster (PT_CLUSTER_GAIT). -/
def Hw.setClusterGait (h : Hw) (l : ClLoc) (g : Nat) : Hw := h.setFld (pgFieldPower l.f + Reg.fieldPower.ptClusterGait) (3 * l.c.val) 3 g
/-- A field of PT_GAIT: REQ 0, CEIL_THERM 4, CEIL_POWER 8, EFF 12. -/
def Hw.gaitFld (h : Hw) (f : Field) (lo : Nat) : Nat := h.fld (pgFieldPower f + Reg.fieldPower.ptGait) lo 3
/-- Set a field of PT_GAIT. -/
def Hw.setGaitFld (h : Hw) (f : Field) (lo v : Nat) : Hw := h.setFld (pgFieldPower f + Reg.fieldPower.ptGait) lo 3 v
/-- The field's domain is powered: POWERING, ON or DRAINING (R384). -/
def Hw.fieldOn (h : Hw) (f : Field) : Bool := decide (1 ≤ h.blkState (pgFieldPower f)) && decide (h.blkState (pgFieldPower f) ≤ 3)
/-- The lower (higher code) of a running gait and the field's ceilings (R374). -/
def Hw.clampGait (h : Hw) (f : Field) (g : Nat) : Nat := if g ≤ 2 then max g (max (h.gaitFld f 4) (h.gaitFld f 8)) else g
/-- The effective gait of a field's clusters (R374). -/
def Hw.effGait (h : Hw) (f : Field) : Nat := h.clampGait f (h.gaitFld f 0)
/-- The request for a field: its paddock's gait while a plan is taken up; else WALK, or REST for a ring in no paddock whose PT_RING_REST bit is set (R374). -/
def Hw.gaitRequest (h : Hw) (f : Field) : Nat :=
  match h.paddockOfField f with
  | some n => if 3 ≤ h.slotState n then h.fld (pgPower + Reg.powerGlobal.paddock0Gait + 4 * n.val) 0 2 else 3
  | none => if h.bit (pgPower + Reg.powerGlobal.ptRingRest) (ringOf f).val then 4 else 3
/-- Clusters of a field at a running gait. -/
def Hw.runningClusters (h : Hw) (f : Field) : List ClLoc := (fieldClusters f).filter fun l => h.clusterGait l ≤ 2
/-- EFF follows the running clusters (R384). -/
def Hw.showEff (h : Hw) (f : Field) : Hw :=
  let g := match h.runningClusters f with | l :: _ => h.clusterGait l | [] => h.clusterGait ⟨f, 0⟩
  h.setGaitFld f 12 g
/-- The power part changed. -/
def Hw.onPw (h : Hw) (f : PowerState → PowerState) : Hw := { h with pw := f h.pw }

/-- A cluster at REST has lost its contents: registers of its core-clock blocks, engines and sequencer (R373); its router, on the AON rail, keeps its own (R372). Fences, ENABLE and which slot is the spare are not lost (notes/assumptions/55.md). -/
def Hw.restLoss (h : Hw) (l : ClLoc) : Hw :=
  let mine := fun (k : Nat) => daRegion k = 3 && daField k = l.f.val && daCluster k = l.c.val && !(daUnit k = 0 && daPage k = 1)
  let kept := fun (k : Nat) => k % 4096 = 0x008 || (k % 4096 = 0x00C && (h.fencedPage (k - 0x00C) || (daPage k = 0 && decide (daUnit k ≤ 5) && h.regN k = 4)))
  { h with
    rf := { h.rf with words := h.rf.words.filter fun p => !mine p.1 || kept p.1 }
    me := h.me.filter fun p => !mine p.1
    ve := h.ve.filter fun p => !mine p.1
    mv := h.mv.filter fun p => !mine p.1
    sq := Tab.erase h.sq l.idx
    syncTaint := h.syncTaint.filter fun p => !mine p.1
    errMark := h.errMark.filter fun p => !mine p.1
    prov := h.prov.filter fun p => !mine p.1 }

/-- A request joins the governor's queue, unless one of the same cluster or field waits or runs; a waiting one takes the new target (R377). -/
def Hw.govAsk (h : Hw) (f : Field) (c : Option (Fin 6)) (target : Nat) : Hw :=
  let same := fun (q : GovReq) => q.field = f.val && q.cluster = c.map (·.val)
  let busy := match c with
    | some c => (Tab.find h.pw.wakes (ClLoc.idx ⟨f, c⟩)).isSome
    | none => (Tab.find h.pw.ramps f.val).isSome
  if busy then h
  else h.onPw fun p =>
    if p.gov.any same then { p with gov := p.gov.map fun q => if same q then { q with target := target } else q }
    else { p with gov := p.gov ++ [⟨f.val, c.map (·.val), target, p.slot, false⟩] }
/-- Withdraw the requests and changes of a field that match. -/
def Hw.govDrop (h : Hw) (f : Field) : Hw :=
  h.onPw fun p => { p with gov := p.gov.filter fun q => q.field ≠ f.val, ramps := Tab.erase p.ramps f.val,
                           wakes := p.wakes.filter fun w => w.1 / 6 ≠ f.val }

/-- The requests that a field's effective gait asks for: wakes of clusters in WALK or REST, a raise of the running ones; a waiting raise that nothing asks for any more is withdrawn (R374 to R377). -/
def Hw.gaitAsk (h : Hw) (f : Field) : Hw :=
  if !h.fieldOn f then h
  else
    let eff := h.effGait f
    let h := (fieldClusters f).foldl (fun h l => if 3 ≤ h.clusterGait l ∧ eff < h.clusterGait l then h.govAsk f (some l.c) eff else h) h
    if 3 ≤ eff then h
    else if (h.runningClusters f).any fun l => decide (h.clusterGait l > eff) then h.govAsk f none eff
    else h.onPw fun p => { p with gov := p.gov.filter fun q => !(q.field = f.val && q.cluster.isNone) }
/-- A field's clusters go to its effective gait: lowerings at once, raises and wakes as requests (R374 to R377). -/
def Hw.gaitApply (h : Hw) (f : Field) : Hw :=
  if !h.fieldOn f then h
  else
    let eff := h.effGait f
    let h := (fieldClusters f).foldl (fun h l =>
      let g := h.clusterGait l
      if eff = 4 then
        (if g = 4 then h else ((h.restLoss l).setClusterGait l 4).onPw fun p => { p with wakes := Tab.erase p.wakes l.idx })
      else if g ≤ 2 ∧ g < eff then h.setClusterGait l eff
      else h) h
    let h := h.gaitAsk f
    let h := if eff ≥ 3 then h.onPw fun p => { p with gov := p.gov.filter fun q => !(q.field = f.val && decide (q.target < eff)), ramps := Tab.erase p.ramps f.val,
                                                      wakes := p.wakes.filter fun w => !(w.1 / 6 = f.val && !w.2.fromRest) } else h
    h.showEff f

/-- ALERT_N follows THERMAL, tripped field fuses, the latch set by ESTOP, and a module that stopped in bring-up; event ALERT goes to both ports when it is asserted (R363, R387). -/
def Hw.showAlert (h : Hw) : Hw :=
  let on := h.bit (pgModule + Reg.module.glbStatus) 2 || (List.finRange 48).any (fun f => h.bit (pgFieldPower f + Reg.fieldPower.ptFuse) 0) ||
    h.fld (pgPower + Reg.powerGlobal.ptLatch) 1 3 = 3 || h.boot.stopped
  let h' : Hw := { h with boot := { h.boot with alert := on } }
  if on && !h.boot.alert then h'.notifyAll [0, 1] 3 else h'
/-- GLB_STATUS.THERMAL holds while a ceiling is below GALLOP, a field is out for heat, or a WARN, LIMIT, HOT or FLOW_LOW condition holds (R381). -/
def Hw.showThermal (h : Hw) : Hw :=
  let hot := (List.finRange 48).any (fun f => decide (h.gaitFld f 4 > 0)) || !h.pw.hotOut.isEmpty || decide (h.pw.coolant ≠ 0) || h.pw.holding.any (fun p => decide (p.2 ≠ 0))
  (h.setGlb 2 hot).showAlert
/-- Set CEIL_THERM, with PT_FIELD_THROTTLED and THERMAL (R380, R381). -/
def Hw.setCeilTherm (h : Hw) (f : Field) (g : Nat) : Hw :=
  let h := h.setGaitFld f 4 g
  let k := pgPower + Reg.powerGlobal.ptFieldThrottledLo + 4 * (f.val / 32)
  (h.setBit k (f.val % 32) (decide (g > 0))).showThermal
/-- CEIL_THERM rises one gait (R381). -/
def Hw.thermRise (h : Hw) (f : Field) : Hw :=
  if h.gaitFld f 4 = 0 then h else (h.setCeilTherm f (h.gaitFld f 4 - 1)).raise (pgFieldPower f) 10

/-- A step boundary of a paddock: ceilings whose change waited for it move, requests take the paddock's gait (R374, R376, R381, R382). -/
def Hw.gaitBoundary (h : Hw) (n : Paddock) : Hw :=
  (h.paddockFields n).foldl (fun h f =>
    let h := if h.pw.thermUp.contains f.val then h.thermRise f else h
    let cp := h.gaitFld f 8
    let h := if h.pw.powerDown.contains f.val then h.setGaitFld f 8 (min 2 (cp + 1))
      else if h.pw.powerUp.contains f.val then h.setGaitFld f 8 (cp - 1) else h
    let h := h.onPw fun p => { p with thermUp := p.thermUp.erase f.val, powerDown := p.powerDown.erase f.val, powerUp := p.powerUp.erase f.val }
    (h.setGaitFld f 0 (h.gaitRequest f)).gaitApply f) h
/-- The requests of a paddock's fields are formed again, with no boundary: its plan has ended (R374). -/
def Hw.gaitNoPlan (h : Hw) (n : Paddock) : Hw :=
  (h.paddockFields n).foldl (fun h f => (h.setGaitFld f 0 (h.gaitRequest f)).gaitApply f) h

/-- The charge of one cluster's change (R377). -/
def govCharge (src dest : Nat) : Nat :=
  match src with
  | 4 => [120, 90, 55, 10].getD dest 0
  | 3 => [110, 80, 45].getD dest 0
  | 2 => [65, 35].getD dest 0
  | 1 => [30].getD dest 0
  | _ => 0

end Sys2Proof.Machine
end

