-- ==== Sys2Proof/Machine/CommitBase.lean ====
section
/-! DEFINITION. The step-commit engine's shard digest and its comparison with the partner's (R283, R284, R286, R287). -/
namespace Sys2Proof.Machine

/-- A paddock's step-commit engine. -/
def Hw.scAt (h : Hw) (n : Paddock) : CommitState := Tab.get h.sc n.val CommitState.empty
/-- Set a paddock's step-commit engine. -/
def Hw.setSc (h : Hw) (n : Paddock) (x : CommitState) : Hw := { h with sc := Tab.set h.sc n.val x }
/-- Change a paddock's step-commit engine. -/
def Hw.onSc (h : Hw) (n : Paddock) (f : CommitState → CommitState) : Hw := h.setSc n (f (h.scAt n))
/-- A configuration word as latched at take-up (R271). -/
def Hw.scCfg (h : Hw) (n : Paddock) (off : Nat) : Nat := Tab.get (h.scAt n).latched off (h.regN (pgCommit n + off))
/-- STEP_COMMITTED. -/
def Hw.committed (h : Hw) (n : Paddock) : Nat := h.reg64 (pgCommit n + Reg.stepCommit.stepCommittedLo)
/-- The step being decided. -/
def Hw.openStep (h : Hw) (n : Paddock) : Nat := (h.committed n + 1) % 2 ^ 48
/-- A field of SC_PROGRESS: ATTEMPT (0, 8), SLOT (8, 1), the sweep run (9, 5), INSTANCE (16, 16). -/
def Hw.progress (h : Hw) (n : Paddock) (lo len : Nat) : Nat := h.fld (pgCommit n + Reg.stepCommit.scProgress) lo len
/-- Set a field of SC_PROGRESS. -/
def Hw.setProgress (h : Hw) (n : Paddock) (lo len v : Nat) : Hw := h.setFld (pgCommit n + Reg.stepCommit.scProgress) lo len v
/-- PARTNER_NODE. -/
def Hw.partnerNode (h : Hw) (n : Paddock) : Nat := h.scCfg n Reg.stepCommit.scPartner % 2 ^ 16
/-- ARB_NODE. -/
def Hw.arbNode (h : Hw) (n : Paddock) : Nat := bitsOf (h.scCfg n Reg.stepCommit.scPartner) 16 16
/-- VOTE_TIMEOUT in ns. -/
def Hw.voteTimeout (h : Hw) (n : Paddock) : Nat := 1000 * (h.scCfg n Reg.stepCommit.scTimeout % 2 ^ 16)
/-- COMMIT_WAIT_LIMIT in ns. -/
def Hw.waitLimit (h : Hw) (n : Paddock) : Nat := 1000000 * (h.scCfg n Reg.stepCommit.scLimits % 2 ^ 16)
/-- RESWEEP_MAX. -/
def Hw.resweepMax (h : Hw) (n : Paddock) : Nat := bitsOf (h.scCfg n Reg.stepCommit.scCfg) 8 4
/-- Offset of the field digest in space 0 (R283). -/
def digestOff : Nat := 0x3FF0100
/-- A 128-bit value in four registers. -/
def Hw.setReg128 (h : Hw) (k v : Nat) : Hw := times 4 h fun i h => h.setRegN (k + 4 * i) (bitsOf v (32 * i) 32)
/-- Four registers as a 128-bit value. -/
def Hw.reg128 (h : Hw) (k : Nat) : Nat := (List.range 4).foldl (fun v i => v + h.regN (k + 4 * i) <<< (32 * i)) 0
/-- SC_DIGEST. -/
def Hw.shardDigest (h : Hw) (n : Paddock) : Nat := h.reg128 (pgCommit n + Reg.stepCommit.scDigest0)

/-- A field has done its part of the sweep: READY, or it has no entries (R285, notes/assumptions/48.md). -/
def Hw.fieldReady (h : Hw) (f : Field) : Bool := (h.ucAt f).entries.isEmpty || h.bit (pgUpdate f + Reg.ucomplex.ucStatus) 3
/-- READY of a member (R285). -/
def Hw.scReady (h : Hw) (n : Paddock) : Bool := (h.paddockFields n).all h.fieldReady

/-- A DIGEST message's payload: GROUP_ID, step, attempt, run, digest (layout: notes/assumptions/47.md). -/
def digestBytes (group step attempt run digest : Nat) : List Byte :=
  leBytes 2 group ++ leBytes 6 step ++ leBytes 1 attempt ++ leBytes 1 run ++ leBytes 16 digest
/-- The sweep is to run again, or after RESWEEP_MAX re-runs the primary asks the arbiter; with none, NO_RESTORE falls (R286, R287). -/
def Hw.digestBad (h : Hw) (n : Paddock) : Hw :=
  let h := (h.onSc n fun x => { x with digestOk := some false }).raise (pgCommit n) 11
  if h.progress n 9 5 ≤ h.resweepMax n then h.onSc n fun x => { x with rerun := true }
  else if h.arbNode n = 0xFFFF then h.onSc n fun x => { x with noRestore := true }
  else
    let h := (h.onSc n fun x => { x with arbAt := some h.clk.now }).setBlkState (pgCommit n) 6
    if h.nodeId < h.partnerNode n then
      h.sendMsg (h.arbNode n) 0x15 (digestBytes (h.groupId n) (h.openStep n) (h.progress n 0 8) (h.progress n 9 5) (h.shardDigest n))
    else h
/-- Two digests of one run agree: an owner whose first run differed counts a transient (R286). -/
def Hw.digestGood (h : Hw) (n : Paddock) : Hw :=
  let h := h.onSc n fun x => { x with digestOk := some true }
  if (h.scAt n).digest1 ≠ h.shardDigest n then (h.count (pgCommit n + Reg.stepCommit.scDigestEvents) 0 16 1).raise (pgCommit n) 12 else h
/-- The partner's digest of this run, if it has come. -/
def Hw.partnerDigest (h : Hw) (n : Paddock) : Option Nat :=
  ((h.scAt n).partner.find? fun m => m.step = h.openStep n && m.attempt = h.progress n 0 8 && m.run = h.progress n 9 5).map (·.digest.toNat)
/-- Own and partner's digest of one run are compared once both are there (R284). -/
def Hw.digestCompare (h : Hw) (n : Paddock) : Hw :=
  let x := h.scAt n
  if x.formed = 0 || x.formed ≠ h.progress n 9 5 || x.digestOk.isSome || x.double then h
  else match h.partnerDigest n with
    | some d =>
      let h := h.setReg128 (pgCommit n + Reg.stepCommit.scPartnerDigest0) d
      if d = h.shardDigest n then h.digestGood n else h.digestBad n
    | none => h
/-- A member without a partner's digest: ACCEPT takes its own; DOUBLE runs the sweep again and pairs its own two (R284). -/
def Hw.unpaired (h : Hw) (n : Paddock) : Hw :=
  if bitOf (h.scCfg n Reg.stepCommit.scCfg) 4 then (h.onSc n fun x => { x with digestOk := some true }).raise (pgCommit n) 17
  else h.onSc n fun x => { x with double := true, rerun := true }
/-- When every field is READY the shard digest of the run is the sum of the field digests modulo 2^128, and goes to the partner (R283, R284). -/
def State.formDigest (s : State) (n : Paddock) : State :=
  let h := s.hw
  let run := h.progress n 9 5
  let x := h.scAt n
  if !x.on || run = 0 || x.formed ≥ run || !x.sweepDue.isEmpty || !h.scReady n then s
  else
    let fs := (h.paddockFields n).filter fun f => !(h.ucAt f).entries.isEmpty
    let d := (fs.foldl (fun a f => a + memNat s.mem (t0Addr f.val 6 0 digestOff) 16) 0) % 2 ^ 128
    let prev := h.shardDigest n
    let h := h.setReg128 (pgCommit n + Reg.stepCommit.scDigest0) d
    let h := h.onSc n fun x => { x with formed := run, formedAt := h.clk.now, digestPrev := prev, digest1 := if run = 1 then d else x.digest1 }
    let h := if x.double then (if prev = d then h.digestGood n else h.digestBad n)
      else if h.partnerNode n = 0xFFFF then h.unpaired n
      else (h.sendMsg (h.partnerNode n) 0x14 (digestBytes (h.groupId n) (h.openStep n) (h.progress n 0 8) run d)).digestCompare n
    { s with hw := h }

end Sys2Proof.Machine
end

