-- ==== Sys2Proof/Machine/VeBase.lean ====
section
/-! DEFINITION. Vector engines (R90 to R127, R250): operands, checks and exceptions, programs; what every VE instruction shares. -/
namespace Sys2Proof.Machine

/-- Field of a VE instruction word (R119). -/
def veF (w : VeWord) (lo len : Nat) : Nat := bitsOf w.toNat lo len
/-- Field of IMM. -/
def veImm (w : VeWord) (lo len : Nat) : Nat := veF w (35 + lo) len
/-- Lanes of a VE (R90, R250). -/
def veLanes : VeLoc → Nat
  | .vcore .. => 128 | .epilogue _ => 64 | .update .. => 256
/-- A V-core VE. -/
def veIsV : VeLoc → Bool
  | .vcore .. => true | _ => false
/-- An update engine. -/
def veIsU : VeLoc → Bool
  | .update .. => true | _ => false
/-- Bytes of the instruction memory a VE runs from (R71, R122, R250). -/
def veImem : VeLoc → Nat
  | .vcore .. => 128 <<< 10 | _ => 256 <<< 10
/-- The field of a VE. -/
def veField : VeLoc → Field
  | .vcore vc _ => vc.cl.f | .epilogue mc => mc.cl.f | .update f _ => f
/-- Where a VE's sync counters lie, and the event bit of a saturating one (R83, R123, R250). An update complex has no register for its counters. -/
def veSync : VeLoc → Nat × Nat
  | .vcore vc _ => (vc.page, 10) | .epilogue mc => (mc.page, 12) | .update f _ => (pgUpdate f + 2 ^ 60, 31)
/-- An address space of a VE: its device address and size (R101, R250). -/
def veSpace (l : VeLoc) (sp : Nat) : Nat × Nat :=
  match l, sp with
  | .vcore vc _, 0 => (t0Addr vc.cl.f.val vc.cl.c.val (6 + vc.v.val) 0, 8 <<< 20)
  | .vcore vc _, _ => (t0Addr vc.cl.f.val vc.cl.c.val 0 0, 48 <<< 20)
  | .epilogue mc, 0 => (t0Addr mc.cl.f.val mc.cl.c.val (mc.slot.val + 1) 0, 16 <<< 20)
  | .epilogue mc, _ => (t0Addr mc.cl.f.val mc.cl.c.val 0 0, 48 <<< 20)
  | .update f _, 0 => (t0Addr f.val 6 0 0, 64 <<< 20)
  | .update _ _, _ => (0, 0)

/-- A VE's state. -/
def Hw.veAt (h : Hw) (l : VeLoc) : VeState := Tab.get h.ve l.page VeState.empty
/-- Set a VE's state. -/
def Hw.setVe (h : Hw) (l : VeLoc) (v : VeState) : Hw := { h with ve := Tab.set h.ve l.page v }
/-- Scalar register; x0 is 0. -/
def VeState.xr (v : VeState) (i : Nat) : Nat := if i = 0 then 0 else Tab.get v.x i 0 % 2 ^ 64
/-- Write a scalar register. -/
def VeState.setXr (v : VeState) (i n : Nat) : VeState := if i = 0 then v else { v with x := Tab.set v.x i (n % 2 ^ 64) }
/-- Bit of a predicate register; p0 is all ones. -/
def VeState.pb (v : VeState) (p i : Nat) : Bool := p = 0 || (Tab.get v.p p 0).testBit i
/-- Set a bit of a predicate register. -/
def VeState.setPb (v : VeState) (p i : Nat) (b : Bool) : VeState := if p = 0 then v else { v with p := Tab.set v.p p (withBits (Tab.get v.p p 0) i 1 (b2n b)) }
/-- A lane of a vector register. -/
def VeState.lane (v : VeState) (r k : Nat) : Nat := Tab.get v.v (r * 256 + k) 0 % 2 ^ 32
/-- Set a lane. -/
def VeState.setLane (v : VeState) (r k n : Nat) : VeState := { v with v := Tab.set v.v (r * 256 + k) (n % 2 ^ 32) }
/-- Element i of a span from register r on, at an element width (R92). -/
def VeState.elem (v : VeState) (lanes sew r i : Nat) : Nat :=
  let e := lanes * 32 / sew
  let q := r + i / e
  let s := i % e
  if sew = 16 then bitsOf (v.lane q (s / 2)) (16 * (s % 2)) 16
  else if sew = 32 then v.lane q s
  else v.lane q (2 * s) + v.lane q (2 * s + 1) <<< 32
/-- Set element i of a span. -/
def VeState.setElem (v : VeState) (lanes sew r i n : Nat) : VeState :=
  let e := lanes * 32 / sew
  let q := r + i / e
  let s := i % e
  if sew = 16 then v.setLane q (s / 2) (withBits (v.lane q (s / 2)) (16 * (s % 2)) 16 n)
  else if sew = 32 then v.setLane q s n
  else (v.setLane q (2 * s) n).setLane q (2 * s + 1) (n >>> 32)

/-- What an instruction sees. -/
structure VeIn where
  l : VeLoc
  w : VeWord
  lanes : Nat
  vl : Nat
  sew : Nat
  g : Nat
  pc : Nat
  st : VeState
  mem : List Host.Cell
  h : Hw

/-- What an instruction leaves: registers, VSTAT bits set, bytes stored (device address, bytes, what the watch is told), the next instruction where it is not the following one, changes elsewhere. -/
structure VeOut where
  st : VeState
  flags : Nat
  stores : List (Nat × List Byte × (Nat → WriteInfo))
  jump : Option Nat
  post : Hw → Hw

/-- Nothing but new registers and flags. -/
def VeOut.regs (st : VeState) (flags : Nat) : VeOut := ⟨st, flags, [], none, id⟩

/-- New registers, and a change elsewhere. -/
def VeOut.also (st : VeState) (f : Hw → Hw) : VeOut := ⟨st, 0, [], none, f⟩

/-- An instruction's rules: its opcode, the bits it uses beside it, a reserved code, a type it does not take, a misaligned register span, overlapping spans, whether it reads memory, its body (or an exception's cause). -/
structure VeRule where
  op : Nat
  used : Nat
  resv : Bool
  badType : Bool
  badAlign : Bool
  overlap : Bool
  reads : Bool
  body : Except Nat VeOut

/-- Destination field. -/
def VeIn.vd (c : VeIn) : Nat := veF c.w 8 5
/-- First source field. -/
def VeIn.vs1 (c : VeIn) : Nat := veF c.w 13 5
/-- Second source field. -/
def VeIn.vs2 (c : VeIn) : Nat := veF c.w 18 5
/-- Third source field. -/
def VeIn.vs3 (c : VeIn) : Nat := veF c.w 23 5
/-- ETYPE. -/
def VeIn.et (c : VeIn) : Nat := veF c.w 32 3
/-- Bit i of the named predicate, inverted by PINV (R93). -/
def VeIn.on (c : VeIn) (i : Nat) : Bool := c.st.pb (veF c.w 28 3) i != bitOf c.w.toNat 31
/-- Active elements (R93). -/
def VeIn.active (c : VeIn) : List Nat := (List.range c.vl).filter c.on
/-- VX: VS2 names a scalar. -/
def VeIn.vx (c : VeIn) : Bool := bitOf c.w.toNat 35
/-- Element i of the span a field names. -/
def VeIn.get (c : VeIn) (r i : Nat) : Nat := c.st.elem c.lanes c.sew r i
/-- Second operand of element i: of VS2, or the scalar it names. -/
def VeIn.get2 (c : VeIn) (i : Nat) : Nat := if c.vx then c.st.xr c.vs2 % 2 ^ c.sew else c.get c.vs2 i
/-- VLMAX (R91). -/
def VeIn.vlmax (c : VeIn) : Nat := c.lanes * 32 / c.sew * c.g

/-- Masks of the fields an instruction uses. -/
def uVD : Nat := 0x1F <<< 8
/-- xd. -/
def uXD : Nat := 0xF <<< 8
/-- A predicate destination. -/
def uPD : Nat := 0x7 <<< 8
/-- VS1. -/
def uVS1 : Nat := 0x1F <<< 13
/-- xs1. -/
def uXS1 : Nat := 0xF <<< 13
/-- A predicate in VS1. -/
def uPS1 : Nat := 0x7 <<< 13
/-- VS2. -/
def uVS2 : Nat := 0x1F <<< 18
/-- xs2. -/
def uXS2 : Nat := 0xF <<< 18
/-- A predicate in VS2. -/
def uPS2 : Nat := 0x7 <<< 18
/-- VS3. -/
def uVS3 : Nat := 0x1F <<< 23
/-- PRED and PINV. -/
def uPR : Nat := 0xF <<< 28
/-- ETYPE. -/
def uET : Nat := 0x7 <<< 32
/-- IMM bits. -/
def uIM (lo len : Nat) : Nat := (2 ^ len - 1) <<< (35 + lo)
/-- VS2 with VX: a scalar's bit 4 is 0. -/
def uVX (w : VeWord) : Nat := uIM 0 1 + (if bitOf w.toNat 35 then uXS2 else uVS2)

/-- Width of an element type. -/
def etBits (t : Nat) : Nat := if t = 1 ∨ t = 2 then 16 else if t = 3 then 64 else 32
/-- Format of a floating-point element type. -/
def etFmt (t : Nat) : FpFmt := match t with | 0 => fp32 | 1 => bf16 | 2 => fp16 | _ => fp64
/-- An integer element type. -/
def etInt (t : Nat) : Bool := t = 4 || t = 5
/-- The VE has an element type: FP64 only a V-core VE (R115, R250). -/
def etHere (l : VeLoc) (t : Nat) : Bool := t ≠ 3 || veIsV l
/-- ETYPE is one that the operation takes, the VE has, and VTYPE's SEW fits (R120). -/
def VeIn.typeOk (c : VeIn) (ts : List Nat) : Bool := ts.contains c.et && etHere c.l c.et && etBits c.et = c.sew
/-- Registers named are multiples of the group (R91). -/
def VeIn.alignOk (c : VeIn) (rs : List Nat) : Bool := rs.all fun r => r % c.g = 0
/-- Span of an operand narrower than VTYPE's SEW (R91). -/
def VeIn.narrowSpan (c : VeIn) (bits : Nat) : Nat := max 1 (c.g * bits / c.sew)

/-- An instruction of the control pipe or with no element type. -/
def ctlRule (op used : Nat) (body : Except Nat VeOut) : VeRule := ⟨op, used, false, false, false, false, false, body⟩
/-- An element-wise rule. -/
def elemRule (c : VeIn) (op used : Nat) (ts : List Nat) (rs : List Nat) (body : Except Nat VeOut) : VeRule :=
  ⟨op, used + uET, decide (c.et ≥ 6), !c.typeOk ts, !c.alignOk rs, false, false, body⟩
/-- Each active element of VD is set by a function that also answers flags. -/
def VeIn.mapElems (c : VeIn) (f : Nat → Nat × Nat) : VeOut :=
  let (st, fl) := c.active.foldl (fun (a : VeState × Nat) i =>
    let (v, fl) := f i
    (a.1.setElem c.lanes c.sew c.vd i v, a.2 ||| fl)) (c.st, 0)
  VeOut.regs st fl

/-- A VE's running state and queue are shown on its pages (R127). -/
def Hw.veShow (h : Hw) (l : VeLoc) (running : Bool) : Hw :=
  let pg := l.page
  let v := h.veAt l
  let waiting := v.wait.isSome || v.umWait.isSome
  let k := pg + Reg.ve.veStatus
  let h := (((h.setBit k 0 running).setBit k 1 waiting).setFld k 2 4 v.queue.length)
  let h := if h.blkState pg ≤ 2 then h.setBlkState pg (if waiting then 2 else b2n running) else h
  match l with
  | .vcore vc e =>
    let h := (h.setBit (vc.page + Reg.vcore.vcStatus) e.val running).setFld (vc.page + Reg.vcore.vcQueueDepth) (4 * e.val) 4 v.queue.length
    if h.blkState vc.page ≤ 1 then h.setBlkState vc.page (b2n (decide (h.fld (vc.page + Reg.vcore.vcStatus) 0 4 ≠ 0))) else h
  | .epilogue mc => mcRunning (mcDepth h mc 4 v.queue.length) mc 4 running
  | .update _ _ => h
/-- A program begins at an offset. -/
def Hw.veBegin (h : Hw) (l : VeLoc) (entry : Nat) : Hw := (h.setRegN (l.page + Reg.ve.vePc) entry).veShow l true
/-- The next queued program begins, or the VE is idle (R122). -/
def Hw.veNext (h : Hw) (l : VeLoc) : Hw :=
  let v := h.veAt l
  match v.queue with
  | e :: q => (h.setVe l { v with queue := q }).veBegin l e
  | [] => h.veShow l false

/-- The cluster whose S-core hears of a VE's errors (R121, R302); an update engine's reach the sweep instead. -/
def Hw.veOwner (h : Hw) : VeLoc → Option ClLoc
  | .vcore vc _ => some vc.cl
  | .epilogue mc => some (h.ownerOf mc)
  | .update _ _ => none
/-- An item's error is reported to its S-core. -/
def Hw.veReport (h : Hw) (l : VeLoc) (cause : Nat) : Hw :=
  match h.veOwner l with
  | some cl => h.reportItem cl l.page cause
  | none => h.setMark l.page true
/-- An exception: offset and cause are logged, VEXC is set, the item is reported failed, the next program begins; an update engine's sequencer stops (R121, R254). -/
def Hw.veExc (h : Hw) (l : VeLoc) (cause : Nat) : Hw :=
  let pg := l.page
  let pc := h.regN (pg + Reg.ve.vePc)
  let h := (h.logError pg pc cause).raise pg 8
  let h := if cause = 11 then (h.count (pg + Reg.ve.veParityCount) 0 16 1).raise pg 9
    else if cause = 12 then (h.count (pg + Reg.ve.veParityCount) 16 16 1).raise pg 9
    else if cause = 15 then (h.count (pg + Reg.ve.veLmemCrc) 16 16 1).raise pg 10
    else h
  let h := match l with
    | .vcore vc _ => h.raise vc.page 8
    | .epilogue mc => (h.logError mc.page pc (cause + 4 <<< 4)).raise mc.page (if cause = 15 then 10 else 8)
    | .update _ _ => h
  let h := h.veReport l (if cause = 12 then 7 else if cause = 15 then 3 else 6)
  match l with
  | .update f e =>
    let u := Tab.get h.uc f.val UcState.empty
    let q := Tab.get u.engines e.val UeState.empty
    ({ h with uc := Tab.set h.uc f.val { u with engines := Tab.set u.engines e.val { q with stopped := true, running := none } } } : Hw).veShow l false
  | _ => h.veNext l

/-- The tests of an instruction in the order of the cause codes; the last is its memory's CRC (R120, R121). -/
def veCause (c : VeIn) (r : VeRule) (x : VeCheck) : Except Nat VeOut :=
  if x = .imemParity then .error 12
  else if veF c.w 0 8 ≠ r.op then .error 1
  else if c.w.toNat &&& (2 ^ 64 - 1 - 0xFF) &&& (2 ^ 64 - 1 - r.used) ≠ 0 ∨ r.resv then .error 2
  else if r.badType then .error 3
  else if r.badAlign then .error 4
  else if r.overlap then .error 5
  else if x = .regParity then .error 11
  else match r.body with
    | .error e => .error e
    | .ok o => match x with
      | .crcFailed _ => if r.reads then .error 15 else .ok o
      | _ => .ok o

/-- What an instruction of a VE sees of the state. -/
def State.veIn (s : State) (l : VeLoc) (w : VeWord) : VeIn :=
  let h := s.hw
  let k := l.page + Reg.ve.veStatus
  { l := l, w := w, lanes := veLanes l, vl := h.fld (l.page + Reg.ve.veVl) 0 13, sew := 16 * 2 ^ (h.fld k 8 2), g := 2 ^ (h.fld k 10 2)
    pc := h.regN (l.page + Reg.ve.vePc), st := h.veAt l, mem := s.mem, h := h }
/-- A VE takes no instruction while it waits or is fenced. -/
def Hw.veBlocked (h : Hw) (l : VeLoc) : Bool :=
  let v := h.veAt l
  let up := match l with | .vcore vc _ => vc.page | .epilogue mc => mc.page | .update f _ => pgUpdate f
  v.wait.isSome || v.umWait.isSome || h.fencedPage l.page || h.fencedPage up
/-- One VE instruction: its checks, its exception, or its effect, after which the program goes on (R97, R121). -/
def veInstr (l : VeLoc) (w : VeWord) (x : VeCheck) (rule : VeIn → VeRule) (s : State) : State :=
  if s.hw.veBlocked l then s
  else
    let c := s.veIn l w
    let r := rule c
    match veCause c r x with
    | .error e => s.onHw fun h => h.veExc l e
    | .ok o =>
      let pg := l.page
      let s := o.stores.foldl (fun s z => s.store (some pg) (veField l).val z.1 z.2.1 z.2.2) s
      s.onHw fun h =>
        let h := h.setVe l o.st
        let h := h.setRegN (pg + Reg.ve.veVstat) (h.regN (pg + Reg.ve.veVstat) ||| o.flags)
        let h := h.setReg64 (pg + Reg.ve.veInstrLo) (h.reg64 (pg + Reg.ve.veInstrLo) + 1)
        let h := if r.reads && x = .crcCorrected then h.count (pg + Reg.ve.veLmemCrc) 0 16 1 else h
        let h := h.setRegN (pg + Reg.ve.vePc) (o.jump.getD (c.pc + 8))
        o.post h

end Sys2Proof.Machine
end

