-- ==== Sys2Proof/Machine/Sweep.lean ====
section
/-! DEFINITION. Arrival ranges and the sweep sequencer of the update complexes (R246 to R255, R269, R283). -/
namespace Sys2Proof.Machine

/-- Field of a sweep entry: n bytes at an offset (R253). -/
def eF (e off n : Nat) : Nat := bitsOf e (8 * off) (8 * n)
/-- A field's engine. -/
def Hw.ueAt (h : Hw) (f : Field) (e : Fin 4) : UeState := Tab.get (h.ucAt f).engines e.val UeState.empty
/-- Set a field's engine. -/
def Hw.setUe (h : Hw) (f : Field) (e : Fin 4) (q : UeState) : Hw :=
  let u := h.ucAt f
  h.setUc f { u with engines := Tab.set u.engines e.val q }
/-- Space 0 of a field's update engines (R250). -/
def ueSram (f : Field) (o : Nat) : Nat := t0Addr f.val 6 0 o

/-- RANGE_ARRIVED: its counter reaches LENGTH: the token is signalled, the mirror copy queued, a KIND 2 counter reduced; ARRIVED once every gradient range is there (R246 to R248). -/
def execRangeArrived (f : Field) (i : Nat) (s : State) : Res :=
  .next (s.onHw fun h =>
    let u := h.ucAt f
    match u.ranges[i]? with
    | some r =>
      if r.arrived || decide (r.count < r.len) then h
      else
        let k2 := decide (r.kind = 2)
        let r' := { r with arrived := !k2, count := if k2 then r.count - r.len else r.count }
        let h := h.setUc f { u with ranges := u.ranges.set i r' }
        let h := match h.paddockOfField f with
          | some n => if r.token = 0 then h else h.tokenSignal n none r.token 1 false
          | none => h
        let h := if r.fwd = 0xFFFF then h else (h.setUc f { h.ucAt f with mirror := (h.ucAt f).mirror ++ [i] }).mirrorNext f
        let pg := pgUpdate f
        if !k2 && (h.ucAt f).ranges.all (fun x => x.kind = 2 || x.arrived) && !h.bit (pg + Reg.ucomplex.ucStatus) 1 then
          (h.setBit (pg + Reg.ucomplex.ucStatus) 1 true).raise pg 8
        else h
    | none => h)

/-- UC_DEFERRED follows the engines' lists. -/
def Hw.ucDeferred (h : Hw) (f : Field) (more : Nat) : Hw :=
  let k := pgUpdate f + Reg.ucomplex.ucDeferred
  let waiting := ((List.finRange 4).map fun e => (h.ueAt f e).deferred.length).sum
  (h.setFld k 0 13 (h.fld k 0 13 + more)).setFld k 16 13 waiting

/-- An engine starts an entry: its copy, x1 to x6, the start of the digest, the program at CODE_OFFSET (R254, R283). -/
def State.entryRun (s : State) (f : Field) (e : Fin 4) (i : Nat) (o : Obj) (deferred : Bool) : State :=
  let u := s.hw.ucAt f
  let x := u.entries.getD i 0
  let off := 0x3FF0000 + 64 * e.val
  let s := s.put (ueSram f off) (leBytes 64 x)
  s.onHw fun h =>
    let l : VeLoc := .update f e
    let n : Paddock := (h.paddockOfField f).getD 0
    let slot := h.genSlot n
    let plane := fun (g : Nat) => o.t1Da + g * (o.size / 2) + eF x 32 8
    let da := fun (j : Nat) => ((u.ranges[j]?).map (·.da)).getD 0
    let v := [(1, off), (2, slot), (3, plane slot), (4, plane (1 - slot)), (5, da (eF x 22 2)), (6, da (eF x 24 2))].foldl
      (fun (v : VeState) (p : Nat × Nat) => v.setXr p.1 p.2) (h.veAt l)
    let d0 := rngMix (0x9E3779B97F4A7C15#64 ^^^ BitVec.ofNat 64 (eF x 8 4))
    let d1 := rngMix (d0 ^^^ BitVec.ofNat 64 (eF x 6 1))
    let h := h.setUe f e { h.ueAt f e with running := some i, wasDeferred := deferred, digest := (d0, d1) }
    let h := h.setRegN (l.page + Reg.uengine.ueEntry) (i + 1 <<< 31)
    ((h.setVe l v).setMark l.page false).veBegin l (eF x 28 4)

/-- A placement command of the sequencer, for the field's paddock (R254). -/
def State.sweepPlace (s : State) (f : Field) (code tier handle : Nat) : State :=
  match s.hw.paddockOfField f with
  | some n => (s.plIssue code (handle + tier <<< 48) n).2
  | none => s

/-- The sequencer walks an engine's entries: one whose object is in T1 runs; one in T2 or on its way is pinned, promoted and deferred (R254). -/
def State.sweepWalk (s : State) (f : Field) (e : Fin 4) : Nat → State
  | 0 => s
  | fuel + 1 =>
    let q := s.hw.ueAt f e
    if q.stopped || q.running.isSome then s
    else match q.todo with
      | [] => s
      | i :: rest =>
        let hd := eF ((s.hw.ucAt f).entries.getD i 0) 0 6
        let s := s.onHw fun h => h.setUe f e { q with todo := rest }
        match s.hw.obj hd with
        | some o =>
          if o.state = .t1 then s.entryRun f e i o false
          else
            let s := s.sweepPlace f 5 0 hd
            let s := if o.state = .t2 then s.sweepPlace f 2 1 hd else s
            State.sweepWalk (s.onHw fun h => (h.setUe f e { h.ueAt f e with deferred := (h.ueAt f e).deferred ++ [i] }).ucDeferred f 1) f e fuel
        | none => State.sweepWalk (s.onHw fun h => (h.setUe f e { h.ueAt f e with deferred := (h.ueAt f e).deferred ++ [i] }).ucDeferred f 1) f e fuel

/-- The sweep of a step starts in a field that has entries (R254, R283). -/
def State.sweepStart (s : State) (f : Field) : State :=
  let u := s.hw.ucAt f
  if u.entries.isEmpty then s
  else
    let s := s.put (ueSram f digestOff) (leBytes 16 0)
    let pg := pgUpdate f
    let s := s.onHw fun h =>
      let idx := fun (e : Nat) => (List.range u.entries.length).filter fun i => eF (u.entries.getD i 0) 21 1 = e
      let h := h.setUc f { u with done := [], engines := (List.range 4).foldl (fun t e => Tab.set t e { UeState.empty with todo := idx e }) u.engines }
      let h := (List.finRange 4).foldl (fun h e => h.setRegN ((VeLoc.update f e).page + Reg.uengine.ueDone) 0) h
      let h := ((h.setBit (pg + Reg.ucomplex.ucStatus) 0 true).setBit (pg + Reg.ucomplex.ucStatus) 3 false).setBit (pg + Reg.ucomplex.ucStatus) 4 false
      ((h.setRegN (pg + Reg.ucomplex.ucDeferred) 0).setReg64 (pg + Reg.ucomplex.ucSweepStartLo) h.stride).setBlkState pg 2
    (List.finRange 4).foldl (fun s e => s.sweepWalk f e (u.entries.length + 1)) s

/-- An entry is done: its digest joins the field's, a deferred entry's pin goes, READY once every entry is done; the engine walks on (R254, R255, R283). -/
def State.entryDone (s : State) (f : Field) (e : Fin 4) : State :=
  let q := s.hw.ueAt f e
  match q.running with
  | none => s
  | some i =>
    let u := s.hw.ucAt f
    let pg := pgUpdate f
    let l : VeLoc := .update f e
    let a := ueSram f digestOff
    let s := s.put a (leBytes 16 (memNat s.mem a 16 + q.digest.1.toNat + q.digest.2.toNat <<< 64))
    let s := s.onHw fun h =>
      let h := h.setUc f { u with done := u.done ++ [i], engines := Tab.set u.engines e.val { q with running := none } }
      let h := h.setRegN (l.page + Reg.uengine.ueEntry) 0
      let h := h.setRegN (l.page + Reg.uengine.ueDone) (h.regN (l.page + Reg.uengine.ueDone) + 1)
      let h := if h.marked l.page then h.watchDrop l.page else h.watchCommit l.page
      if (u.done ++ [i]).eraseDups.length = u.entries.length then
        (((h.setBit (pg + Reg.ucomplex.ucStatus) 3 true).setBit (pg + Reg.ucomplex.ucStatus) 0 false).setBlkState pg 3).raise pg 12
      else h
    let s := if q.wasDeferred then s.sweepPlace f 6 0 (eF (u.entries.getD i 0) 0 6) else s
    let s := match s.hw.paddockOfField f with | some n => s.formDigest n | none => s
    s.sweepWalk f e (u.entries.length + 1)

/-- The PROMOTE of a deferred entry has ended without reaching T1: the entry stays undone (R255). -/
def Hw.promoteFailed (h : Hw) (f : Field) (i : Nat) : Bool :=
  let hd := eF ((h.ucAt f).entries.getD i 0) 0 6
  match h.obj hd with
  | some o => o.state = .t2 && !((h.plQueue (h.homeOf hd)).any fun c => c.handle = hd)
  | none => true
/-- DEFERRED_ENTRY_START: after its list an engine runs its deferred entries in table order, each once its object is in T1 (R255). -/
def execDeferredEntryStart (f : Field) (e : Fin 4) (s : State) : Res :=
  .next <|
    let q := s.hw.ueAt f e
    if q.stopped || q.running.isSome || !q.todo.isEmpty then s
    else match q.deferred.dropWhile fun i => s.hw.promoteFailed f i with
      | i :: rest =>
        (match s.hw.obj (eF ((s.hw.ucAt f).entries.getD i 0) 0 6) with
         | some o =>
           if o.state = .t1 then
             (s.onHw fun h => (h.setUe f e { q with deferred := rest }).ucDeferred f 0).entryRun f e i o true
           else s
         | none => s)
      | [] => s

/-- The step in progress in a field's paddock. -/
def Hw.fieldStep (h : Hw) (f : Field) : Nat := match h.paddockOfField f with | some n => h.openStep n | none => 0
/-- UPDATE_WINDOW_EXPIRE: WINDOW_STRIDES have passed with entries undone; a step in which NOT_READY is set counts once (R255, R269). -/
def execUpdateWindowExpire (f : Field) (s : State) : Res :=
  .next (s.onHw fun h =>
    let pg := pgUpdate f
    let u := h.ucAt f
    let k := pg + Reg.ucomplex.ucStatus
    if h.bit k 0 && !h.bit k 4 && decide (h.stride ≥ h.reg64 (pg + Reg.ucomplex.ucSweepStartLo) + u.window) then
      let h := if u.nrStep = some (h.fieldStep f) then h
        else (h.setUc f { u with nrStep := some (h.fieldStep f) }).count (pg + Reg.ucomplex.ucNotReadyCount) 0 32 1
      (h.setBit k 4 true).raise pg 10
    else h)

/-- UC_CLEAR_COUNTERS (R269). -/
def execUcClearCounters (p : Path) (f : Field) (s : State) : Res :=
  .next <| plainCmd s p (pgUpdate f) 0x02 (s.hw.mayCommand p (pgUpdate f) none) [0, 1, 3] fun h =>
    h.clearRegs (pgUpdate f) [Reg.ucomplex.ucFallback, Reg.ucomplex.ucNotReadyCount, Reg.ucomplex.ucMirror]

/-- Arrival counters and NONFINITE at a step boundary: reduced at COMMIT, cleared where the gradients are discarded (R248). -/
def Hw.arrivalBoundary (h : Hw) (f : Field) (commit : Bool) : Hw :=
  let u := h.ucAt f
  let pg := pgUpdate f
  let step := fun (r : ArrRange) =>
    if r.kind = 2 then r
    else if commit then (if r.arrived then { r with count := r.count - r.len, arrived := false } else r)
    else { r with count := 0, arrived := false }
  let h := h.setUc f { u with ranges := u.ranges.map step }
  ((h.setBit (pg + Reg.ucomplex.ucStatus) 1 false).setBit (pg + Reg.ucomplex.ucStatus) 2 false).setRegN (pg + Reg.ucomplex.ucFirstNf) 0

end Sys2Proof.Machine
end

