-- ==== Sys2Proof/Machine/VeControl.lean ====
section
/-! DEFINITION. Control-pipe instructions of the vector engines (R94, R96, R119 to R124), their programs, starts and commands. -/
namespace Sys2Proof.Machine

/-- A scalar result. -/
def VeIn.setX (c : VeIn) (v : Nat) : Except Nat VeOut := .ok (VeOut.regs (c.st.setXr (veF c.w 8 4) v) 0)
/-- xs1. -/
def VeIn.x1 (c : VeIn) : Nat := c.st.xr (veF c.w 13 4)
/-- xs2. -/
def VeIn.x2 (c : VeIn) : Nat := c.st.xr (veF c.w 18 4)

/-- SETVL: VTYPE, VL and xd; VL_CLAMP where more than VLMAX is asked for (R94). -/
def execSetvl (l : VeLoc) (w : VeWord) (x : VeCheck) (s : State) : Res :=
  .next (veInstr l w x (fun c =>
    let sc := veImm c.w 0 2
    let gc := veImm c.w 2 2
    let max := c.lanes * 32 / (16 * 2 ^ sc) * 2 ^ gc
    let vl := min c.x1 max
    let k := c.l.page + Reg.ve.veStatus
    { ctlRule 0x01 (uXD + uXS1 + uIM 0 4)
        (.ok { VeOut.regs (c.st.setXr (veF c.w 8 4) vl) (if c.x1 > max then 16 else 0) with
               post := fun h => ((h.setFld k 8 2 sc).setFld k 10 2 gc).setFld (c.l.page + Reg.ve.veVl) 0 13 vl }) with
      resv := sc = 3, badType := sc = 2 && !veIsV c.l }) s)
/-- XRDCFG: lanes, VLMAX, VL or VSTAT. -/
def execXrdcfg (l : VeLoc) (w : VeWord) (x : VeCheck) (s : State) : Res :=
  .next (veInstr l w x (fun c => ctlRule 0x02 (uXD + uIM 0 2)
    (c.setX (match veImm c.w 0 2 with
      | 0 => c.lanes | 1 => c.vlmax | 2 => c.vl | _ => c.h.regN (c.l.page + Reg.ve.veVstat)))) s)

/-- A scalar operation of xs1 and xs2. -/
def scalarRule (op : Nat) (f : Nat → Nat → Nat) (c : VeIn) : VeRule := ctlRule op (uXD + uXS1 + uXS2) (c.setX (f c.x1 c.x2))
/-- XADD. -/
def execXadd (l : VeLoc) (w : VeWord) (x : VeCheck) (s : State) : Res := .next (veInstr l w x (scalarRule 0x03 fun a b => a + b) s)
/-- XSUB. -/
def execXsub (l : VeLoc) (w : VeWord) (x : VeCheck) (s : State) : Res := .next (veInstr l w x (scalarRule 0x04 fun a b => a + 2 ^ 64 - b) s)
/-- XADDI: a signed 29-bit immediate. -/
def execXaddi (l : VeLoc) (w : VeWord) (x : VeCheck) (s : State) : Res :=
  .next (veInstr l w x (fun c => ctlRule 0x05 (uXD + uXS1 + uIM 0 29) (c.setX (twos 64 ((c.x1 : Int) + signOf 29 (veImm c.w 0 29))))) s)
/-- XAND. -/
def execXand (l : VeLoc) (w : VeWord) (x : VeCheck) (s : State) : Res := .next (veInstr l w x (scalarRule 0x06 fun a b => a &&& b) s)
/-- XOR. -/
def execXor (l : VeLoc) (w : VeWord) (x : VeCheck) (s : State) : Res := .next (veInstr l w x (scalarRule 0x07 fun a b => a ^^^ b) s)
/-- XSLLI: the amount in IMM[5:0]. -/
def execXslli (l : VeLoc) (w : VeWord) (x : VeCheck) (s : State) : Res :=
  .next (veInstr l w x (fun c => ctlRule 0x08 (uXD + uXS1 + uIM 0 6) (c.setX (c.x1 <<< veImm c.w 0 6))) s)
/-- XSRLI. -/
def execXsrli (l : VeLoc) (w : VeWord) (x : VeCheck) (s : State) : Res :=
  .next (veInstr l w x (fun c => ctlRule 0x09 (uXD + uXS1 + uIM 0 6) (c.setX (c.x1 >>> veImm c.w 0 6))) s)
/-- XMUL. -/
def execXmul (l : VeLoc) (w : VeWord) (x : VeCheck) (s : State) : Res := .next (veInstr l w x (scalarRule 0x0A fun a b => a * b) s)

/-- A jump by IMM, in units of 8 bytes from this instruction; a target outside instruction memory raises PC_RANGE (R119, R121). -/
def VeIn.jumpTo (c : VeIn) (take : Bool) : Except Nat VeOut :=
  let t : Int := (c.pc : Int) + 8 * signOf 29 (veImm c.w 0 29)
  if !take then .ok (VeOut.regs c.st 0)
  else if t < 0 ∨ t ≥ (veImem c.l : Int) then .error 10
  else .ok { VeOut.regs c.st 0 with jump := some t.toNat }
/-- A branch on xs1 and xs2. -/
def branchRule (op : Nat) (t : Nat → Nat → Bool) (c : VeIn) : VeRule := ctlRule op (uXS1 + uXS2 + uIM 0 29) (c.jumpTo (t c.x1 c.x2))
/-- BEQ. -/
def execBeq (l : VeLoc) (w : VeWord) (x : VeCheck) (s : State) : Res := .next (veInstr l w x (branchRule 0x0B fun a b => a = b) s)
/-- BNE. -/
def execBne (l : VeLoc) (w : VeWord) (x : VeCheck) (s : State) : Res := .next (veInstr l w x (branchRule 0x0C fun a b => a ≠ b) s)
/-- BLT, signed. -/
def execBlt (l : VeLoc) (w : VeWord) (x : VeCheck) (s : State) : Res :=
  .next (veInstr l w x (branchRule 0x0D fun a b => decide (signOf 64 a < signOf 64 b)) s)
/-- BGE, signed. -/
def execBge (l : VeLoc) (w : VeWord) (x : VeCheck) (s : State) : Res :=
  .next (veInstr l w x (branchRule 0x0E fun a b => decide (signOf 64 b ≤ signOf 64 a)) s)
/-- JMP. -/
def execJmp (l : VeLoc) (w : VeWord) (x : VeCheck) (s : State) : Res :=
  .next (veInstr l w x (fun c => ctlRule 0x0F (uIM 0 29) (c.jumpTo true)) s)

/-- A VE takes COUNT from a sync counter; a tainted one puts its item in error (R83, R123, R302). -/
def Hw.veTake (h : Hw) (l : VeLoc) (ctr n : Nat) : Hw :=
  let (h, tainted) := h.syncTake (veSync l).1 syncOff ctr n
  if tainted then h.veReport l 9 else h
/-- VWAIT (R123). -/
def execVwait (l : VeLoc) (w : VeWord) (x : VeCheck) (s : State) : Res :=
  .next (veInstr l w x (fun c =>
    let ctr := veImm c.w 0 4
    let n := veImm c.w 4 16
    ctlRule 0x10 (uIM 0 20) (.ok (VeOut.also c.st fun h =>
      if n = 0 then h
      else if n ≤ h.syncGet (veSync c.l).fst syncOff ctr then h.veTake c.l ctr n
      else (h.setVe c.l { h.veAt c.l with wait := some (ctr, n) }).veShow c.l true))) s)
/-- VSIG is issued; its effect follows every earlier instruction (R123). -/
def execVsig (l : VeLoc) (w : VeWord) (x : VeCheck) (s : State) : Res :=
  .next (veInstr l w x (fun c =>
    ctlRule 0x11 ((if veImm c.w 20 1 = 1 then uXS1 else 0) + uIM (if veImm c.w 20 1 = 1 then 4 else 0) (if veImm c.w 20 1 = 1 then 17 else 21))
      (.ok (VeOut.regs { c.st with sigs := c.st.sigs ++ [(c.w, c.x1)] } 0))) s)
/-- VSIG_EFFECT: the oldest signal adds its count to a sync counter or a token (R123). -/
def execVsigEffect (l : VeLoc) (s : State) : Res :=
  .next (s.onHw fun h =>
    let v := h.veAt l
    match v.sigs with
    | (w, x1) :: r =>
      let h := h.setVe l { v with sigs := r }
      let n := veImm w 4 16
      let err := h.marked l.page
      if veImm w 20 1 = 0 then h.syncAdd (veSync l).1 syncOff (veSync l).2 (veImm w 0 4) n err
      else
        let cl := h.veOwner l
        match (match cl with | some x => h.paddockOfCluster x | none => h.paddockOfField (veField l)) with
        | some p => h.tokenSignal p cl x1 n err
        | none => h
    | [] => h)
/-- VWAIT_DONE: the counter holds COUNT, or the channel an UMVWAIT names has a completion record: its status byte goes to xd (R123, R228, R251). -/
def execVwaitDone (l : VeLoc) (s : State) : Res :=
  .next (s.onHw fun h =>
    let v := h.veAt l
    match v.wait, v.umWait, l with
    | some (ctr, n), _, _ =>
      if n ≤ h.syncGet (veSync l).fst syncOff ctr then ((h.setVe l { v with wait := none }).veTake l ctr n).veShow l true else h
    | none, some (k, xd), .update f _ =>
      let m : MvLoc := .site ⟨(2 * f.val + k / 16) % 96, Nat.mod_lt _ (by decide)⟩ ⟨k % 16, Nat.mod_lt _ (by decide)⟩
      (match h.mvTake m with
       | some (r, h) => (h.setVe l ({ v with umWait := none }.setXr xd r.status)).veShow l true
       | none => h)
    | _, _, _ => h)
/-- VSTATC: bits of the mask are cleared (R96). -/
def execVstatc (l : VeLoc) (w : VeWord) (x : VeCheck) (s : State) : Res :=
  .next (veInstr l w x (fun c =>
    let k := c.l.page + Reg.ve.veVstat
    ctlRule 0x12 (uIM 0 8) (.ok { VeOut.regs c.st 0 with post := fun h => h.setRegN k (h.regN k &&& (2 ^ 32 - 1 - veImm c.w 0 8)) })) s)
/-- VMVXS: xd gets the bits of element 0. -/
def execVmvxs (l : VeLoc) (w : VeWord) (x : VeCheck) (s : State) : Res :=
  .next (veInstr l w x (fun c => elemRule c 0x13 (uXD + uVS1) [0, 1, 2, 3, 4, 5] [c.vs1] (c.setX (c.get c.vs1 0))) s)
/-- VMVSX: element 0 gets the low bits of xs1; nothing at VL 0 (R95). -/
def execVmvsx (l : VeLoc) (w : VeWord) (x : VeCheck) (s : State) : Res :=
  .next (veInstr l w x (fun c => elemRule c 0x14 (uVD + uXS1) [0, 1, 2, 3, 4, 5] [c.vd]
    (.ok (VeOut.regs (if c.vl = 0 then c.st else c.st.setElem c.lanes c.sew c.vd 0 c.x1) 0))) s)
/-- VEND: the program ends, its item's watch counts are added unless it is in error, and the next begins; an update engine's entry is done (R121, R122, R146, R254). -/
def execVend (l : VeLoc) (w : VeWord) (x : VeCheck) (s : State) : Res :=
  .next <|
    let ok := !s.hw.veBlocked l && (match veCause (s.veIn l w) (ctlRule 0x1F 0 (.ok (VeOut.regs (s.hw.veAt l) 0))) x with | .ok _ => true | .error _ => false)
    let s := veInstr l w x (fun c => ctlRule 0x1F 0 (.ok (VeOut.regs c.st 0))) s
    if !ok then s
    else match l with
      | .update f e => (s.onHw fun h => h.veShow l false).entryDone f e
      | _ => s.onHw fun h => (if h.marked l.page then h.watchDrop l.page else h.watchCommit l.page).veNext l

/-- A program start for a VE: it begins, or waits in the queue; a full queue discards it (R122). -/
def Hw.veStart (h : Hw) (l : VeLoc) (entry : Nat) (ovf : Hw → Hw) : Hw :=
  let v := h.veAt l
  if !h.bit (l.page + Reg.ve.veStatus) 0 then h.veBegin l entry
  else if v.queue.length < 8 then (h.setVe l { v with queue := v.queue ++ [entry] }).veShow l true
  else ovf h
/-- VC_START_e: a fenced V-core, or a full queue, discards the write and counts it (R122, R127). -/
def execVcStartWrite (p : Path) (l : VcLoc) (e : Fin 4) (v : Word) (s : State) : Res :=
  .next (s.onHw fun h =>
    let ovf := fun (h : Hw) => (h.count (l.page + Reg.vcore.vcStartOvf) 0 32 1).raise l.page 9
    h.pathWrite p l.page (Reg.vcore.vcStart0 + 4 * e.val) fun h =>
    if h.fencedPage l.page then ovf h
    else h.veStart (.vcore l e) (wbits v 3 14 * 8) ovf)
/-- MC_START_e: an ME's or the epilogue VE's program; a fenced M-core or a spare slot discards it (R71, R89). -/
def execMcStartWrite (p : Path) (l : McLoc) (e : Fin 5) (v : Word) (s : State) : Res :=
  .next (s.onHw fun h =>
    let ovf := fun (h : Hw) => (h.count (l.page + Reg.mcore.mcStartOvf) 0 32 1).raise l.page 11
    h.pathWrite p l.page (Reg.mcore.mcStart0 + 4 * e.val) fun h =>
    if h.fencedPage l.page || h.blkState l.page = 4 then ovf h
    else if he : e.val < 4 then meStart h ⟨l, ⟨e.val, he⟩⟩ (wbits v 4 14 * 16)
    else h.veStart (.epilogue l) (wbits v 3 15 * 8) ovf)

/-- VC_CLEAR_SYNC (R127). -/
def execVcClearSync (p : Path) (l : VcLoc) (s : State) : Res :=
  .next <| plainCmd s p l.page 0x01 (s.hw.mayCommand p l.page none) [0] fun h => h.syncClear l.page syncOff
/-- VC_CLEAR_COUNTERS (R127). -/
def execVcClearCounters (p : Path) (l : VcLoc) (s : State) : Res :=
  .next <| plainCmd s p l.page 0x02 (s.hw.mayCommand p l.page none) [0, 1] fun h => h.clearRegs l.page [Reg.vcore.vcStartOvf, Reg.vcore.vcAccbusWait]
/-- VE_CLEAR_COUNTERS (R127). -/
def execVeClearCounters (p : Path) (l : VeLoc) (s : State) : Res :=
  .next <| plainCmd s p l.page 0x02 (s.hw.mayCommand p l.page none) [0, 1, 2] fun h =>
    h.clearRegs l.page [Reg.ve.veInstrLo, Reg.ve.veInstrHi, Reg.ve.veStallDep, Reg.ve.veStallMem, Reg.ve.veStallSync, Reg.ve.veParityCount, Reg.ve.veLmemCrc]
/-- The abort of a step at a VE: queue, waits and signals go, VL is 0, the VE is idle (R124). -/
def Hw.veAbort (h : Hw) (l : VeLoc) : Hw :=
  let h := h.setVe l { h.veAt l with queue := [], wait := none, umWait := none, sigs := [] }
  ((((h.setFld (l.page + Reg.ve.veVl) 0 13 0).veShow l false).setMark l.page false).watchDrop l.page)
/-- The abort at a V-core: its VEs, and its sync counters to 0 (R124). -/
def Hw.vcAbort (h : Hw) (vc : VcLoc) : Hw :=
  ((List.finRange 4).foldl (fun h e => h.veAbort (.vcore vc e)) h).syncClear vc.page syncOff

end Sys2Proof.Machine
end

