-- ==== Sys2Proof/Machine/PlanBase.lean ====
section
/-! DEFINITION. Plan slots and what the halt, the abort and the end of a plan do (R38, R86, R124, R177, R237, R360 to R362, R441). -/
namespace Sys2Proof.Machine

/-- PS_n_STATUS changes: SLOT, and event SLOT_n, follow a change of STATE or RESULT (R363, R367). -/
def Hw.setSlotWord (h : Hw) (n : Paddock) (w : Nat) : Hw :=
  let k := psReg n Reg.hostGlobal.ps0Status
  let old := h.regN k
  let h := h.setRegN k w
  let h := if bitsOf old 0 3 = bitsOf w 0 3 then h else h.raise pgHostGlobal 9
  if bitsOf old 0 8 = bitsOf w 0 8 then h else h.notifyHolder n.val (8 + 4 * n.val)
/-- The slot's state changes; RESULT, STATUS and ENTRY stay. -/
def Hw.setSlot (h : Hw) (n : Paddock) (state : Nat) : Hw := h.setSlotWord n (withBits (h.regN (psReg n Reg.hostGlobal.ps0Status)) 0 3 state)
/-- The slot's state and RESULT change, STATUS and ENTRY too. -/
def Hw.setSlotResult (h : Hw) (n : Paddock) (state result status entry : Nat) : Hw :=
  h.setSlotWord n (state + (result % 16) <<< 4 + (status % 256) <<< 8 + (entry % 2 ^ 16) <<< 16)
/-- An outcome is reported to the slot (R362). -/
def Hw.slotOutcome (h : Hw) (n : Paddock) (outcome reason step : Nat) : Hw :=
  let h := h.setRegN (psReg n Reg.hostGlobal.ps0Outcome) (outcome + reason <<< 4 + (step % 2 ^ 24) <<< 8)
  let k := psReg n Reg.hostGlobal.ps0Seq
  ((h.setFld k 16 16 (h.fld k 16 16 + 1)).raise pgHostGlobal 10).notifyHolder n.val (9 + 4 * n.val)

/-- BLK_STATE of the pages that follow a paddock's plan: watches of its rings and its Calliope (0 none, 1 runs, 2 halted) (R149, R270). -/
def Hw.planPages (h : Hw) (n : Paddock) (st : Nat) : Hw :=
  let h := (h.paddockRings n).foldl (fun h r => h.setBlkState (pgWatch r) st) h
  if h.blkState (pgCalliope n) = 3 then { h with calBack := Tab.set h.calBack n.val st } else h.setBlkState (pgCalliope n) st

/-- M-cores, V-cores and channels of a paddock's plan. -/
def Hw.planMcores (h : Hw) (n : Paddock) : List McLoc := (h.hosts n).flatMap fun l => (List.range 4).filterMap fun m => h.mcoreSlot l m
/-- Channels of a paddock (R221). -/
def Hw.planChannels (h : Hw) (n : Paddock) : List MvLoc := allChannels.filter fun m => h.mvPaddock m = some n
/-- All routers and hubs. -/
def allRouters : List RtrLoc := (allClusters.map RtrLoc.cluster) ++ (List.finRange 48).map RtrLoc.hub

/-- Slots that name an aborted paddock are cleared, and discard what is still in flight (R177). -/
def Hw.slotsClear (h : Hw) (n : Paddock) : Hw :=
  h.rtr.foldl (fun h p =>
    let x := p.2
    let mine := (x.slots.filter fun s => wbit s.2.1 0 && wbits s.2.1 28 2 = n.val).map (·.1)
    if mine.isEmpty then h
    else { h with rtr := Tab.set h.rtr p.1 { x with units := x.units.filter (fun u => !mine.contains u.1), tiles := x.tiles.filter (fun u => !mine.contains u.1),
                                                    aborted := (x.aborted ++ mine).eraseDups } }) h
/-- The Ringmaster releases a paddock's slots (R177). -/
def Hw.slotsRelease (h : Hw) (n : Paddock) : Hw :=
  { h with rtr := h.rtr.map fun p => (p.1, { p.2 with aborted := p.2.aborted.filter fun i =>
      !(match p.2.slots.find? (fun s => s.1 = i) with | some s => wbits s.2.1 28 2 = n.val | none => true) }) }

/-- The sweep of a field stops; BLK_STATE counts arrivals again (R269). -/
def Hw.sweepStop (h : Hw) (f : Field) : Hw :=
  let u := h.ucAt f
  let k := pgUpdate f + Reg.ucomplex.ucStatus
  let h := h.setUc f { u with engines := [], done := [] }
  let h := (List.finRange 4).foldl (fun h e => h.setRegN ((VeLoc.update f e).page + Reg.uengine.ueEntry) 0) h
  let h := ((h.setBit k 0 false).setBit k 3 false).setBit k 4 false
  if h.blkState (pgUpdate f) = 4 then h else h.setBlkState (pgUpdate f) (if u.entries.isEmpty && u.ranges.isEmpty then 0 else 1)

/-- A step aborts: every S-core of the paddock takes PLAN_ABORT and leaves its waits; engines, channels, slots and sweep sequencers stop as R38, R86, R124, R177 and R237 say. -/
def Hw.abortPaddock (h : Hw) (n : Paddock) : Hw :=
  let h := (h.hosts n).foldl (fun h l => h.setSq l { h.sqAt l with planAbort := true, wait := none, tracked := none }) h
  let h := (h.planMcores n).foldl (fun h m => (mcAbort h m).veAbort (.epilogue m)) h
  let h := (h.hosts n).foldl (fun h l => ((h.vcAbort ⟨l, 0⟩).vcAbort ⟨l, 1⟩)) h
  let h := (h.paddockFields n).foldl (fun h f => ((List.finRange 4).foldl (fun h e => h.veAbort (.update f e)) h).sweepStop f) h
  let h := (h.planChannels n).foldl Hw.mvAbort h
  (h.slotsClear n).onSc n fun x => { x with abortStride := some h.stride }

/-- Release pins on objects (R204). -/
def Hw.unpinAll (h : Hw) (handles : List Nat) : Hw :=
  handles.foldl (fun h d => match h.obj d with | some o => h.setObj d { o with pins := o.pins - 1 } | none => h) h

/-- A plan ends: its pins go, watches are cleared, tables and lists of its units are emptied, the slot is EMPTY with a result, the paddock has no plan (R204, R361, R374, R441). -/
def Hw.planEnd (h : Hw) (n : Paddock) (result status entry : Nat) : Hw :=
  let p := h.pad n
  let h := (h.unpinAll p.pinned).setPad n PadState.empty
  let h := ((h.watchClear n).planPages n 0).setBlkState (pgCommit n) 0
  let h := h.onSc n fun x => { CommitState.empty with log := x.log, root := x.root, since := x.since }
  let h := (h.hosts n).foldl (fun h l => h.setSq l { h.sqAt l with items := [], slack := [], begun := [], slackRun := [], current := [], tracked := none, wait := none }) h
  let h := (h.planChannels n).foldl (fun h m => (h.setMv m { h.mvAt m with list := [], listNext := 0, listGo := false }).setFld (m.page + Reg.mover.mvrList) 0 32 0) h
  let h := (h.paddockFields n).foldl (fun h f => (h.setUc f { UcState.empty with records := (h.ucAt f).records, nrStep := (h.ucAt f).nrStep }).sweepStop f) h
  (h.setSlotResult n 0 result status entry).gaitNoPlan n

/-- A take-up fails or is abandoned: every placement made for the plan is undone, its pins go, the slot is EMPTY with a result (R208, R360). -/
def Hw.takeUpEnd (h : Hw) (n : Paddock) (result status entry : Nat) : Hw :=
  ((h.pad n).placed.foldl Hw.unplace h).planEnd n result status entry
/-- The paddock halts: a RUNNING slot is HALTED, a STOPPING plan ends, a take-up is abandoned (R360, R361). -/
def Hw.slotHalt (h : Hw) (n : Paddock) : Hw :=
  if h.slotState n = 3 then (h.setSlot n 4).planPages n 2
  else if h.slotState n = 5 then h.planEnd n 12 0 0
  else if h.slotState n = 2 then h.takeUpEnd n 14 0 0
  else h

end Sys2Proof.Machine
end

