-- ==== Sys2Proof/Machine/Commit.lean ====
section
/-! DEFINITION. Step commit (R271 to R298): votes, outcomes and what they do, digests, doubt, rejoin, walk, commands. -/
namespace Sys2Proof.Machine

/-- The hub at which a member contributes and its slot: of the Ringmaster's four (R154) the first that binds VOTE_RID for the paddock as CRED; none while the group is this module alone (R272, notes/assumptions/49.md). -/
def Hw.voteHub (h : Hw) (n : Paddock) : Option (Field × (Word × Word × Word)) :=
  ([19, 20, 27, 28] : List Field).findSome? fun f =>
    ((h.rtrAt (.hub f)).slots.find? fun p => wbit p.2.1 0 && wbits p.2.1 1 2 = 2 && wbits p.2.1 28 2 = n.val &&
      wbits p.2.1 3 10 = bitsOf (h.scCfg n Reg.stepCommit.scGroup) 16 10 && wbit p.2.1 23).map fun p => (f, p.2)
/-- The module is the group's vote root (R272, R291). -/
def Hw.isRoot (h : Hw) (n : Paddock) : Bool :=
  (h.scAt n).root ||
  match h.voteHub n with
  | none => true
  | some (f, d0, _, _) => wbits d0 24 3 = 6 && !bitOf (h.treeOf f (wbits d0 3 10)) 7

/-- Bytes replaced at an offset. -/
def putAt (l : List Byte) (off : Nat) (bytes : List Byte) : List Byte := l.take off ++ bytes ++ l.drop (off + bytes.length)
/-- A value and its complement in n bytes each (R274). -/
def putPair (l : List Byte) (off offN n v : Nat) : List Byte := putAt (putAt l off (leBytes n v)) offN (leBytes n (2 ^ (8 * n) - 1 - v % 2 ^ (8 * n)))
/-- A vote unit (R274): round, instance, flags [5:0]. -/
def Hw.voteUnit (h : Hw) (n : Paddock) (round inst flags : Nat) : List Byte :=
  let cfg := h.scCfg n Reg.stepCommit.scCfg
  let u := List.replicate 256 (255 : Byte)
  let u := putPair u 0 6 6 (h.openStep n)
  let u := putPair u 12 13 1 (h.progress n 0 8)
  let u := putPair u 14 15 1 round
  let u := putPair u 16 17 1 (bitsOf cfg 1 4)
  let u := putAt u 18 (leBytes 1 (flags % 64 + 0xC0))
  let u := putPair u 20 22 2 (h.scCfg n Reg.stepCommit.scGroup % 2 ^ 16)
  let u := putPair u 24 26 2 inst
  let u := putPair u 36 48 4 (h.scCfg n Reg.stepCommit.scTimeout)
  let u := putPair u 40 52 3 (h.scCfg n Reg.stepCommit.scLimits % 2 ^ 24)
  let u := putPair u 43 55 1 (bitsOf cfg 8 4)
  putPair u 44 56 4 (h.scCfg n Reg.stepCommit.scLossScale)
/-- Every complement pair of a combined unit agrees (R275). -/
def pairsOk (u : List Byte) : Bool :=
  [(0, 6, 6), (12, 13, 1), (14, 15, 1), (16, 17, 1), (20, 22, 2), (24, 26, 2), (36, 48, 4), (40, 52, 3), (43, 55, 1), (44, 56, 4)].all
    fun (a, b, n) => leAt u a n + leAt u b n = 2 ^ (8 * n) - 1

/-- The outcome and reason of a step vote (R279). -/
def stepOutcome (cfg : Nat) (ok : Bool) (flags : Nat) : Nat × Nat :=
  let nf := bitOf cfg 1
  let sp := bitsOf cfg 2 2
  if !ok then (7, 4)
  else if !bitOf flags 2 then (7, 3)
  else if !bitOf flags 0 then (if nf then (5, 1) else (4, 1))
  else if !bitOf flags 1 && sp = 1 then (4, 2)
  else if !bitOf flags 1 && sp = 2 then (5, 2)
  else (1, if bitOf flags 1 then 0 else 2)
/-- The outcome and reason of a prepare instance; late says COMMIT_WAIT_LIMIT has passed since instance 0 was decided (R285). -/
def prepareOutcome (ok : Bool) (flags : Nat) (late : Bool) : Nat × Nat :=
  if !ok then (6, 4)
  else if !bitOf flags 5 then (8, 6)
  else if bitOf flags 3 && bitOf flags 4 then (2, 0)
  else if late then (6, 5)
  else (3, 0)
/-- ATTEMPT_MAX attempts of the step have ended without a COMMIT: the next outcome is HOLD (R292). -/
def Hw.limitOutcome (h : Hw) (n : Paddock) (o : Nat × Nat) : Nat × Nat :=
  if (h.scAt n).tries ≥ bitsOf (h.scCfg n Reg.stepCommit.scLimits) 16 8 ∧ o.1 ≠ 2 then (5, 8) else o

/-- The logged outcome of a round (R276). -/
def CommitState.logged (x : CommitState) (k : RoundKey) : Option LogEntry := x.log.find? fun e => e.key = k
/-- The log holds PROCEED for an attempt. -/
def CommitState.proceeded (x : CommitState) (step attempt : Nat) : Bool := x.log.any fun e => e.key.step = step && e.key.attempt = attempt && e.outcome = 1
/-- The open round: the step vote until PROCEED, then the prepare instance. -/
def Hw.openKey (h : Hw) (n : Paddock) : RoundKey :=
  let x := h.scAt n
  let step := h.openStep n
  let a := h.progress n 0 8
  if x.retry || x.proceeded step a then ⟨step, a, 2, h.progress n 16 16⟩ else ⟨step, a, 1, 0⟩

/-- Gradients of the paddock at a boundary: reduced, discarded or kept (R248). -/
def Hw.arrivalsAll (h : Hw) (n : Paddock) (commit : Bool) : Hw := (h.paddockFields n).foldl (fun h f => h.arrivalBoundary f commit) h
/-- CAL_LOSS_EXP changes; committed steps count from the change (R282). -/
def Hw.setLossExp (h : Hw) (n : Paddock) (e : Int) : Hw :=
  if e = h.lossExp n then h
  else (h.setFld (pgCalliope n + Reg.calliope.calLossExp) 0 8 (twos 8 e)).onSc n fun x => { x with since := 0 }

/-- A step boundary that occurs in stride b: LOSS_VALID clears, STEP_BASE of the new attempt is set and sent, the attempt begins; a STOPPING plan ends (R39, R267, R280, R292, R361, R376). -/
def Hw.boundary (h : Hw) (n : Paddock) (b attempt : Nat) (retry : Bool) : Hw :=
  let pg := pgCommit n
  let h := (h.setBit (pg + Reg.stepCommit.lossCount) 31 false).calBoundary n
  if h.slotState n = 5 then h.planEnd n 12 0 0
  else
    let h := h.gaitBoundary n
    let base := (b + 1 + (h.pad n).stepGap) % 2 ^ 48
    let h := h.setPad n { h.pad n with stepBase := base }
    let h := (h.hosts n).foldl (fun h l =>
      let q := h.sqAt l
      let h := h.setSq l { q with begun := if retry then List.range q.items.length else [], slackRun := if retry then List.range q.slack.length else [], current := [], itemError := false }
      (h.setReg64 (l.page + Reg.score.stepBaseLo) base).emit (.stepBase l base)) h
    let h := (((h.setProgress n 0 8 attempt).setProgress n 9 5 0).setProgress n 16 16 0).setBlkState pg 1
    let h := (h.paddockFields n).foldl Hw.sweepStop h
    h.onSc n fun x => { x with waiting := none, contAt := none, last := none, voted := false, loss := none, pend := none, sweepArmed := false, sweepDue := [], rerun := false,
                               formed := 0, digest1 := 0, digestPrev := 0, double := false, partner := [], digestOk := none, noRestore := x.walkBad, walkBad := false,
                               arbAt := none, inst0 := none, held := false, retry := retry }
/-- The attempt number after the present one. -/
def Hw.nextAttempt (h : Hw) (n : Paddock) : Nat := (h.progress n 0 8 + 1) % 256
/-- The paddock halts; `held` says whether RESUME may follow (R293, R361). -/
def Hw.commitHalt (h : Hw) (n : Paddock) (held : Bool) : Hw :=
  let h := h.onSc n fun x => { x with held := held, waiting := none, contAt := none, pend := none, sweepArmed := false, sweepDue := [], rerun := false, want := none }
  (h.setBlkState (pgCommit n) 7).slotHalt n
/-- Sweep for a retry starts at the first tick after its boundary (R254, R292): fields with entries become due. -/
def State.sweepArm (s : State) (n : Paddock) : State :=
  let due := (s.hw.paddockFields n).filter fun f => !(s.hw.ucAt f).entries.isEmpty
  let s := s.onHw fun h => ((h.onSc n fun x => { x with sweepArmed := false, sweepDue := due.map (·.val) }).setProgress n 9 5 1).setBlkState (pgCommit n) 3
  if due.isEmpty then s.formDigest n else s
/-- LOSS_EMA and e after a COMMIT (R281, R282). -/
def Hw.commitLoss (h : Hw) (n : Paddock) : Hw :=
  let pg := pgCommit n
  let x := h.scAt n
  let k := pg + Reg.stepCommit.lossCount
  let h := match x.loss with
    | some l =>
      if h.bit k 31 && (match fp32.decode l with | .fin _ _ _ => true | _ => false) then
        let ema := h.regN (pg + Reg.stepCommit.lossEma)
        let new := if h.fld k 0 31 = 0 then l
          else (fp32.fma (h.regN (pg + Reg.stepCommit.spikeAlpha)) (fp32.add l (ema ^^^ 2 ^ 31)).1 ema false false).1
        (h.setRegN (pg + Reg.stepCommit.lossEma) new).count k 0 31 1
      else h
    | none => h
  let ls := h.scCfg n Reg.stepCommit.scLossScale
  let grow := bitsOf ls 16 16
  let h := h.onSc n fun x => { x with since := x.since + 1 }
  if grow ≠ 0 && decide ((h.scAt n).since ≥ grow) then h.setLossExp n (min (h.lossExp n + 1) (signOf 8 (bitsOf ls 8 8))) else h

/-- An outcome takes effect at the tick that begins APPLY_STRIDE, or at once when it comes later (R288, R289, R293); the boundary occurs in stride APPLY_STRIDE − 1. -/
def State.applyOutcome (s : State) (n : Paddock) (e : LogEntry) : State :=
  let pg := pgCommit n
  let b := e.applyAt + 2 ^ 48 - 1
  let s := s.onHw fun h => (h.slotOutcome n e.outcome e.reason e.key.step).onSc n fun x => { x with pend := none, waiting := none }
  match e.outcome with
  | 2 => s.onHw fun h =>
      let h := (h.setProgress n 8 1 (1 - h.genSlot n)).setReg64 (pg + Reg.stepCommit.stepCommittedLo) e.key.step
      let h := ((h.arrivalsAll n true).calCommit n).commitLoss n
      let h := h.onSc n fun x => { x with tries := 0, want := none }
      if e.reason = 7 then
        let h := ((h.setBit (pg + Reg.stepCommit.lossCount) 31 false).calBoundary n).abortPaddock n
        (h.onSc n fun x => { x with voted := false, loss := none }).commitHalt n false
      else h.boundary n b 0 false
  | 4 => s.onHw fun h =>
      let h := h.arrivalsAll n false
      let ls := h.scCfg n Reg.stepCommit.scLossScale
      let h := if e.reason = 1 then h.setLossExp n (max (h.lossExp n - 1) (signOf 8 (bitsOf ls 0 8))) else h
      let h := (h.count (pg + Reg.stepCommit.scSkips) (if e.reason = 1 then 0 else 16) 16 1).raise pg 9
      (h.onSc n fun x => { x with tries := x.tries + 1, want := none }).boundary n b (h.nextAttempt n) false
  | 5 => s.onHw fun h => (h.abortPaddock n).commitHalt n true
  | 6 =>
      let s := s.onHw fun h =>
        let h := (h.count (pg + Reg.stepCommit.scAborts) 0 16 1).raise pg 10
        ((h.abortPaddock n).onSc n fun x => { x with tries := x.tries + 1, want := none }).boundary n b (h.nextAttempt n) true
      if s.hw.scAt n |>.retry then s.sweepArm n else s
  | 7 => s.onHw fun h =>
      let h := ((h.count (pg + Reg.stepCommit.scAborts) 16 16 1).raise pg 10).arrivalsAll n false
      let h := (h.abortPaddock n).onSc n fun x => { x with tries := x.tries + 1, want := none }
      if e.reason = 9 then
        let h := h.commitHalt n false
        if h.slotState n = 4 then h.setSlotResult n 4 9 0 0 else h
      else h.boundary n b (h.nextAttempt n) false
  | 8 => s.onHw fun h => (((h.arrivalsAll n false).abortPaddock n).commitHalt n false).raise pg 16
  | _ => s

/-- A member takes in an outcome, decided here or received: it is logged and, for the open attempt, acted on (R276, R279, R285, R288). -/
def State.adopt (s : State) (n : Paddock) (e : LogEntry) : State :=
  let pg := pgCommit n
  let x := s.hw.scAt n
  if (x.logged e.key).isSome || !x.on then s
  else
    let s := s.onHw fun h =>
      let h := h.onSc n fun x => { x with log := (e :: x.log).take 64 }
      (h.setRegN (pg + Reg.stepCommit.scLastOutcome) (e.outcome + e.reason <<< 4 + (e.key.attempt % 256) <<< 8 + (e.applyAt % 2 ^ 16) <<< 16)).raise pg 8
    if e.key.step ≠ s.hw.openStep n || e.key.attempt ≠ s.hw.progress n 0 8 || x.pend.isSome || s.hw.blkState pg = 7 then s
    else
      let report := fun (h : Hw) => (h.slotOutcome n e.outcome e.reason e.key.step).onSc n fun x => { x with waiting := none }
      match e.outcome with
      | 1 => s.onHw fun h => ((report h).onSc n fun x => { x with sweepArmed := true }).setBlkState pg 3
      | 3 => s.onHw fun h =>
          let h := (report h).setProgress n 16 16 (e.key.inst + 1)
          let h := h.onSc n fun x => { x with contAt := some h.clk.now, inst0 := x.inst0.or (some h.clk.now) }
          let h := match x.want with | some b => h.emit (.abortAsk n.val b) | none => h
          if h.blkState pg = 6 then h else h.setBlkState pg (if h.scReady n then 4 else 3)
      | _ =>
        let s := s.onHw fun h => h.onSc n fun x => { x with pend := some e, waiting := none }
        if (s.hw.stride + 2 ^ 48 - e.applyAt) % 2 ^ 48 < 2 ^ 47 then s.applyOutcome n e else s

/-- A log entry as message bytes (layout: notes/assumptions/47.md). -/
def logBytes (e : LogEntry) : List Byte :=
  leBytes 6 e.key.step ++ leBytes 1 e.key.attempt ++ leBytes 1 e.key.round ++ leBytes 2 e.key.inst ++ leBytes 1 e.outcome ++ leBytes 1 e.reason ++ leBytes 6 e.applyAt
/-- A round as message bytes. -/
def keyBytes (k : RoundKey) : List Byte := leBytes 6 k.step ++ leBytes 1 k.attempt ++ leBytes 1 k.round ++ leBytes 2 k.inst
/-- An outcome with its APPLY_STRIDE (R275). -/
def Hw.entry (h : Hw) (key : RoundKey) (o : Nat × Nat) : LogEntry := ⟨key, o.1, o.2, (h.stride + 2) % 2 ^ 48⟩

/-- The root has combined a round: its outcome, or the one its log already holds for the round, is logged; the returned unit carries it (R275). -/
def State.voteDecide (s : State) (n : Paddock) (u : List Byte) : State × List Byte :=
  let h := s.hw
  let key := ((h.scAt n).waiting).getD (h.openKey n)
  let flags := leAt u 18 1
  let late := match (h.scAt n).inst0 with | some t => decide (h.clk.now ≥ t + h.waitLimit n) | none => false
  let o := if key.round = 1 then stepOutcome (h.scCfg n Reg.stepCommit.scCfg) (pairsOk u) flags else prepareOutcome (pairsOk u) flags late
  let o := h.limitOutcome n o
  let o := if o.1 = 2 && (h.scAt n).missing then (2, 7) else o
  let e := ((h.scAt n).logged key).getD (h.entry key o)
  let ret := putAt (putAt (putAt u 28 (leBytes 1 e.outcome)) 29 (leBytes 1 e.reason)) 30 (leBytes 6 e.applyAt)
  (s.adopt n e, ret)
/-- A member contributes to a round: its unit enters the tree at the Ringmaster's hub; a module alone combines it at once (R272, R277, R285). -/
def State.contribute (s : State) (n : Paddock) (key : RoundKey) (flags state : Nat) : State :=
  let s := s.onHw fun h =>
    (h.onSc n fun x => { x with waiting := some key, votedAt := h.clk.now, contAt := none }).setBlkState (pgCommit n) state
  let u := s.hw.voteUnit n key.round key.inst flags
  match s.hw.voteHub n with
  | none => (s.voteDecide n u).1
  | some (f, d0, _, _) => s.onHw fun h => (unitOut 9 0x3E (wbits d0 3 10) 0 u).foldl (fun h k => h.inject (.hub f) k) h

/-- Every S-core of the paddock has begun its VOTE marker (R277). -/
def Hw.markersBegun (h : Hw) (n : Paddock) : Bool := (h.hosts n).all fun l => (h.sqAt l).voteBegun
/-- UC_STATUS.ARRIVED is set in every field that has gradient ranges (R247, R277). -/
def Hw.allArrived (h : Hw) (n : Paddock) : Bool :=
  (h.paddockFields n).all fun f => (h.ucAt f).ranges.all (·.kind = 2) || h.bit (pgUpdate f + Reg.ucomplex.ucStatus) 1
/-- A plan's attempt runs its items and has not voted. -/
def Hw.mayVote (h : Hw) (n : Paddock) : Bool :=
  let x := h.scAt n
  x.on && !x.voted && !x.retry && x.pend.isNone && h.blkState (pgCommit n) = 1 && h.markersBegun n
/-- The spike test on a latched loss (R281). -/
def Hw.spike (h : Hw) (n : Paddock) (l : Nat) : Bool :=
  let pg := pgCommit n
  let ema := h.regN (pg + Reg.stepCommit.lossEma)
  let hi := (fp32.mul ema (fp32.add 0x3F800000 (h.regN (pg + Reg.stepCommit.spikeK))).1).1
  let m := (fp32.add ema (h.regN (pg + Reg.stepCommit.spikeMargin))).1
  let gt := fun (a b : Nat) => !fp32.isNan a && !fp32.isNan b && decide (fp32.vkey b < fp32.vkey a)
  (match fp32.decode l with | .fin _ _ _ => true | _ => false) && decide (h.fld (pg + Reg.stepCommit.lossCount) 0 31 ≥ h.fld (pg + Reg.stepCommit.spikeWarmup) 0 16) && gt l hi && gt l m
/-- The step-vote contribution: SNAPSHOT of every ring's watch, LOSS_IN latched, FINITE and NOT_SPIKE formed (R277, R278, R280). -/
def State.voteNow (s : State) (n : Paddock) (arrived : Bool) : State :=
  let pg := pgCommit n
  let s := s.onHw fun h => (h.paddockRings n).foldl Hw.watchSnapshot h
  let h := s.hw
  let loss := if h.bit (pg + Reg.stepCommit.lossCount) 31 then some (h.regN (pg + Reg.stepCommit.lossIn)) else none
  let finite := (h.paddockRings n).all (fun r => h.bit (pgWatch r + Reg.watch.nwSnapStatus) 0) &&
    (h.paddockFields n).all (fun f => !h.bit (pgUpdate f + Reg.ucomplex.ucStatus) 2) &&
    (match loss with | some l => (match fp32.decode l with | .fin _ _ _ => true | _ => false) | none => true)
  let spike := bitOf (h.scCfg n Reg.stepCommit.scCfg) 5 && (match loss with | some l => h.spike n l | none => false)
  let s := s.onHw fun h => h.onSc n fun x => { x with voted := true, loss := loss }
  s.contribute n ⟨h.openStep n, h.progress n 0 8, 1, 0⟩ (b2n finite + 2 * b2n (!spike) + 4 * b2n arrived + 0x38) 2

/-- STEP_VOTE_CONTRIBUTE (R277). -/
def execStepVoteContribute (n : Paddock) (s : State) : Res :=
  .next (if s.hw.mayVote n && s.hw.allArrived n then s.voteNow n true else s)
/-- ARRIVAL_TIMEOUT: arrivals are incomplete VOTE_TIMEOUT after the tick that ends the step's last stride (R277). -/
def execArrivalTimeout (n : Paddock) (s : State) : Res :=
  .next <|
    let h := s.hw
    let e := (h.pad n).stepBase + (h.pad n).stepStrides
    if h.mayVote n && !h.allArrived n && (h.pad n).baseInForce && decide (h.stride ≥ e) then
      (s.onHw fun h => h.atLeast (h.tickTime e + h.voteTimeout n)).voteNow n false
    else s
/-- LOSS_IN: the write sets LOSS_VALID; between the contribution and the next boundary it is discarded (R280). -/
def execLossInWrite (p : Path) (n : Paddock) (v : Word) (s : State) : Res :=
  .next (s.onHw fun h =>
    let pg := pgCommit n
    if !h.mayWrite p pg Reg.stepCommit.lossIn then h.denied p
    else if (h.scAt n).voted then h.raise pg 18
    else (h.setReg (pg + Reg.stepCommit.lossIn) v).setBit (pg + Reg.stepCommit.lossCount) 31 true)

/-- SWEEP_START: a field's sweep that is due starts (R254). -/
def execSweepStart (n : Paddock) (f : Field) (s : State) : Res :=
  .next <|
    if (s.hw.scAt n).sweepDue.contains f.val then
      (s.onHw fun h => h.onSc n fun x => { x with sweepDue := x.sweepDue.erase f.val }).sweepStart f
    else s
/-- DIGEST: the partner's digest of a run; compared with the own one of the same run (R284). -/
def execDigest (n : Paddock) (k : DigestMsg) (s : State) : Res :=
  .next (s.onHw fun h =>
    let x := h.scAt n
    if x.on && k.group = h.scCfg n Reg.stepCommit.scGroup % 2 ^ 16 && decide (h.partnerNode n ≠ 0xFFFF) then
      (h.onSc n fun x => { x with partner := (k :: x.partner).take 32 }).digestCompare n
    else h)
/-- DIGEST_TIMEOUT: no digest of the run from the partner within VOTE_TIMEOUT (R284). -/
def execDigestTimeout (n : Paddock) (s : State) : Res :=
  .next (s.onHw fun h =>
    let x := h.scAt n
    if x.on && decide (x.formed ≠ 0) && x.formed = h.progress n 9 5 && x.digestOk.isNone && !x.double && !x.rerun && (h.partnerDigest n).isNone then
      (h.atLeast (x.formedAt + h.voteTimeout n)).unpaired n
    else h)
/-- SWEEP_RERUN: the sweep runs again from G and the retained gradient, overwriting G+1 (R284, R286). -/
def execSweepRerun (n : Paddock) (s : State) : Res :=
  .next <|
    if !(s.hw.scAt n).rerun || s.hw.blkState (pgCommit n) = 7 then s
    else
      let s := s.onHw fun h =>
        ((h.setProgress n 9 5 (h.progress n 9 5 + 1)).onSc n fun x => { x with rerun := false, digestOk := none }).setBlkState (pgCommit n) 3
      let fs := s.hw.paddockFields n
      let s := fs.foldl State.sweepStart s
      s.formDigest n

/-- A member's prepare flags: READY, DIGEST_OK, NO_RESTORE (R285). -/
def Hw.prepareFlags (h : Hw) (n : Paddock) : Nat :=
  7 + 8 * b2n (h.scReady n) + 16 * b2n ((h.scAt n).digestOk = some true) + 32 * b2n (!(h.scAt n).noRestore)
/-- A prepare contribution. -/
def State.prepare (s : State) (n : Paddock) : State :=
  let s := s.onHw fun h => h.onSc n fun x => { x with last := some (h.scReady n, x.digestOk) }
  s.contribute n ⟨s.hw.openStep n, s.hw.progress n 0 8, 2, s.hw.progress n 16 16⟩ (s.hw.prepareFlags n) 4
/-- NOT_READY in some field (R255). -/
def Hw.notReady (h : Hw) (n : Paddock) : Bool := (h.paddockFields n).any fun f => h.bit (pgUpdate f + Reg.ucomplex.ucStatus) 4
/-- The member is past PROCEED, or in a sweep retry, with its sweep begun and no round waiting. -/
def Hw.mayPrepare (h : Hw) (n : Paddock) : Bool :=
  let x := h.scAt n
  x.on && x.waiting.isNone && x.pend.isNone && decide (h.progress n 9 5 ≠ 0) && [3, 4, 6].contains (h.blkState (pgCommit n))
/-- PREPARE_CONTRIBUTE: instance 0, once DIGEST_OK is known or a field is NOT_READY (R285). -/
def execPrepareContribute (n : Paddock) (s : State) : Res :=
  .next <|
    let x := s.hw.scAt n
    if s.hw.mayPrepare n && x.last.isNone && (x.digestOk.isSome || x.noRestore || s.hw.notReady n) then s.prepare n else s
/-- PREPARE_RECONTRIBUTE: the next instance after CONTINUE: at once where READY with DIGEST_OK, on a change of state, or 1 ms after the outcome arrived (R285). -/
def execPrepareRecontribute (n : Paddock) (s : State) : Res :=
  .next <|
    let h := s.hw
    let x := h.scAt n
    match x.contAt with
    | some t =>
      if !h.mayPrepare n then s
      else if (h.scReady n && x.digestOk = some true) || x.last ≠ some (h.scReady n, x.digestOk) || x.noRestore then s.prepare n
      else (s.onHw fun h => h.atLeast (t + 1000000)).prepare n
    | none => s

/-- ARBITRATE, at the arbiter: UNDECIDABLE where the owners' G slots differ, else the digest of the arbitration sweep, to both owners (R287). -/
def execArbitrate (n : Paddock) (k : ArbRequest) (s : State) : Res :=
  .next (s.onHw fun h =>
    let answer := leBytes 6 k.step ++ leBytes 1 k.attempt ++ (if k.slotA = k.slotB then leBytes 1 0 ++ leBytes 16 k.digest.toNat else leBytes 1 1)
    let g := leBytes 2 (h.groupId n)
    (h.sendMsg k.primary.toNat 0x16 (g ++ answer)).sendMsg k.partner.toNat 0x16 (g ++ answer))
/-- Slots copied from another owner: generation slot g of each object (R287, R294). -/
def State.copySlots (s : State) (g : Nat) (slots : List (Handle × List Byte)) : State :=
  slots.foldl (fun s p => match s.hw.obj p.1.toNat with
    | some o => if o.inT1 then s.put (o.t1Da + g * (o.size / 2)) (p.2.take (o.size / 2)) else s
    | none => s) s
/-- ARB_REPLY: an owner whose digest equals the arbiter's keeps its G+1; one whose digest differs copies the other's, whose digest must then be the agreed one; else NO_RESTORE falls (R287). -/
def execArbReply (n : Paddock) (k : ArbAnswer) (s : State) : Res :=
  .next <|
    let h := s.hw
    let x := h.scAt n
    if x.arbAt.isNone || k.step ≠ h.openStep n || k.attempt ≠ h.progress n 0 8 then s
    else
      let fail := s.onHw fun h => (h.onSc n fun x => { x with noRestore := true, arbAt := none }).setBlkState (pgCommit n) 3
      let good := fun (s : State) => s.onHw fun h =>
        let h := (h.onSc n fun x => { x with digestOk := some true, arbAt := none }).setBlkState (pgCommit n) 3
        h.count (pgCommit n + Reg.stepCommit.scDigestEvents) 16 16 1
      match k.digest with
      | none => fail
      | some d =>
        if d.toNat = h.shardDigest n then good s
        else if some d.toNat = h.partnerDigest n then
          good ((s.copySlots (1 - h.genSlot n) k.slots).onHw fun h => h.setReg128 (pgCommit n + Reg.stepCommit.scDigest0) d.toNat)
        else fail
/-- ARB_TIMEOUT: no answer within half of COMMIT_WAIT_LIMIT (R287). -/
def execArbTimeout (n : Paddock) (s : State) : Res :=
  .next (s.onHw fun h =>
    match (h.scAt n).arbAt with
    | some t => ((h.atLeast (t + h.waitLimit n / 2)).onSc n fun x => { x with noRestore := true, arbAt := none }).setBlkState (pgCommit n) 3
    | none => h)

/-- The root decides an abort for a round that has no outcome, and sends it as a DECISION to every reachable member (R290, R304). -/
def State.rootAbort (s : State) (n : Paddock) (k : RoundKey) (hold : Bool) : State :=
  let h := s.hw
  if ((h.scAt n).logged k).isSome then s
  else
    let o := if hold then (5, 7) else h.limitOutcome n (if (h.scAt n).proceeded k.step k.attempt || (h.scAt n).retry then (6, 3) else (7, 3))
    let e := h.entry k o
    (s.onHw fun h => h.emit (.toMembers n.val 0x10 (logBytes e))).adopt n e
/-- ROUND_TIMEOUT: the root's round has not combined within VOTE_TIMEOUT; a member IN_DOUBT that finds the root out of reach takes its role first (R290, R291). -/
def execRoundTimeout (n : Paddock) (s : State) : Res :=
  .next <|
    let h := s.hw
    match (h.scAt n).waiting with
    | some k =>
      let doubt := h.blkState (pgCommit n) = 5
      if !(h.isRoot n) && !doubt then s
      else
        let s := s.onHw fun h =>
          let h := (h.atLeast ((h.scAt n).votedAt + h.voteTimeout n)).onSc n fun x => { x with missing := true }
          if doubt then (h.onSc n fun x => { x with root := true }).raise (pgCommit n) 14 else h
        s.rootAbort n k false
    | none => s
/-- IN_DOUBT: no outcome VOTE_TIMEOUT + DOUBT_MARGIN after the contribution: the member queries the root, its partner and the other members (R291). -/
def execInDoubt (n : Paddock) (s : State) : Res :=
  .next (s.onHw fun h =>
    let x := h.scAt n
    match x.waiting with
    | some k =>
      if h.blkState (pgCommit n) = 5 || x.pend.isSome then h
      else
        let m := 1000 * bitsOf (h.scCfg n Reg.stepCommit.scTimeout) 16 16
        let h := ((h.atLeast (x.votedAt + h.voteTimeout n + m)).setBlkState (pgCommit n) 5).raise (pgCommit n) 13
        let q := leBytes 2 (h.groupId n) ++ keyBytes k
        let h := h.emit (.toRoot n.val 0x11 q)
        let h := if h.partnerNode n = 0xFFFF then h else h.sendMsg (h.partnerNode n) 0x11 q
        h.emit (.toMembers n.val 0x11 q)
    | none => h)
/-- DECISION: an outcome comes outside the tree (R290). -/
def execDecision (n : Paddock) (k : LogEntry) (s : State) : Res := .next (s.adopt n k)
/-- DECISION_QUERY: the answer is the logged outcome, STEP_COMMITTED and the committed slot (R276). -/
def execDecisionQuery (n : Paddock) (k : RoundKey) (q : BitVec 16) (s : State) : Res :=
  .next (s.onHw fun h =>
    let e := match (h.scAt n).logged k with | some e => leBytes 1 1 ++ logBytes e | none => leBytes 1 0 ++ keyBytes k
    h.sendMsg q.toNat 0x12 (leBytes 2 (h.groupId n) ++ leBytes 6 (h.committed n) ++ leBytes 1 (h.genSlot n) ++ e))
/-- DECISION_REPLY: a member IN_DOUBT adopts a logged outcome for its open round (R291). -/
def execDecisionReply (n : Paddock) (k : Option LogEntry) (_q : BitVec 16) (s : State) : Res :=
  .next <|
    match k, (s.hw.scAt n).waiting with
    | some e, some w => if s.hw.blkState (pgCommit n) = 5 && e.key = w then s.adopt n e else s
    | _, _ => s
/-- ABORT_REQUEST: the root decides at once for the round, if its log holds no outcome for it (R304). -/
def execAbortRequest (n : Paddock) (k : RoundKey) (b : Bool) (s : State) : Res :=
  .next (if (s.hw.scAt n).on && s.hw.isRoot n then s.rootAbort n k b else s)
/-- The engine asks the vote root for an abort of the open round, and again for the next while none comes (R304). -/
def Hw.askAbort (h : Hw) (n : Paddock) (hold : Bool) : Hw :=
  let x := h.scAt n
  let hold := hold || x.want = some true
  if !x.on || h.blkState (pgCommit n) = 7 then h
  else (h.onSc n fun x => { x with want := some hold }).emit (.abortAsk n.val hold)

/-- REJOIN (R294). With no peer a reset module needs a restore. -/
def execRejoin (n : Paddock) (k : Option PeerState) (s : State) : Res :=
  .next <|
    let h := s.hw
    let x := h.scAt n
    let pg := pgCommit n
    match k with
    | none => if h.committed n = 0 && x.log.isEmpty then s.onHw fun h => (h.commitHalt n false).raise pg 16 else s
    | some p =>
      let doubt := h.blkState pg = 5
      if doubt && p.step = h.openStep n && x.digestOk = some true then
        s.adopt n ⟨x.waiting.getD (h.openKey n), 2, 0, (h.stride + 1) % 2 ^ 48⟩
      else if doubt && p.step = h.committed n then (match p.logged with | some e => s.adopt n e | none => s)
      else if p.step = h.committed n then s
      else
        let s := s.copySlots (b2n p.slot) p.slots
        s.onHw fun h =>
          let h := (h.setReg64 (pg + Reg.stepCommit.stepCommittedLo) p.step).setProgress n 8 1 (b2n p.slot)
          let h := h.setReg64 (pgCalliope n + Reg.calliope.calCountLo) p.calCount.toNat
          let h := (h.setFld (pgCalliope n + Reg.calliope.calLossExp) 0 8 p.exp.toNat).setReg (pg + Reg.stepCommit.lossEma) p.ema
          h.setReg128 (pg + Reg.stepCommit.scDigest0) p.digest.toNat

/-- The digest of a walk chunk: the word fold of R283 from its chunk offset (R295, notes/assumptions/50.md). -/
def walkDigest (off : Nat) (bytes : List Byte) : Nat :=
  let d0 := rngMix (0x9E3779B97F4A7C15#64 ^^^ BitVec.ofNat 64 off)
  let d1 := rngMix d0
  let words := (List.range ((bytes.length + 7) / 8)).map fun i => BitVec.ofNat 64 (leAt bytes (8 * i) 8)
  let (a, b) := words.foldl (fun (p : BitVec 64 × BitVec 64) w => (rngMix (p.1 ^^^ w), rngMix (p.2 + w))) (d0, d1)
  a.toNat + b.toNat <<< 64
/-- WALK_CHUNK: a chunk of a committed slot is compared with the partner's; a mismatch is read again once, then counts and makes the next prepare round contribute NO_RESTORE = 0 (R295). -/
def execWalkChunk (n : Paddock) (k : ChunkReport) (s : State) : Res :=
  .next <|
    let h := s.hw
    let x := h.scAt n
    let pg := pgCommit n
    let sweeping := (h.paddockFields n).any fun f => h.bit (pgUpdate f + Reg.ucomplex.ucStatus) 0
    match h.obj k.handle.toNat with
    | some o =>
      let half := o.size / 2
      let off := k.chunk <<< 20
      let cfg := if x.on then h.scCfg n Reg.stepCommit.scCfg else h.regN (pg + Reg.stepCommit.scCfg)
      if !bitOf cfg 6 || h.partnerNode n = 0xFFFF || sweeping || !o.inT1 || decide (off ≥ half) || k.step ≠ h.committed n then s
      else
        let a := o.t1Da + h.genSlot n * half + off
        let len := min (1 <<< 20) (half - off)
        let id := (k.handle.toNat, k.chunk)
        let s : State := { s with hw := h.countRead a len }
        s.onHw fun h =>
          if walkDigest off (memBytes s.mem a len) = k.digest.toNat then
            (h.count (pg + Reg.stepCommit.scWalkPos) 0 32 1).onSc n fun x => { x with walkAgain := none }
          else if x.walkAgain = some id then
            ((h.count (pg + Reg.stepCommit.scWalkMismatch) 0 32 1).raise pg 15).onSc n fun x =>
              { x with walkAgain := none, walkBad := !(x.on && x.last.isNone), noRestore := x.noRestore || (x.on && x.last.isNone) }
          else h.onSc n fun x => { x with walkAgain := some id }
    | none => s

/-- A step-commit command (R298). -/
def scCmd (p : Path) (n : Paddock) (code : Nat) (legal : List Nat) (body : State → CmdRes × State) (s : State) : State :=
  runCmd s p (pgCommit n) code (s.hw.mayCommand p (pgCommit n) none) legal body
/-- The plan runs again from its last commit: a new attempt of the step (R293). -/
def Hw.resume (h : Hw) (n : Paddock) : Hw :=
  let h := (h.arrivalsAll n false).onSc n fun x => { x with tries := 0 }
  let h := ((h.setSlot n 3).planPages n 1).slotsRelease n
  h.boundary n h.stride (h.nextAttempt n) false
/-- RESUME: after HOLD, SC_ARG 0 retries as ABORT_DISCARD does, 1 skips as SKIP does without a change of e (R293). -/
def execResume (p : Path) (n : Paddock) (s : State) : Res :=
  .next (scCmd p n 0x01 [7] (fun s =>
    if !(s.hw.scAt n).held then (.illegal, s)
    else if s.hw.regN (pgCommit n + Reg.stepCommit.scArg) > 1 then (.badArg, s)
    else (.ok, s.onHw fun h => h.resume n)) s)
/-- SET_LOSS_EXP: e from SC_ARG, clamped (R298). -/
def execSetLossExp (p : Path) (n : Paddock) (s : State) : Res :=
  .next (scCmd p n 0x02 [0, 7] (fun s => (.ok, s.onHw fun h =>
    let ls := h.scCfg n Reg.stepCommit.scLossScale
    h.setLossExp n (max (signOf 8 (bitsOf ls 0 8)) (min (signOf 8 (bitsOf ls 8 8)) (signOf 8 (h.regN (pgCommit n + Reg.stepCommit.scArg))))))) s)
/-- RESET_LOSS (R298). -/
def execResetLoss (p : Path) (n : Paddock) (s : State) : Res :=
  .next (scCmd p n 0x03 [0, 7] (fun s => (.ok, s.onHw fun h =>
    (h.setRegN (pgCommit n + Reg.stepCommit.lossEma) 0).setRegN (pgCommit n + Reg.stepCommit.lossCount) 0)) s)
/-- SC_CLEAR_COUNTERS (R298). -/
def execScClearCounters (p : Path) (n : Paddock) (s : State) : Res :=
  .next (scCmd p n 0x04 [0, 1, 2, 3, 4, 5, 6, 7] (fun s => (.ok, s.onHw fun h => h.clearRegs (pgCommit n)
    [Reg.stepCommit.scSkips, Reg.stepCommit.scAborts, Reg.stepCommit.scDigestEvents, Reg.stepCommit.scWalkPos, Reg.stepCommit.scWalkMismatch])) s)

/-- At a tick: a waiting outcome whose stride begins is applied, PROCEED's sweep becomes due, slots cleared by an abort are released in the next stride (R177, R254, R288). -/
def State.commitTick (s : State) (n : Paddock) : State :=
  let s := match (s.hw.scAt n).abortStride with
    | some t => if s.hw.stride ≠ t && s.hw.blkState (pgCommit n) ≠ 7 then s.onHw fun h => (h.slotsRelease n).onSc n fun x => { x with abortStride := none } else s
    | none => s
  let s := match (s.hw.scAt n).pend with
    | some e => if (s.hw.stride + 2 ^ 48 - e.applyAt) % 2 ^ 48 < 2 ^ 47 then s.applyOutcome n e else s
    | none => s
  if (s.hw.scAt n).sweepArmed then s.sweepArm n else s
/-- A period change at a tick ends the step of a running plan and halts it (R31). -/
def State.periodAbort (s : State) (n : Paddock) : State :=
  if s.hw.planRunning n then
    let e : LogEntry := ⟨s.hw.openKey n, 7, 9, s.hw.stride⟩
    let s := s.onHw fun h =>
      let h := h.onSc n fun x => { x with log := (e :: x.log).take 64 }
      (h.setRegN (pgCommit n + Reg.stepCommit.scLastOutcome) (7 + 9 <<< 4 + h.progress n 0 8 <<< 8 + (h.stride % 2 ^ 16) <<< 16)).raise (pgCommit n) 8
    s.applyOutcome n e
  else s

/-- The configuration registers latched at take-up (R271). -/
def scLatched : List Nat :=
  [Reg.stepCommit.scCfg, Reg.stepCommit.scPartner, Reg.stepCommit.scGroup, Reg.stepCommit.scTimeout, Reg.stepCommit.scLimits, Reg.stepCommit.scLossScale]
/-- Take-up: the configuration is latched, and the step boundary of the take-up begins the first attempt (R39, R271). -/
def Hw.commitTakeUp (h : Hw) (n : Paddock) : Hw :=
  let old := h.scAt n
  let h := h.setSc n { CommitState.empty with
    on := true, latched := scLatched.foldl (fun t o => Tab.set t o (h.regN (pgCommit n + o))) [], log := old.log, since := old.since }
  (h.planPages n 1).boundary n h.stride 0 false

/-- A CRED flit joins its slot; when every input's head unit is there they are combined by the slot's operation, and go on toward the root; the root decides a vote, or writes and returns a barrier's unit (R171 to R176, R275). -/
def State.credCombine (s : State) (r : RtrLoc) (i : Nat) : State :=
  let h := s.hw
  let x := h.rtrAt r
  let (d0, d1, d2) := x.slot i
  let us := Tab.get x.units i []
  let heads : List (Nat × List RedUnit) := (slotPorts d0).map fun p => (p, (us.filter fun (u : RedUnit) => u.port = p).take 1)
  if heads.isEmpty || heads.any (fun p => p.2.isEmpty) then s
  else
    let us0 := heads.flatMap (·.2)
    let unit := (us0.head?.map (·.unit)).getD 0
    if us0.any fun u => u.unit ≠ unit then
      { s with hw := ((h.setBit (r.page + Reg.router.rtrSlotStatus) (16 + i) true).raise r.page 11).emit (.abortAsk (wbits d0 28 2) false) }
    else
      let (bytes, _) := foldInputs (wbits d0 13 4) ((foldOrder d0 d1).map fun p => (heads.filter fun z => z.1 = p).flatMap fun z => z.2.flatMap (·.payload))
      let rest := us0.foldl (fun us u => us.erase u) us
      let h := h.setRtr r { x with units := if rest.isEmpty then Tab.erase x.units i else Tab.set x.units i rest }
      let h := if rest.isEmpty then h.setBit (r.page + Reg.router.rtrSlotStatus) i false else h
      let h := heads.foldl (fun h z => h.freeCredit r (if z.1 = r.localPort then none else some (z.1, .b, 16 + i))) h
      let rid := wbits d0 3 10
      let out := wbits d0 24 3
      let n : Paddock := ⟨wbits d0 28 2 % 4, Nat.mod_lt _ (by decide)⟩
      let back := fun (s : State) (bytes : List Byte) => if wbit d0 27 then s.onHw fun h => (unitOut 10 (rtrEp r) rid unit bytes).foldl (fun h k => h.inject r k) h else s
      let s : State := { s with hw := h }
      if out ≠ r.localPort then s.onHw fun h => (unitOut 9 (rtrEp r) rid unit bytes).foldl (fun h k => h.sendPort r k out none) h
      else match r with
        | .hub f =>
          if bitOf (h.treeOf f rid) 7 then s.onHw fun h => (unitOut 9 (rtrEp r) rid unit bytes).foldl (fun h k => h.treeSend f (bitsOf (h.treeOf f rid) 4 3) n.val k) h
          else if (h.voteHub n).map (·.1) = some f && (h.scAt n).on && bitsOf (h.scCfg n Reg.stepCommit.scGroup) 16 10 = rid then
            let (s, ret) := s.voteDecide n bytes
            back s ret
          else back (match flitAddr (epNum f.val 6 (wbits d2 0 4)) (wbits d2 4 28 * 256 + unit * 256) with
              | some a => s.store none f.val a bytes plainInfo
              | none => s) bytes
        | .cluster l => back (match flitAddr (epNum l.f.val l.c.val (wbits d2 0 4)) (wbits d2 4 28 * 256 + unit * 256) with
            | some a => s.store none l.f.val a bytes plainInfo
            | none => s) bytes
/-- FLIT_CRED_UP (R173, R275). -/
def execFlitCredUp (r : RtrLoc) (q : Fin 7) (k : Flit) (s : State) : Res :=
  .next <|
    if k.kind ≠ 9 || !s.hw.rtrUp r then s
    else
      let (h, ok) := s.hw.hopIn r q.val k
      match ok, (h.rtrAt r).flitSlot k with
      | true, some i => State.credCombine { s with hw := redAccept h r q.val k } r i
      | _, _ => { s with hw := h }
/-- FLIT_CRED_DOWN: the unit goes back to every input of its slot; a vote's outcome reaches the member at its Ringmaster's hub (R176, R275). -/
def execFlitCredDown (r : RtrLoc) (q : Fin 7) (k : Flit) (s : State) : Res :=
  .next <|
    if k.kind ≠ 10 || !s.hw.rtrUp r then s
    else
      let (h, ok) := s.hw.hopIn r q.val k
      let x := h.rtrAt r
      match ok, x.flitSlot k with
      | true, some i =>
        let h := h.freeCredit r (if q.val = r.localPort then none else some (q.val, Plane.b, 16 + i))
        if x.aborted.contains i then { s with hw := h }
        else
          let (d0, _, _) := x.slot i
          let h := (slotPorts d0).foldl (fun h p => h.sendPort r k p none) h
          let n : Paddock := ⟨wbits d0 28 2 % 4, Nat.mod_lt _ (by decide)⟩
          match r with
          | .hub f =>
            let t := h.treeOf f k.rid
            let h := if wbit d0 23 && bitOf t 3 then h.treeSend f (bitsOf t 0 3) n.val k else h
            let s : State := { s with hw := h }
            if (h.voteHub n).map (·.1) = some f && bitsOf (h.scCfg n Reg.stepCommit.scGroup) 16 10 = k.rid then
              let u := k.data
              match (h.scAt n).waiting with
              | some w => s.adopt n ⟨w, leAt u 28 1, leAt u 29 1, leAt u 30 6⟩
              | none => if h.isRoot n then s else s.adopt n ⟨⟨leAt u 0 6, leAt u 12 1, leAt u 14 1, leAt u 24 2⟩, leAt u 28 1, leAt u 29 1, leAt u 30 6⟩
            else s
          | .cluster _ => { s with hw := h }
      | _, _ => { s with hw := h }

end Sys2Proof.Machine
end

