-- ==== Sys2Proof/Machine/Optical.lean ====
section
/-! DEFINITION. Optical links and what arrives on them (R320 to R347): bring-up, replay, credits, delivery and transit, object requests, heartbeats, failures. -/
namespace Sys2Proof.Machine

/-- A link may run: enabled, in or past stage TIMEBASE, OP_NODE_ID set, its port in service and not off for heat (R322, R332, R390). -/
def Hw.linkMayRun (h : Hw) (k : LinkLoc) : Bool :=
  h.bit (pgPort k.port + Reg.port.opLinkEn) k.link.val && decide (h.blkState pgTimebase ≠ 0) && decide (h.nodeId ≠ 0xFFFF) && decide (h.blkState (pgPort k.port) ≠ 2) && !h.pw.opticOff.contains k.port.val
/-- What a link's unacknowledged or waiting frame means to its source when the link goes down: WRITE and READ_REQ flits are accounted LINK_DOWN, a RED or CRED unit stops its tree and the step aborts (R331). -/
def Hw.frameLost (h : Hw) (k : LinkLoc) (z : Frame) : Hw :=
  let x := z.flit
  if z.kind = 1 && (x.kind = 6 || x.kind = 7 || x.kind = 9 || x.kind = 10) then
    let r := RtrLoc.hub k.port
    match (h.rtrAt r).flitSlot x with
    | some i => ((h.setBit (r.page + Reg.router.rtrSlotStatus) (16 + i) true).raise r.page 11).emit (.abortAsk (wbits ((h.rtrAt r).slot i).1 28 2) false)
    | none => h
  else h.accountFrame k.port z 2
/-- A link leaves service, or its bring-up, for another state (R331). -/
def Hw.opDown (h : Hw) (k : LinkLoc) (st : Nat) : Hw :=
  let l := h.opLink k
  let h := h.setOpLink k { l with state := st, half := false, upper := false, rxSeq := 4095, dropping := false, txSeq := 0, replay := [], outq := [], sent := [], cred := [], freed := [] }
  if l.up then (l.replay ++ l.outq).foldl (fun h z => h.frameLost k z) (h.raise (pgPort k.port) 9) else h
/-- Links take up or leave DISABLED as their enable bits say. -/
def Hw.linkEnable (h : Hw) (k : LinkLoc) : Hw :=
  let st := (h.opLink k).state
  if h.linkMayRun k then (if st = 0 then h.setOpLink k { h.opLink k with state := 1 } else h) else if st = 0 then h else h.opDown k 0
/-- All links of a port; a port is ACTIVE while a link is enabled. -/
def Hw.portEnable (h : Hw) (f : Field) : Hw :=
  let h := (portLinks f).foldl Hw.linkEnable h
  if h.blkState (pgPort f) = 0 && decide (h.fld (pgPort f + Reg.port.opLinkEn) 0 8 ≠ 0) && decide (h.blkState pgTimebase ≠ 0) then h.setBlkState (pgPort f) 1 else h

/-- Frames of the replay buffer are sent again in order (R325). -/
def Hw.resend (h : Hw) (k : LinkLoc) : Hw :=
  let l := h.opLink k
  let h := h.setOpLink k { l with replays := satAdd 32 l.replays l.replay.length, ackAt := h.clk.now }
  l.replay.foldl (fun h z => h.emit (.frame k (l.stamp z))) h
/-- ACK_SEQ, NAK and credits of a good frame (R325, R326). -/
def Hw.hopFields (h : Hw) (k : LinkLoc) (z : Frame) : Hw :=
  let l := h.opLink k
  let ack := z.f 20 12
  let l := if l.replay.any fun y => y.f 8 12 = ack then { l with replay := (l.replay.dropWhile fun y => y.f 8 12 ≠ ack).drop 1, ackAt := h.clk.now } else l
  let l := if z.f 33 3 = 7 then l else { l with cred := Tab.set l.cred (z.f 33 3) (z.f 36 12) }
  let h := h.setOpLink k l
  let h := if z.f 32 1 = 1 then h.resend k else h
  pumpLink h k (l.outq.length + 1)
/-- A received frame: its CRC, its hop fields and its place in the sequence; whether its content is taken (R325). A frame discarded asks for replay by NAK on an IDLE frame. -/
def Hw.frameIn (h : Hw) (k : LinkLoc) (z : Frame) : Hw × Bool :=
  let l := h.opLink k
  let nak := fun (h : Hw) => h.linkSend k (h.mkFrame 0 0 (h.opLink k).peerNode 0 0 0 [])
  if !l.up && decide (l.state ≠ 4) then (h, false)
  else if !z.crcOk then (nak (h.setOpLink k { l with dropping := true, crcErr := satAdd 32 l.crcErr 1 }), false)
  else
    let h := h.hopFields k z
    let l := h.opLink k
    if !z.sequenced then (h, true)
    else if z.f 8 12 = (l.rxSeq + 1) % 4096 then (h.setOpLink k { l with rxSeq := z.f 8 12, dropping := false }, true)
    else if (z.f 8 12 + 4096 - l.rxSeq) % 4096 < 2048 ∧ z.f 8 12 ≠ l.rxSeq then (nak (h.setOpLink k { l with dropping := true }), false)
    else (h, false)
/-- The buffer of a frame is free: one credit of its VC goes back (R326). -/
def Hw.frameFreed (h : Hw) (k : LinkLoc) (z : Frame) : Hw :=
  let l := h.opLink k
  h.setOpLink k { l with freed := Tab.set l.freed (z.f 4 3) ((Tab.get l.freed (z.f 4 3) 0 + 1) % 4096) }

/-- A frame for another node goes on with one hop less, or is discarded at HOPS_LEFT 0 (R334, R335). -/
def Hw.transit (h : Hw) (f : Field) (z : Frame) : Hw :=
  if z.f 96 8 = 0 then (h.count (pgOptGlobal + Reg.optGlobal.opUnreach) 0 32 1).accountFrame f z 2
  else (h.count (pgPort f + Reg.port.opTransit) 0 32 1).routeFrame f (z.put 96 8 (z.f 96 8 - 1))

/-- The paddock that holds the ring of a flit's destination address (R337). -/
def Hw.flitPaddock (h : Hw) (k : Flit) : Option Paddock :=
  match (flitAddr k.dst (if k.kind = 2 then leAt k.data 0 8 else 16 * k.off)).bind physAddr with
  | some q => if hf : fieldOfPhys q < 48 then h.paddockOfField ⟨fieldOfPhys q, hf⟩ else none
  | none => if hf : k.dst % 64 < 48 then h.paddockOfField ⟨k.dst % 64, hf⟩ else none
/-- A WRITE or READ_REQ may be delivered: GROUP is that of a paddock with a plan taken up (R337). -/
def Hw.groupOk (h : Hw) (z : Frame) : Bool :=
  match h.flitPaddock z.flit with
  | some n => decide (z.group = h.groupId n) && decide (3 ≤ h.slotState n)
  | none => false
/-- The context of a stream at a port, or a free one, from 63 down (R337). -/
def Hw.ctxFor (h : Hw) (f : Field) (z : Frame) : Option (Nat × InCtx) :=
  let p := h.opPort f
  let k := z.flit
  match p.ctxs.find? fun c => c.2.node = z.src && c.2.ep = k.src && c.2.tag = k.tag with
  | some c => some c
  | none => (((List.range 64).map fun i => 63 - i).find? fun i => (Tab.find p.ctxs i).isNone).map fun i => (i, ⟨z.src, k.src, k.tag, z.group, 0, h.clk.now⟩)
/-- A WRITE or READ_REQ enters the mesh with its context as its tag; the second part is false where no context is free (R337). -/
def Hw.proxy (h : Hw) (f : Field) (z : Frame) : Hw × Bool :=
  match h.ctxFor f z with
  | none => (h, false)
  | some (i, c) =>
    let p := h.opPort f
    let h := h.setOpPort f { p with ctxs := Tab.set p.ctxs i { c with out := c.out + frameFlits z, last := h.clk.now } }
    (h.inject (.hub f) (Flit.sealed ((z.flit.put 53 13 (epNum f.val 6 3)).put 66 6 i)), true)
/-- A frame is answered REMOTE_REJECT (R336, R337). -/
def Hw.remoteReject (h : Hw) (f : Field) (z : Frame) : Hw := (h.count (pgPort f + Reg.port.opReject) 0 16 1).accountFrame f z 5

/-- A FLIT frame for this node (R337): a WRITE or READ_REQ is delivered, rejected or waits; a RESP or READ_DATA goes to its local stream; a RED or CRED unit goes to hub port 6. -/
def Hw.flitHere (h : Hw) (l : LinkLoc) (z : Frame) : Hw :=
  let f := l.port
  let k := z.flit
  match k.kind with
  | 1 | 2 =>
    if !h.groupOk z then (h.remoteReject f z).frameFreed l z
    else
      let (t, ok) := h.proxy f z
      if ok then t.frameFreed l z
      else
        let p := h.opPort f
        (h.setOpPort f { p with waiting := p.waiting ++ [z.put 8 12 l.link.val] }).count (pgPort f + Reg.port.opInbound) 16 16 1
  | 3 | 4 =>
    let n := if k.kind = 4 then leAt k.data 0 4 else 1
    let tag := if k.kind = 4 then leAt k.data 5 1 % 64 else k.tag
    let h := if hf : k.dst % 64 < 48 then h.streamAcc ⟨k.dst % 64, hf⟩ k.dst tag n else h
    (h.inject (.hub f) k).frameFreed l z
  | 6 | 7 | 9 | 10 =>
    (h.emit (.flit (.hub f) 6 (kindClass k.kind).1 (Flit.sealed (((k.put 53 13 (epNum f.val 6 3)).put 66 6 63).put 0 3 (kindClass k.kind).2)))).frameFreed l z
  | _ => h.frameFreed l z

/-- FRAME_FLIT (R325, R334, R337). A frame of another kind takes its place in the sequence here; a MSG frame for this node goes to the Ringmaster, whose commands carry what it says (R339). -/
def execFrameFlit (k : LinkLoc) (z : Frame) (s : State) : Res :=
  .next (s.onHw fun h =>
    let (h, ok) := h.frameIn k z
    if !ok then h
    else if z.kind = 1 ∨ z.kind = 5 then
      if !(h.opLink k).up then h.frameFreed k z
      else if z.dst ≠ h.nodeId then (h.transit k.port z).frameFreed k z
      else if z.kind = 1 then h.flitHere k z
      else (h.emit (.message z.src (z.f 192 8) (sliceD z.payload 0 256 0))).frameFreed k z
    else if z.kind = 4 then h.frameFreed k z
    else h)

/-- CONTEXT_FREE: all its flits accounted and 64 cycles without a frame; a frame that waits takes the context (R337). -/
def execContextFree (f : Field) (i : Fin 64) (s : State) : Res :=
  .next (s.onHw fun h =>
    let p := h.opPort f
    match Tab.find p.ctxs i.val with
    | some c =>
      if c.out ≠ 0 then h
      else
        let h := (h.atLeast (c.last + 36)).setOpPort f { p with ctxs := Tab.erase p.ctxs i.val }
        match p.waiting with
        | [] => h
        | _ => p.waiting.foldl (fun h z =>
            let (t, ok) := h.proxy f z
            if ok then (t.setOpPort f { t.opPort f with waiting := (t.opPort f).waiting.erase z }).frameFreed ⟨f, ⟨z.f 8 12 % 8, Nat.mod_lt _ (by decide)⟩⟩ z
            else h) h
    | none => h)

/-- REMOTE_TIMEOUT: what a remote stream has unaccounted is accounted LINK_DOWN (R336). -/
def execRemoteTimeout (f : Field) (i : Nat) (s : State) : Res :=
  .next (s.onHw fun h =>
    let p := h.opPort f
    match p.streams[i]? with
    | some x =>
      if x.out = 0 then h
      else
        let h := (h.atLeast (x.last + 1000 * h.fld (pgOptGlobal + Reg.optGlobal.opLimits) 16 16)).setOpPort f { p with streams := p.streams.eraseIdx i }
        (h.respLocal f x.ep x.tag 2 x.out 0).raise (pgPort f) 14
    | none => h)

/-- The bytes an alternate read gives: of the T1 copy, else of the T0 copy; none where neither is held (R215, R338). -/
def altBytes (m : List Host.Cell) (o : Obj) (off len : Nat) : Option (Nat × List Byte) :=
  let base := if o.inT1 then some o.t1Da else if o.inT0 then some o.t0Da else none
  base.map fun a => (a + off, memBytes m (a + off) len)
/-- FRAME_OBJ: an ALT_READ whose GROUP is the owner's, of a handle that exists, at an equal STEP_COMMITTED where CHECK_GEN asks for it, is served by READ_DATA frames and closed by a RESP; else it is answered REMOTE_REJECT or GEN_MISMATCH (R338). READ and WRITE are requests to T2 nodes, which a module is not. -/
def execFrameObj (k : LinkLoc) (z : Frame) (s : State) : Res :=
  .next <|
    let f := k.port
    let (h, ok) := s.hw.frameIn k z
    if !ok || z.kind ≠ 6 || !(h.opLink k).up then { s with hw := h }
    else if z.dst ≠ h.nodeId then { s with hw := (h.transit f z).frameFreed k z }
    else
      let aux := z.f 192 32
      let handle := z.f 112 48
      let off := 256 * (z.f 160 29 + (aux % 2 ^ 11) <<< 29)
      let op := bitsOf aux 11 4
      let len := leAt z.payload 0 4
      let ep := leAt z.payload 16 2 % 2 ^ 13
      let tag := leAt z.payload 18 1 % 64
      let ret := leAt z.payload 28 4
      let n := (len + 255) / 256
      let group := if op = 3 then z.group else 0
      let resp := fun (h : Hw) (st count : Nat) => h.portFlit f z.src group (respFlit (epNum f.val 6 3) ep tag st count (readMark ret))
      let reject := fun (h : Hw) => resp (h.count (pgPort f + Reg.port.opReject) 0 16 1) 5 (if op = 2 then 1 else n)
      let h := h.frameFreed k z
      match op, h.obj handle with
      | 3, some o =>
        if z.group ≠ h.groupId o.own then { s with hw := reject h }
        else if bitOf aux 15 && decide (leAt z.payload 4 6 ≠ h.committed o.own) then { s with hw := resp (h.count (pgPort f + Reg.port.opReject) 16 16 1) 6 n }
        else match altBytes s.mem o off len with
          | none => { s with hw := resp h 8 n }
          | some (a, bytes) =>
            let h := times n (h.countRead a len) fun i h =>
              h.portFlit f z.src group (mkFlit 3 (decide (i + 1 = n)) ep (epNum f.val 6 3) tag (ret + 16 * i) ((bytes.drop (256 * i)).take 256))
            { s with hw := resp h 0 n }
      | _, _ => { s with hw := reject h }

/-- FRAME_REPLAY_TIMEOUT: 8 µs without an acknowledgement that advances (R325). -/
def execFrameReplayTimeout (k : LinkLoc) (s : State) : Res :=
  .next (s.onHw fun h =>
    let l := h.opLink k
    if !l.up || l.replay.isEmpty then h else (h.atLeast (l.ackAt + 8000)).resend k)

/-- FRAME_DELAY: half of the round trip less the peer's turnaround, in 1/16 ns (R340). -/
def execFrameDelay (k : LinkLoc) (a b : Nat) (s : State) : Res :=
  .next (s.onHw fun h =>
    let l := h.opLink k
    if l.up || l.state = 4 then h.setOpLink k { l with delay := (a - b) / 2 % 2 ^ 28, delayAt := h.clk.now } else h)
/-- DELAY_MEASURE: a DELAY frame every 10 ms (R340). -/
def execDelayMeasure (k : LinkLoc) (s : State) : Res :=
  .next (s.onHw fun h =>
    let l := h.opLink k
    if !l.up then h
    else
      let h := (h.atLeast (l.delayAt + 10000000))
      (h.setOpLink k { l with delayAt := h.clk.now }).linkSend k (h.mkFrame 3 3 l.peerNode 0 0 0 []))

/-- Record a peer's identity; a peer that reports this module's own NODE_ID puts the link in CONFLICT (R328, R329). -/
def Hw.identify (h : Hw) (k : LinkLoc) (x : PeerId) : Hw :=
  let h := h.setOpLink k { h.opLink k with peerNode := x.node.toNat, peerPort := x.port.toNat, peerLink := x.link.toNat, peerBoot := x.boot.toNat, hbAt := h.clk.now }
  if x.node.toNat = h.nodeId then (h.opDown k 7).raise (pgPort k.port) 13 else h
/-- HEARTBEAT (R328). -/
def execHeartbeat (k : LinkLoc) (x : PeerId) (s : State) : Res :=
  .next (s.onHw fun h => if (h.opLink k).up || (h.opLink k).state = 4 then h.identify k x else h)
/-- HEARTBEAT_SEND: NODE_ID, port, link and OP_BOOT_COUNT on every link in service (R328). -/
def execHeartbeatSend (f : Field) (s : State) : Res :=
  .next (s.onHw fun h =>
    let h := h.atLeast ((h.opPort f).hbSent + 1000 * h.fld (pgPort f + Reg.port.opHb) 0 16)
    let h := h.setOpPort f { h.opPort f with hbSent := h.clk.now }
    (portLinks f).foldl (fun h k =>
      if (h.opLink k).up then
        h.linkSend k (h.mkFrame 4 3 (h.opLink k).peerNode 0 0 0 (leBytes 2 h.nodeId ++ leBytes 1 f.val ++ leBytes 1 k.link.val ++ leBytes 4 (h.regN (pgOptGlobal + Reg.optGlobal.opBootCount))))
      else h) h)
/-- HEARTBEAT_TIMEOUT: the link goes down to TRAINING (R328). -/
def execHeartbeatTimeout (k : LinkLoc) (s : State) : Res :=
  .next (s.onHw fun h =>
    let l := h.opLink k
    if l.up then (h.atLeast (l.hbAt + 1000 * h.fld (pgPort k.port + Reg.port.opHb) 16 16)).opDown k 4 else h)

/-- ELECT as a message on a link: TB_PRIO, NODE_ID, EPOCH, hops and delay (R343; the layout is notes/assumptions/47.md). -/
def Hw.electOn (h : Hw) (k : LinkLoc) (c : Nat × Nat) (hops delay : Nat) : Hw :=
  h.linkSend k (h.mkFrame 5 3 (h.opLink k).peerNode 0 0 3 (leBytes 1 c.1 ++ leBytes 2 c.2 ++ leBytes 2 h.tb.epoch ++ leBytes 1 hops ++ leBytes 4 delay))
/-- Hops and delay to the best candidate: 0 for this module itself. -/
def Hw.tbPath (h : Hw) : Nat × Nat :=
  if (h.tb.best.map (·.2)) = some h.nodeId then (0, 0)
  else (h.tb.heard.map (·.2)).foldl (fun a b => if b.1 < a.1 ∨ (b.1 = a.1 ∧ b.2 < a.2) then b else a) (255, 0)

/-- LINK_BRINGUP_ADVANCE: DARK, TUNING, LOCKING, TRAINING, UP; leaving TRAINING the identity is known, SEQ and credits are 0 (R329). A link that comes up tells its peer of the timebase's master (R344). -/
def execLinkBringupAdvance (k : LinkLoc) (x : PeerId) (s : State) : Res :=
  .next (s.onHw fun h =>
    let l := h.opLink k
    if !h.linkMayRun k then h
    else match l.state with
      | 1 => h.setOpLink k { l with state := 2, failed := 0 }
      | 2 => h.setOpLink k { l with state := 3 }
      | 3 => h.setOpLink k { l with state := 4 }
      | 4 =>
        let h := h.identify k x
        let l := h.opLink k
        if l.state ≠ 4 then h
        else
          let h := h.setOpLink k { l with state := 5, rxSeq := 4095, dropping := false, txSeq := 0, replay := [], outq := [], sent := [], cred := [], freed := [], delayAt := h.clk.now }
          let h := h.raise (pgPort k.port) 8
          (match h.tb.best with
           | some c => h.electOn k c h.tbPath.1 h.tbPath.2
           | none => h)
      | _ => h)

/-- Lanes of a link fail: half rate on a clean half, the lower where both are clean; down where neither is (R330). -/
def Hw.lanesFail (h : Hw) (k : LinkLoc) (mask : Nat) : Hw :=
  let l := { h.opLink k with failed := (h.opLink k).failed ||| mask % 256 }
  let h := h.setOpLink k l
  if !l.up then h
  else if l.failed % 16 ≠ 0 ∧ l.failed / 16 ≠ 0 then h.opDown k 1
  else if l.failed = 0 then h
  else
    let t := h.setOpLink k { l with state := 6, half := true, upper := decide (l.failed % 16 ≠ 0) }
    if l.state = 6 then t else t.raise (pgPort k.port) 10
/-- LANE_FAIL_RETRAIN: failed lanes, or a corrected-symbol rate above 2.4 × 10⁻⁴ (R330). -/
def execLaneFailRetrain (k : LinkLoc) (b : BitVec 8) (c : Bool) (s : State) : Res :=
  .next (s.onHw fun h =>
    let h := h.lanesFail k b.toNat
    if c && (h.opLink k).state = 5 then (h.setOpLink k { h.opLink k with state := 6 }).raise (pgPort k.port) 10 else h)
/-- OPTICAL_LINK_DOWN (R331, R345). -/
def execOpticalLinkDown (k : LinkLoc) (w : LinkDownCause) (s : State) : Res :=
  .next (s.onHw fun h =>
    let st := match w with | .los => 1 | .noFrame | .fecLost => 3
    let cur := (h.opLink k).state
    if (h.opLink k).up || (decide (st < cur) && decide (cur ≤ 4)) then h.opDown k st else h)
/-- LASER_POWER_LOW: fibre L0 or L1, its wavelength, the power in 0.01 dBm against LOW and LOS (R321). -/
def execLaserPowerLow (f : Field) (i : Fin 2) (j : Fin 8) (v : BitVec 16) (s : State) : Res :=
  .next (s.onHw fun h =>
    let h := h.setOpPort f { h.opPort f with laser := Tab.set (h.opPort f).laser (8 * i.val + j.val) v.toNat }
    let t := h.regN (pgPort f + Reg.port.opLaserThresh)
    let h := if v.toInt < signOf 16 (bitsOf t 0 16) then h.raise (pgPort f) 11 else h
    if v.toInt < signOf 16 (bitsOf t 16 16) then
      ((List.finRange 8).filter fun k => k.val / 4 = i.val).foldl (fun h k => h.lanesFail ⟨f, k⟩ (1 <<< j.val)) (h.raise (pgPort f) 12)
    else h)

/-- CLEAR_COUNTERS of a port (R346). -/
def execOpClearCounters (p : Path) (f : Field) (s : State) : Res :=
  .next (plainCmd s p (pgPort f) 0x01 (s.hw.mayCommand p (pgPort f) none) [1] fun h =>
    let h := (portLinks f).foldl (fun h k => h.setOpLink k { h.opLink k with crcErr := 0, replays := 0, fecCorr := [], fecUncorr := [] }) h
    (h.clearRegs (pgPort f) [Reg.port.opReject, Reg.port.opTransit, Reg.port.opTbMissed]).setFld (pgPort f + Reg.port.opInbound) 16 16 0)
/-- RETRAIN: the selected link, if enabled, returns to TUNING (R346). -/
def execRetrain (p : Path) (f : Field) (s : State) : Res :=
  .next (runCmd s p (pgPort f) 0x02 (s.hw.mayCommand p (pgPort f) none) [1] fun s =>
    let k : LinkLoc := ⟨f, ⟨s.hw.fld (pgPort f + Reg.port.opSel) 0 3 % 8, Nat.mod_lt _ (by decide)⟩⟩
    if s.hw.linkMayRun k then (.ok, s.onHw fun h => h.opDown k 2) else (.illegal, s))
/-- WRITE_TREE: the paddock named is halted or without a plan (R337, R346). -/
def execWriteTree (p : Path) (f : Field) (s : State) : Res :=
  .next (runCmd s p (pgPort f) 0x03 (s.hw.mayCommand p (pgPort f) none) [1] fun s =>
    let v := s.hw.regN (pgPort f + Reg.port.opTreeData)
    if s.hw.planRunning ⟨bitsOf v 8 2, by unfold bitsOf; omega⟩ then (.illegal, s)
    else (.ok, s.onHw fun h => h.setOpPort f { h.opPort f with trees := Tab.set (h.opPort f).trees (h.fld (pgPort f + Reg.port.opTreeSel) 0 10) (v % 2 ^ 10) }))

/-- OP_NODE_ID_WRITE: discarded while any link is in service (R332); links held DISABLED for want of a number may start (R390). -/
def execOpNodeIdWrite (p : Path) (v : Word) (s : State) : Res :=
  .next (s.onHw fun h => h.pathWrite p pgOptGlobal Reg.optGlobal.opNodeId fun h =>
    if allLinks.any fun k => (h.opLink k).up then h.raise pgOptGlobal 0
    else (List.finRange 48).foldl Hw.portEnable (h.setRegN (pgOptGlobal + Reg.optGlobal.opNodeId) (v.toNat % 2 ^ 16)))
/-- OP_RT_DATA_WRITE: the route entry of OP_RT_SEL (R333, R347). -/
def execOpRtDataWrite (p : Path) (v : Word) (s : State) : Res :=
  .next (s.onHw fun h => h.pathWrite p pgOptGlobal Reg.optGlobal.opRtData fun h =>
    { h with routes := Tab.set h.routes (h.fld (pgOptGlobal + Reg.optGlobal.opRtSel) 0 12) (v &&& 0x8000FF3F) })
/-- OP_LINK_EN_WRITE (R322, R390). -/
def execOpLinkEnWrite (p : Path) (f : Field) (v : Word) (s : State) : Res :=
  .next (s.onHw fun h => h.pathWrite p (pgPort f) Reg.port.opLinkEn fun h => (h.setRegN (pgPort f + Reg.port.opLinkEn) (v.toNat % 256)).portEnable f)

end Sys2Proof.Machine
end

