-- ==== Sys2Proof/Machine/Timebase.lean ====
section
/-! DEFINITION. The stride timebase (R28 to R32, R43, R158, R340 to R344): symbols, ticks, stretches, period changes, holdover, elections. -/
namespace Sys2Proof.Machine

/-- The timebase part changed. -/
def Hw.onTb (h : Hw) (f : TbState → TbState) : Hw := { h with tb := f h.tb }
/-- TB_ROLE.ROLE: 0 none, 1 master, 2 follower. -/
def Hw.tbRole (h : Hw) : Nat := h.fld (pgTimebase + Reg.timebase.tbRole) 0 2
/-- TIMEBASE_LEAD_NS. -/
def Hw.tbLead (h : Hw) : Nat := h.fld (pgTimebase + Reg.timebase.timebaseLeadNs) 0 20
/-- STRETCH_INCREMENT in force. -/
def Hw.increment (h : Hw) : Nat := h.fld (pgTimebase + Reg.timebase.stretchIncrement) 0 20
/-- Period and increment that a stride has (R30). -/
def Hw.rateAt (h : Hw) (n : Nat) : Nat × Nat :=
  match h.tb.pend with
  | some (p, i, at_) => if n ≥ at_ then (p, i) else (h.period, h.increment)
  | none => (h.period, h.increment)
/-- A stride is stretched: the master marked it, or its symbol gave the stretched length. -/
def Hw.isStretched (h : Hw) (n : Nat) : Bool :=
  h.tb.stretched.contains n || Tab.find h.tb.lens n = some ((h.rateAt n).1 + (h.rateAt n).2)
/-- The length of a stride to come. -/
def Hw.lenOf (h : Hw) (n : Nat) : Nat :=
  (Tab.find h.tb.lens n).getD ((h.rateAt n).1 + if h.isStretched n then (h.rateAt n).2 else 0)
/-- The time tick m falls on by the local timeline. -/
def Hw.predict (h : Hw) (m : Nat) : Nat :=
  let next := h.clk.tickAt + h.curLen
  if m ≤ h.stride + 1 then next
  else match Tab.find h.tb.due (m - 1) with
    | some t => t + h.lenOf (m - 1)
    | none => next + ((List.range (min (m - h.stride - 1) 64)).map fun i => h.lenOf (h.stride + 1 + i)).sum
/-- The tick root: the hub of the first in-service field among 19, 28, 20, 27 (R158). -/
def Hw.tickRoot (h : Hw) : Option Field := [19, 28, 20, 27].find? fun (f : Field) => h.inService f.val
/-- A TICK flit enters the broadcast tree at the tick root: stride, its length, fire time (R157). -/
def Hw.tickFlit (h : Hw) (m len time : Nat) : Hw :=
  match h.tickRoot with
  | some f => h.inject (.hub f) (mkFlit 8 true (epNum f.val 6 15) (epNum f.val 6 15) 0 0 (leBytes 6 m ++ leBytes 3 len ++ leBytes 8 time))
  | none => h
/-- A paddock of the module has a plan running. -/
def Hw.anyPlan (h : Hw) : Bool := (List.finRange 4).any fun n => h.planRunning n
/-- Links in service. -/
def Hw.upLinks (h : Hw) : List LinkLoc := allLinks.filter fun k => (h.opLink k).up
/-- The link toward the master. -/
def Hw.masterLink (h : Hw) : Option LinkLoc := allLinks.find? fun k => h.tb.up = some k.key

/-- The payload of a TIMING frame (R341). -/
def timingBytes (m len remain master epoch depth prio : Nat) (pend : Option (Nat × Nat × Nat)) : List Byte :=
  leBytes 6 m ++ leBytes 6 len ++ leBytes 4 remain ++ leBytes 2 master ++ leBytes 2 epoch ++ leBytes 1 depth ++ leBytes 3 prio ++
    (match pend with | some (p, i, a) => leBytes 4 p ++ leBytes 4 i ++ leBytes 8 a | none => leBytes 16 0)
/-- A symbol on every timing link downstream: every link in service but the one toward the master (notes/assumptions/51.md). -/
def Hw.sendTiming (h : Hw) (m len due master depth prio : Nat) : Hw :=
  (h.upLinks.filter fun k => h.tb.up ≠ some k.key).foldl (fun h k =>
    h.linkSend k (h.mkFrame 2 3 (h.opLink k).peerNode 0 0 0 (timingBytes m len (16 * (due - h.clk.now)) master h.tb.epoch depth prio h.tb.pend))) h
/-- Enter LOCKED (R29). -/
def Hw.tbLock (h : Hw) : Hw := if h.blkState pgTimebase = 2 then h else (h.setBlkState pgTimebase 2).raise pgTimebase 8
/-- Set TB_ROLE; a change is an event. -/
def Hw.setRole (h : Hw) (role : Nat) (k : Option LinkLoc) : Hw :=
  let v := role + (match k with | some k => k.port.val <<< 8 + 1 <<< 31 | none => 0)
  let r := pgTimebase + Reg.timebase.tbRole
  let t := (h.setRegN r v).onTb fun t => { t with up := k.map (·.key) }
  if h.regN r = v then t else t.raise pgTimebase 10
/-- Flood an ELECT for the best candidate on every link. -/
def Hw.floodElect (h : Hw) : Hw :=
  match h.tb.best with
  | some c => h.upLinks.foldl (fun h k => h.electOn k c h.tbPath.1 h.tbPath.2) h
  | none => h
/-- This module's own candidacy: TB_PRIO other than 0xFF (R343). -/
def Hw.ownCandidate (h : Hw) : Option (Nat × Nat) :=
  let p := h.fld (pgOptGlobal + Reg.optGlobal.tbPrio) 0 8
  if p = 0xFF then none else some (p, h.nodeId)
/-- An election begins: a candidate floods itself with EPOCH + 1 (R343). -/
def Hw.startElection (h : Hw) : Hw :=
  (h.onTb fun t => { t with electing := true, best := h.ownCandidate, heard := [], changedAt := h.clk.now, epoch := (t.epoch + 1) % 2 ^ 16, report := 0 }).floodElect
/-- Enter HOLDOVER, flood TB_LOST, begin an election (R32, R343). -/
def Hw.holdover (h : Hw) : Hw :=
  let h := if h.blkState pgTimebase = 2 then (h.setBlkState pgTimebase 3).raise pgTimebase 9 else h
  (h.floodMsg 2 []).startElection

/-- A lower (TB_PRIO, NODE_ID) is the better candidate (R343). -/
def candidateLt (a b : Nat × Nat) : Bool := decide (a.1 < b.1) || (a.1 = b.1 && decide (a.2 < b.2))
/-- ELECT: a better candidate is kept and flooded on; the path by this link is noted. A locked module that hears of a better master than its own joins (R343, R344). -/
def execElect (k : ElectMsg) (s : State) : Res :=
  .next (s.onHw fun h =>
    let c := (k.prio.toNat, k.node.toNat)
    let path := (k.hops + 1, k.delay + (h.opLink k.link).delay / 16)
    let better := match h.tb.best with | some b => candidateLt c b | none => true
    if c.1 = 0xFF ∨ !(h.opLink k.link).up then h
    else if better then
      let h := if h.tb.electing then h else h.holdover
      let h := h.onTb fun t => { t with best := some c, heard := [(k.link.key, path)], changedAt := h.clk.now, epoch := max t.epoch k.epoch.toNat }
      h.floodElect
    else if h.tb.best = some c then
      if h.tb.electing then h.onTb fun t => { t with heard := Tab.set t.heard k.link.key path, epoch := max t.epoch k.epoch.toNat } else h
    else match h.tb.best with
      | some b => if h.tb.electing then h else h.electOn k.link b h.tbPath.1 h.tbPath.2
      | none => h)

/-- The path with the fewest hops, then the lowest delay, then the lowest port and link (R343). -/
def bestPath : List (Nat × Nat × Nat) → Option (Nat × Nat × Nat)
  | [] => none
  | a :: r => match bestPath r with
    | none => some a
    | some b => some (if b.2.1 < a.2.1 ∨ (b.2.1 = a.2.1 ∧ (b.2.2 < a.2.2 ∨ (b.2.2 = a.2.2 ∧ b.1 < a.1))) then b else a)
/-- ELECTION_SETTLE: 200 µs after the last change the roles are taken; the master goes on from its own timeline, a follower chooses MASTER_PORT and reports its delay (R343). -/
def execElectionSettle (s : State) : Res :=
  .next (s.onHw fun h =>
    if !h.tb.electing || h.blkState pgTimebase = 0 then h
    else
      let h := h.atLeast (h.tb.changedAt + 200000)
      let epochReg := fun (h : Hw) (depth : Nat) => h.setRegN (pgOptGlobal + Reg.optGlobal.tbEpoch) (h.tb.epoch + (depth % 256) <<< 16)
      match h.tb.best with
      | none => ((h.onTb fun t => { t with electing := false }).setRole 0 none)
      | some c =>
        if c.2 = h.nodeId then
          let h := if h.blkState pgTimebase = 1 then { h with clk := { h.clk with tickAt := h.clk.now, ticks := [h.clk.now] } } else h
          let h := h.onTb fun t => { t with electing := false, due := [], slewing := false, sentTo := h.stride + (h.clk.now + h.tbLead - h.clk.tickAt) / max 1 h.period }
          (((epochReg h 0).setRegN (pgOptGlobal + Reg.optGlobal.tbPathDelay) 0).setRole 1 none).tbLock
        else match bestPath (h.tb.heard.filter fun x => allLinks.any fun k => k.key = x.1 && (h.opLink k).up) with
          | none => (h.onTb fun t => { t with electing := false }).setRole 0 none
          | some (key, hops, delay) =>
            let k := allLinks.find? fun k => k.key = key
            let h := (h.onTb fun t => { t with electing := false, lastTiming := h.clk.now }).setRole 2 k
            let h := (epochReg h hops).setRegN (pgOptGlobal + Reg.optGlobal.tbPathDelay) (delay % 2 ^ 24)
            match k with
            | some k => h.linkSend k (h.mkFrame 5 3 (h.opLink k).peerNode 0 0 4 (leBytes 4 delay))
            | none => h)
/-- TB_REPORT: the master's lead becomes the largest reported delay plus 1 µs, rounded up to a whole µs; a follower passes the report up (R343). -/
def execTbReport (a : Nat) (s : State) : Res :=
  .next (s.onHw fun h =>
    if h.tbRole = 1 then
      let m := max h.tb.report a
      (h.onTb fun t => { t with report := m }).setFld (pgTimebase + Reg.timebase.timebaseLeadNs) 0 20 ((m + 1000 + 999) / 1000 * 1000)
    else match h.masterLink with
      | some k => h.linkSend k (h.mkFrame 5 3 (h.opLink k).peerNode 0 0 4 (leBytes 4 a))
      | none => h)
/-- TB_LOST (R343): a module that is locked enters HOLDOVER. -/
def execTbLost (s : State) : Res := .next (s.onHw fun h => if h.blkState pgTimebase = 2 then h.holdover else h)
/-- TB_TIMING_TIMEOUT: the link toward the master is down, or no TIMING frame for 2 strides (R343). -/
def execTbTimingTimeout (s : State) : Res :=
  .next (s.onHw fun h =>
    if h.tbRole ≠ 2 ∨ h.blkState pgTimebase ≠ 2 then h
    else
      let up := match h.masterLink with | some k => (h.opLink k).up | none => false
      (if up then h.atLeast (h.tb.lastTiming + 2 * h.period) else h).holdover)
/-- TIMEBASE_SELF_MASTER: 10 s into stage TIMEBASE with no link up (R390). -/
def execTimebaseSelfMaster (s : State) : Res :=
  .next (s.onHw fun h =>
    match h.tb.stageAt with
    | some t =>
      if h.blkState pgTimebase ≠ 1 || !h.upLinks.isEmpty then h
      else
        let h := h.atLeast (t + 10000000000)
        let h := { h with clk := { h.clk with tickAt := h.clk.now, ticks := [h.clk.now] } }
        ((h.setReg64 (pgTimebase + Reg.timebase.strideCountLo) 0).onTb fun t => { t with electing := false, best := h.ownCandidate, sentTo := 0 }).setRole 1 none |>.tbLock
    | none => h)

/-- STRETCH_REQ: the master stretches the first stride whose symbol it has not begun to send; a follower passes on the first request it sees for a stride (R43, R342); in HOLDOVER it is withheld (R32). -/
def execStretchReq (a : BitVec 48) (s : State) : Res :=
  .next (s.onHw fun h =>
    if h.blkState pgTimebase = 3 then h.count (pgTimebase + Reg.timebase.stretchWithheld) 0 32 1
    else if h.blkState pgTimebase ≠ 2 then h
    else if h.tbRole = 1 then
      let m := max (h.tb.sentTo + 1) (h.stride + 1)
      h.onTb fun t => { t with stretched := if t.stretched.contains m then t.stretched else m :: t.stretched }
    else if h.tb.forwarded.contains a.toNat then h
    else match h.masterLink with
      | some k => (h.onTb fun t => { t with forwarded := (a.toNat :: t.forwarded).take 256 }).linkSend k (h.mkFrame 5 3 (h.opLink k).peerNode 0 0 1 (leBytes 6 a.toNat))
      | none => h)

/-- TIMING_SEND: the symbol of the next tick without one, TIMEBASE_LEAD_NS ahead of it (R29, R341). -/
def execTimingSend (s : State) : Res :=
  .next (s.onHw fun h =>
    let m := max (h.tb.sentTo + 1) (h.stride + 1)
    let at_ := h.predict m
    if h.tbRole ≠ 1 || h.blkState pgTimebase ≠ 2 || decide (at_ - h.tbLead > h.clk.tickAt + h.curLen) then h
    else
      let h := h.atLeast (at_ - h.tbLead)
      let len := h.lenOf m
      (h.onTb fun t => { t with sentTo := m, lens := Tab.set t.lens m len }).sendTiming m len at_ h.nodeId 0 (h.fld (pgOptGlobal + Reg.optGlobal.tbPrio) 0 8))

/-- FRAME_TIMING at a follower: tick m at arrival + REMAIN − link delay, slewed by at most 1 ns a stride after a relock; a count that differs is adopted only while no plan runs (R32, R341, R344). -/
def execFrameTiming (k : LinkLoc) (z : Frame) (s : State) : Res :=
  .next (s.onHw fun h =>
    let (h, ok) := h.frameIn k z
    if !ok || z.kind ≠ 2 || !(h.opLink k).up || h.tbRole ≠ 2 || h.tb.up ≠ some k.key || h.blkState pgTimebase = 0 then h
    else
      let b := z.payload
      let m := leAt b 0 6
      let len := leAt b 6 3
      let fire := (16 * h.clk.now + leAt b 12 4 - (h.opLink k).delay) / 16
      let h := h.onTb fun t => { t with lastTiming := h.clk.now }
      let st := h.blkState pgTimebase
      let p := h.predict m
      let far := decide (fire > p + h.period / 2 ∨ p > fire + h.period / 2 ∨ m ≤ h.stride)
      if st = 3 && far && h.anyPlan then h.raise pgTimebase 13
      else
        let adopt := st = 1 || (st = 3 && far)
        let h := if adopt then
            ({ h with clk := { h.clk with tickAt := h.clk.now } } : Hw).setReg64 (pgTimebase + Reg.timebase.strideCountLo) ((m + 2 ^ 48 - 1) % 2 ^ 48)
          else h
        let slew := !adopt && (st = 3 || h.tb.slewing) && decide (fire > p + 1 ∨ p > fire + 1)
        let due := if slew then (if fire > p then p + 1 else p - 1) else fire
        let h := h.onTb fun t => { t with
          slewing := slew, due := Tab.set (if adopt then [] else t.due) m due, lens := Tab.set (if adopt then [] else t.lens) m len, epoch := leAt b 18 2
          pend := if leAt b 24 4 = 0 then t.pend else some (leAt b 24 4, leAt b 28 4, leAt b 32 6) }
        let h := (h.setRegN (pgOptGlobal + Reg.optGlobal.tbEpoch) (leAt b 18 2 + ((leAt b 20 1 + 1) % 256) <<< 16)).tbLock
        (h.sendTiming m len due (leAt b 16 2) (leAt b 20 1 + 1) (leAt b 21 1)).tickFlit m len due)

/-- A tracked item whose stride is over records OVERRUN once (R41). -/
def Hw.overrunTick (h : Hw) (n : Nat) : Hw :=
  allClusters.foldl (fun h l =>
    match Tab.find h.sq l.idx with
    | some q =>
      match q.tracked with
      | some t => if t.stride < n ∧ !t.overrun then (h.setSq l { q with stretchSent := false, tracked := some { t with overrun := true } }).overrun l
                  else h.setSq l { q with stretchSent := false }
      | none => h.setSq l { q with stretchSent := false }
    | none => h) h

/-- The tick that begins a paddock's STEP_BASE: counters of the numeric watch, error and replay registers, taints, PLAN_ABORT and carry-over of its S-cores are cleared, plan lists of its channels begin again unless the attempt retries the sweep (R147, R238, R292, R318). -/
def Hw.stepBaseTick (h : Hw) (n : Paddock) : Hw :=
  let h := h.setPad n { h.pad n with baseInForce := true, baseNow := (h.pad n).stepBase }
  let h := (h.paddockRings n).foldl Hw.watchStepReset h
  let h := (h.hosts n).foldl (fun h l =>
    let h := h.clearRegs l.page ([Reg.score.sqErrStatus, Reg.score.sqErrItem, Reg.score.sqErrStride, Reg.score.sqErrCount, Reg.score.maxCarryNs] ++
      (List.range 8).map fun i => Reg.score.sqTaint0 + 4 * i)
    let h := h.setFld (l.page + Reg.score.sqReplays) 0 16 0
    let mine := fun (k : Nat) => daRegion k = 3 && daField k = l.f.val && daCluster k = l.c.val
    ({ h with syncTaint := h.syncTaint.filter fun t => !mine t.1 } : Hw).setSq l { h.sqAt l with planAbort := false, errUnits := [], replayed := false, itemError := false }) h
  let go := !(h.scAt n).retry
  (h.planChannels n).foldl (fun h m => h.setMv m { h.mvAt m with listGo := go, listNext := 0 }) h

/-- Frames or flits a monitor's link has resent (R403). -/
def Hw.linkReplays (h : Hw) (f : Field) (sel : Nat) : Option Nat :=
  if bitOf sel 0 then
    if h.fencedPage (pgPort f) then none else some (h.opLink ⟨f, ⟨bitsOf sel 1 3 % 8, Nat.mod_lt _ (by decide)⟩⟩).replays
  else
    let r : RtrLoc := if hc : bitsOf sel 1 3 < 6 then .cluster ⟨f, ⟨bitsOf sel 1 3, hc⟩⟩ else .hub f
    if h.fencedPage r.page then none else some (h.link r (bitsOf sel 4 3) (if bitOf sel 7 then .b else .a)).replays
/-- Monitors at a tick: windows, and LINK_REPLAY samples of the stride that ended; one that comes with the window's end counts in the new window (R403, R406, R407). -/
def Hw.monitorsTick (h : Hw) (bases : List Paddock) : Hw :=
  (List.finRange 48).foldl (fun h f =>
    let base := match h.paddockOfField f with | some n => bases.contains n | none => false
    (List.finRange 16).foldl (fun h m =>
      let pg := pgMonitor f m
      let was := h.blkState pg
      if was = 0 then h
      else
        let h := h.monTick f m base
        let src := h.reg (pg + Reg.monitor.monSrc)
        if wbits src 0 4 ≠ 5 then h
        else match h.linkReplays f (wbits src 8 16) with
          | none => h
          | some v =>
            let ms := h.monAt pg
            let d := if v ≥ ms.lastReplay then v - ms.lastReplay else v
            let h := h.setMon pg { ms with lastReplay := v, held := if ms.due && was = 2 then some (d : Int) else ms.held }
            if was = 2 && !ms.due then h.monApply pg d else h) h) h

/-- The tick that begins the next stride (R29): the clock, STRIDE_COUNT, the stride's length and stretch (R43), overruns (R41), step bases, outcomes that take effect (R288), monitors. A follower without the tick's symbol goes on by its own timeline and counts it (R341). -/
def State.tick (s : State) : State :=
  let st := s.hw.blkState pgTimebase
  if st ≠ 2 ∧ st ≠ 3 then s
  else
    let h := s.hw
    let n := (h.stride + 1) % 2 ^ 48
    let missed := h.tbRole = 2 && st = 2 && (Tab.find h.tb.due n).isNone
    let h := match missed, h.masterLink with
      | true, some k => (h.count (pgPort k.port + Reg.port.opTbMissed) 0 32 1).raise (pgPort k.port) 15
      | _, _ => h
    let h := h.atLeast ((Tab.find h.tb.due n).getD (h.clk.tickAt + h.curLen))
    let len := h.lenOf n
    let long := h.isStretched n
    let h := (h.setReg64 (pgTimebase + Reg.timebase.strideCountLo) n).setRegN (pgTimebase + Reg.timebase.curStrideLen) len
    let h := { h with clk := { h.clk with tickAt := h.clk.now, ticks := (h.clk.now :: h.clk.ticks).take 1024 } }
    let h := h.onTb fun t => { t with due := t.due.filter fun x => decide (x.1 > n), lens := t.lens.filter fun x => decide (x.1 > n), stretched := t.stretched.filter fun x => decide (x > n) }
    let k := pgTimebase + Reg.timebase.stretchCountLo
    let h := if long then (h.setReg64 k ((h.reg64 k + 1) % 2 ^ 48)).raise pgTimebase 12 else h
    let bases := (List.finRange 4).filter fun p => h.planRunning p && (h.pad p).stepBase = n
    let h := bases.foldl Hw.stepBaseTick (h.overrunTick n)
    let s := (List.finRange 4).foldl State.commitTick { s with hw := h }
    s.onHw fun h => h.monitorsTick bases
/-- TICK (R29). -/
def execTick (s : State) : Res := .next s.tick
/-- TIMING_FRAME_LOST: the tick fires one stride after the previous one (R341). -/
def execTimingFrameLost (s : State) : Res :=
  .next (if s.hw.tbRole = 2 && s.hw.blkState pgTimebase = 2 && (Tab.find s.hw.tb.due ((s.hw.stride + 1) % 2 ^ 48)).isNone then s.tick else s)
/-- TICK_FLIT_ORIGINATE: the tick root sends the next tick's flit from the module's own timebase, unless the module follows (R158). -/
def execTickFlitOriginate (s : State) : Res :=
  .next (s.onHw fun h =>
    let st := h.blkState pgTimebase
    if (st = 2 && h.tbRole ≠ 2) || st = 3 then h.tickFlit ((h.stride + 1) % 2 ^ 48) (h.lenOf (h.stride + 1)) (h.clk.tickAt + h.curLen) else h)

/-- SET_PERIOD (R30): the state conditions first, then the values. -/
def execSetPeriod (p : Path) (s : State) : Res :=
  .next (runCmd s p pgTimebase 0x01 (s.hw.mayCommand p pgTimebase none) [0, 1, 2, 3] fun s =>
    let h := s.hw
    let per := h.fld (pgTimebase + Reg.timebase.stridePeriodNext) 0 20
    let inc := h.fld (pgTimebase + Reg.timebase.stretchIncrementNext) 0 20
    let at_ := h.reg64 (pgTimebase + Reg.timebase.applyAtLo) % 2 ^ 48
    if h.tbRole ≠ 1 || h.tb.pend.isSome || h.anyPlan then (.illegal, s)
    else if per < 4000 ∨ 1000000 < per ∨ inc < 500 ∨ 1000000 < inc ∨ at_ < h.stride + 16 then (.badArg, s)
    else (.ok, s.onHw fun h => h.onTb fun t => { t with pend := some (per, inc, at_) }))
/-- PERIOD_APPLY: at the tick that begins APPLY_AT the new values are in force, and a running plan's step ends and the plan halts (R30, R31). -/
def execPeriodApply (s : State) : Res :=
  .next <|
    match s.hw.tb.pend with
    | some (p, i, at_) =>
      if s.hw.stride < at_ then s
      else
        let s := s.onHw fun h =>
          let h := (h.setRegN (pgTimebase + Reg.timebase.stridePeriod) p).setRegN (pgTimebase + Reg.timebase.stretchIncrement) i
          (h.onTb fun t => { t with pend := none }).raise pgTimebase 11
        (List.finRange 4).foldl State.periodAbort s
    | none => s

end Sys2Proof.Machine
end

