-- ==== Sys2Proof/Machine/HostPort.lean ====
section
/-! DEFINITION. Host ports (R348 to R367, R434): apertures, leases, plan slots, presence, host reads. -/
namespace Sys2Proof.Machine

/-- The path of a host. -/
def hostPath (h : HostId) : Path := if h = 0 then .h0 else .h1
/-- The other host port. -/
def otherPort (h : HostId) : HostId := if h = 0 then 1 else 0
/-- GLB_STATUS.READY. -/
def Hw.ready (h : Hw) : Bool := h.bit (pgModule + Reg.module.glbStatus) 0
/-- The host part changed. -/
def Hw.onHp (h : Hw) (f : HostState → HostState) : Hw := { h with hp := f h.hp }
/-- Key of an aperture. -/
def apKey (p : HostId) (w : Nat) : Nat := 16 * p.val + w
/-- A fault of an aperture access is counted: range (0) or mesh (16) (R354). -/
def Hw.apFault (h : Hw) (p : HostId) (lo : Nat) : Hw := (h.count (pgHostPort p + Reg.hostPort.hpApFault) lo 16 1).raise (pgHostPort p) 11
/-- Where the bytes of an access to an aperture lie, those below SIZE; none where it is not bound or its copy is no longer there (R354, notes/assumptions/75.md). -/
def Hw.apTarget (h : Hw) (p : HostId) (a : Nat) : Option (Aperture × Nat × Nat) :=
  match Tab.find h.hp.aps (apKey p (bitsOf a 32 4)) with
  | some x =>
    match h.obj x.handle with
    | some o =>
      let off := x.offset + a % 2 ^ 32
      if if x.tier = 0 then o.inT0 else o.inT1 then some (x, (if x.tier = 0 then o.t0Da else o.t1Da) + off, o.size - off) else none
    | none => none
  | none => none
/-- APERTURE_READ: object bytes; all ones beyond SIZE, unbound, or where the mesh access fails (R354). -/
def execApertureRead (p : HostId) (a : BitVec 36) (n : Nat) (x : MeshStatus) (s : State) : Res :=
  .next <|
    let h := s.hw
    let ones := List.replicate n (255 : Byte)
    let out := fun (h : Hw) (bytes : List Byte) => ({ s with hw := h.emit (.readData (hostPath p) bytes) } : State)
    match h.apTarget p a.toNat with
    | none => out (h.apFault p 0) ones
    | some (_, da, room) =>
      let h := if room < n then h.apFault p 0 else h
      let k := min room n
      if k ≠ 0 ∧ x = .failed then out (h.apFault p 16) ones
      else out (h.countRead da k) (memBytes s.mem da k ++ List.replicate (n - k) 255)
/-- APERTURE_WRITE: bytes below SIZE of a WRITE aperture are written (R354, R355). -/
def execApertureWrite (p : HostId) (a : BitVec 36) (d : List Byte) (x : MeshStatus) (s : State) : Res :=
  .next <|
    match s.hw.apTarget p a.toNat with
    | none => s.onHw fun h => h.apFault p 0
    | some (ap, da, room) =>
      if !ap.write then s.onHw fun h => h.apFault p 0
      else
        let s := if room < d.length then s.onHw fun h => h.apFault p 0 else s
        if room ≠ 0 ∧ x = .failed then s.onHw fun h => h.apFault p 16
        else s.store none (hostField p).val da (d.take room) plainInfo

/-- HP_FIELD_WIN_WRITE: a field or 0x3E; other values are discarded (R352, R366). -/
def execHpFieldWinWrite (p : Path) (x : HostId) (v : Word) (s : State) : Res :=
  .next (s.onHw fun h => h.pathWrite p (pgHostPort x) Reg.hostPort.hpFieldWin fun h =>
    let f := v.toNat % 64
    if f < 48 ∨ f = 0x3E then h.setRegN (pgHostPort x + Reg.hostPort.hpFieldWin) f else h)

/-- A path that a code and a port stand for. -/
def pathOf (code : Nat) : Path := if code = 1 then .h0 else if code = 2 then .h1 else .rm
/-- BIND_AP begins: the port reads the descriptor (R353, R364). -/
def execBindAp (p : Path) (x : HostId) (s : State) : Res :=
  .next (runCmd s p (pgHostPort x) 0x01 (s.hw.mayCommand p (pgHostPort x) none) [2] fun s =>
    let h := s.hw
    let pg := pgHostPort x
    if !h.ready then (.illegal, s)
    else if (Tab.find h.hp.binding x.val).isSome then (.busy, s)
    else
      let cfg := h.regN (pg + Reg.hostPort.hpApCfg)
      let ap : Aperture := { handle := h.reg64 (pg + Reg.hostPort.hpApHandleLo) % 2 ^ 48, tier := bitsOf cfg 0 1, write := bitOf cfg 1, pad := bitsOf cfg 2 2,
                             offset := h.reg64 (pg + Reg.hostPort.hpApOffsetLo) }
      (.busy, s.onHw fun h => h.onHp fun y => { y with binding := Tab.set y.binding x.val (h.fld (pg + Reg.hostPort.hpApSel) 0 4, p.code, ap) }))
/-- The result of a bind, once the descriptor is read (R353). -/
def Hw.bindResult (h : Hw) (x : HostId) (w : Nat) (ap : Aperture) : CmdRes :=
  match h.obj ap.handle with
  | none => .badArg
  | some o =>
    if !h.holds x ap.pad || (o.owner ≠ ap.pad && !bitOf o.share ap.pad) || (ap.write && (decide (o.owner ≠ ap.pad) || o.cls = 3 || o.comp)) || ap.offset % 65536 ≠ 0 then .badArg
    else if (Tab.find h.hp.aps (apKey x w)).isSome || (if ap.tier = 0 then !o.inT0 else !o.inT1) then .illegal
    else if o.pins ≥ 255 ∨ ap.offset ≥ o.size then .limit
    else .ok
/-- BIND_AP_DONE (R353). -/
def execBindApDone (x : HostId) (s : State) : Res :=
  .next (s.onHw fun h =>
    match Tab.find h.hp.binding x.val with
    | some (w, code, ap) =>
      let r := h.bindResult x w ap
      let h := h.onHp fun y => { y with binding := Tab.erase y.binding x.val }
      let h := match r, h.obj ap.handle with
        | .ok, some o => (h.setObj ap.handle { o with pins := o.pins + 1 }).onHp fun y => { y with aps := Tab.set y.aps (apKey x w) ap }
        | _, _ => h
      let h := h.cmdResult (pathOf code) (pgHostPort x) 0x01 r
      if r = .illegal then h.raise (pgHostPort x) 0 else h
    | none => h)
/-- Bindings end and their pins are released. -/
def Hw.unbind (h : Hw) (x : HostId) (which : Nat → Aperture → Bool) : Hw :=
  h.hp.aps.foldl (fun h a =>
    if a.1 / 16 = x.val && which (a.1 % 16) a.2 then (h.unpinAll [a.2.handle]).onHp fun y => { y with aps := Tab.erase y.aps a.1 } else h) h
/-- UNBIND_AP (R353). -/
def execUnbindAp (p : Path) (x : HostId) (s : State) : Res :=
  .next (plainCmd s p (pgHostPort x) 0x02 (s.hw.mayCommand p (pgHostPort x) none) [2] fun h =>
    h.unbind x fun w _ => w = h.fld (pgHostPort x + Reg.hostPort.hpApSel) 0 4)
/-- ASSIGN_CHANNEL (R356, R364). -/
def execAssignChannel (p : Path) (x : HostId) (s : State) : Res :=
  .next (runCmd s p (pgHostPort x) 0x03 (s.hw.mayCommand p (pgHostPort x) none) [2] fun s =>
    let arg := s.hw.regN (pgHostPort x + Reg.hostPort.hpArg)
    let m : MvLoc := .host x ⟨arg % 8, Nat.mod_lt _ (by decide)⟩
    if !s.hw.ready then (.illegal, s)
    else if !s.hw.holds x (bitsOf arg 4 2) then (.badArg, s)
    else if s.hw.blkState m.page ≠ 0 then (.illegal, s)
    else (.ok, s.onHw fun h => h.setFld (m.page + Reg.mover.mvrCtrl) 4 2 (bitsOf arg 4 2)))
/-- HP CLEAR_COUNTERS (R366). -/
def execHpClearCounters (p : Path) (x : HostId) (s : State) : Res :=
  .next (plainCmd s p (pgHostPort x) 0x04 (s.hw.mayCommand p (pgHostPort x) none) [2] fun h =>
    h.clearRegs (pgHostPort x) [Reg.hostPort.hpDenied, Reg.hostPort.hpApFault, Reg.hostPort.hpEvtSent])

/-- The host channels of a port. -/
def hostChannels (x : HostId) : List MvLoc := (List.finRange 8).map fun c => .host x c
/-- A channel drains and ends ACTIVE and SHADOW with STOPPED (R236, R356). -/
def Hw.mvStopAll (h : Hw) (m : MvLoc) : Hw :=
  let h := match (h.mvAt m).active with
    | some a => h.setXfer m { a with ending := a.ending.or (some 13) }
    | none => h
  h.endShadow m 13
/-- A channel abandons what it has outstanding at the host: reads, and the read that ends a transfer to the host (R356). -/
def Hw.mvAbandon (h : Hw) (m : MvLoc) : Hw :=
  h.onXfer m fun a => { a with reads := if dSrcHost a.desc then [] else a.reads, acc := if a.flushed then a.sent else a.acc }

/-- Register of lease i. -/
def leaseReg (i : Nat) : Nat := pgHostGlobal + Reg.hostGlobal.hpLease0 + 4 * i
/-- A lease's HOLDER changes: block event and LEASE_CHANGE on both ports (R363, R367). -/
def Hw.leaseChange (h : Hw) (i holder : Nat) : Hw := ((h.setRegN (leaseReg i) holder).raise pgHostGlobal 8).notifyAll [0, 1] 5
/-- A lease ends: bindings and channels of its host end; HOLD where the slot runs and the rule asks for it (R353, R356, R358). -/
def Hw.leaseEnd (h : Hw) (i : Fin 5) (x : HostId) (hold : Bool) : Hw :=
  let h := (h.onHp fun y => { y with leases := Tab.erase y.leases i.val }).leaseChange i.val 0
  if hi : i.val < 4 then
    let n : Paddock := ⟨i.val, hi⟩
    let h := h.unbind x fun _ a => a.pad = n.val
    let h := (hostChannels x).foldl (fun h m => if h.mvPaddock m = some n then h.mvStopAll m else h) h
    if hold && h.slotState n = 3 && h.bit (pgHostGlobal + Reg.hostGlobal.hpLeaseCfg) 16 then h.askAbort n true else h
  else h
/-- Every lease of a host ends (R358). -/
def Hw.leasesEnd (h : Hw) (x : HostId) : Hw := (List.finRange 5).foldl (fun h i => if h.holds x i.val then h.leaseEnd i x true else h) h
/-- PERIOD in ns, from 100 to 60,000 ms (R357). -/
def Hw.leasePeriod (h : Hw) : Nat := 1000000 * max 100 (min 60000 (h.fld (pgHostGlobal + Reg.hostGlobal.hpLeaseCfg) 0 16))
/-- A lease is held from now on for PERIOD. -/
def Hw.leaseRun (h : Hw) (i : Nat) : Hw :=
  (h.onHp fun y => { y with leases := Tab.set y.leases i ⟨h.clk.now, h.leasePeriod⟩ }).setBit (leaseReg i) 2 false
/-- HP_ARG_G of a path. -/
def Hw.hpArgG (h : Hw) (p : Path) : Nat := wbits (h.argOf p (pgHostGlobal + Reg.hostGlobal.hpArgG)) 0 3
/-- A lease command: from a host, index 0 to 4 (R357). -/
def leaseCmd (p : Path) (code : Nat) (s : State) (f : State → HostId → Fin 5 → CmdRes × State) : State :=
  runCmd s p pgHostGlobal code p.host.isSome [0] fun s =>
    let i := s.hw.hpArgG p
    match p.host with
    | some x => if hi : i < 5 then f s x ⟨i, hi⟩ else (.badArg, s)
    | none => (.badArg, s)
/-- CLAIM (R357, R358). -/
def execClaim (p : Path) (s : State) : Res :=
  .next (leaseCmd p 0x01 s fun s x i =>
    let held := s.hw.holder i.val
    if held = 2 - x.val then (.illegal, s)
    else (.ok, s.onHw fun h =>
      if held ≠ 0 then h.leaseRun i.val
      else
        let h := (h.leaseChange i.val (x.val + 1)).leaseRun i.val
        if hi : i.val < 4 then (if h.slotState ⟨i.val, hi⟩ = 0 then h else h.notify x (8 + 4 * i.val)) else h))
/-- RENEW (R357). -/
def execRenew (p : Path) (s : State) : Res :=
  .next (leaseCmd p 0x02 s fun s x i => if s.hw.holds x i.val then (.ok, s.onHw fun h => h.leaseRun i.val) else (.illegal, s))
/-- RELEASE (R357). -/
def execRelease (p : Path) (s : State) : Res :=
  .next (leaseCmd p 0x03 s fun s x i => if s.hw.holds x i.val then (.ok, s.onHw fun h => h.leaseEnd i x false) else (.illegal, s))
/-- LEASE_WARN: three quarters of the PERIOD in force at the last CLAIM or RENEW have passed (R357). -/
def execLeaseWarn (i : Fin 5) (s : State) : Res :=
  .next (s.onHw fun h =>
    match Tab.find h.hp.leases i.val with
    | some l =>
      if h.bit (leaseReg i.val) 2 then h
      else
        let h := (h.atLeast (l.at_ + l.period * 3 / 4)).setBit (leaseReg i.val) 2 true
        if i.val < 4 then h.notifyHolder i.val (10 + 4 * i.val) else h
    | none => h)
/-- LEASE_EXPIRE: the cycle after the cycle of expiry (R357, R358). -/
def execLeaseExpire (i : Fin 5) (s : State) : Res :=
  .next (s.onHw fun h =>
    match Tab.find h.hp.leases i.val, h.holderHost i.val with
    | some l, x :: _ => (h.atLeast (l.at_ + l.period + 1)).leaseEnd i x true
    | _, _ => h)

/-- A slot command: from the Ringmaster or the holder of the paddock's lease; HP_ARG_G 0 to 3 (R351, R359). -/
def slotCmd (p : Path) (code : Nat) (states : List Nat) (s : State) (f : State → Paddock → CmdRes × State) : State :=
  let i := s.hw.hpArgG p
  runCmd s p pgHostGlobal code (decide (i ≥ 4) || s.hw.mayCommand p pgHostGlobal (some i)) [0] fun s =>
    if hi : i < 4 then (if states.contains (s.hw.slotState ⟨i, hi⟩) then f s ⟨i, hi⟩ else (.illegal, s)) else (.badArg, s)
/-- SUBMIT begins (R359, R364). -/
def execSubmit (p : Path) (s : State) : Res :=
  .next (slotCmd p 0x10 [0, 4] s fun s n =>
    let off := s.hw.regN (psReg n Reg.hostGlobal.ps0Offset)
    if !s.hw.ready then (.illegal, s)
    else if off % 256 ≠ 0 then (.badArg, s)
    else if (Tab.find s.hw.hp.submit n.val).isSome then (.busy, s)
    else (.busy, s.onHw fun h => h.onHp fun y => { y with submit := Tab.set y.submit n.val ⟨p.code, h.reg64 (psReg n Reg.hostGlobal.ps0HandleLo) % 2 ^ 48, off⟩ }))
/-- SUBMIT_DONE: the pin on the image is taken, a halted plan ends, the slot is PENDING (R359). -/
def execSubmitDone (n : Paddock) (s : State) : Res :=
  .next (s.onHw fun h =>
    match Tab.find h.hp.submit n.val with
    | some x =>
      let h := h.onHp fun y => { y with submit := Tab.erase y.submit n.val }
      let done := fun (h : Hw) (r : CmdRes) => h.cmdResult (pathOf x.path) pgHostGlobal 0x10 r
      let st := h.slotState n
      if st ≠ 0 ∧ st ≠ 4 then (done h .illegal).raise pgHostGlobal 0
      else match h.obj x.handle with
        | none => done h .badArg
        | some o =>
          if o.pins ≥ 255 then done h .limit
          else
            let h := h.setObj x.handle { o with pins := o.pins + 1 }
            let h := if st = 4 then h.planEnd n 0 0 0 else h
            let h := h.onHp fun y => { y with image := Tab.set y.image n.val (x.handle, x.offset) }
            let h := h.setPad n { h.pad n with pinned := [x.handle], pendAt := h.stride }
            let k := psReg n Reg.hostGlobal.ps0Seq
            done ((h.setFld k 0 16 (h.fld k 0 16 + 1)).setSlotResult n 1 0 0 0) .ok
    | none => h)
/-- A PENDING slot goes back to EMPTY (R359). -/
def Hw.withdraw (h : Hw) (n : Paddock) : Hw := ((h.unpinAll (h.pad n).pinned).setPad n PadState.empty).setSlotResult n 0 0 0 0
/-- WITHDRAW (R359). -/
def execWithdraw (p : Path) (s : State) : Res := .next (slotCmd p 0x11 [1] s fun s n => (.ok, s.onHw fun h => h.withdraw n))
/-- STOP of a plan slot (R361). -/
def execPsStop (p : Path) (s : State) : Res :=
  .next (slotCmd p 0x12 [1, 3, 4] s fun s n => (.ok, s.onHw fun h =>
    if h.slotState n = 1 then h.withdraw n else if h.slotState n = 3 then h.setSlot n 5 else h.planEnd n 12 0 0))

/-- A port's DL_UP or PERST changed: the other port shows it and is told (R363, R366). -/
def Hw.peerShow (h : Hw) (x : HostId) : Hw :=
  let w := h.regN (pgHostPort x + Reg.hostPort.hpLink)
  let o := otherPort x
  (h.setRegN (pgHostPort o + Reg.hostPort.hpPeer) (bitsOf w 8 1 + bitsOf w 11 1 <<< 1)).notify o 4
/-- PERST_ASSERT: the endpoint resets, its channels stop, bindings and leases end (R353, R356, R358). -/
def execPerstAssert (x : HostId) (s : State) : Res :=
  .next (s.onHw fun h =>
    let pg := pgHostPort x
    if h.bit (pg + Reg.hostPort.hpLink) 11 then h
    else
      let h := (hostChannels x).foldl (fun h m => (h.mvAbandon m).mvStopAll m) h
      let h := (h.unbind x fun _ _ => true).leasesEnd x
      let h := h.onHp fun y => { y with binding := Tab.erase y.binding x.val }
      let h := { h with rf := { h.rf with msix := h.rf.msix.filter fun e => e.1 >>> 20 ≠ x.val } }
      ((h.setRegN (pg + Reg.hostPort.hpLink) (1 <<< 11)).setBlkState pg 0).peerShow x)
/-- PERST_DEASSERT: the endpoint leaves reset, with a common clock where REFCLK is driven (R434). -/
def execPerstDeassert (x : HostId) (b : Bool) (s : State) : Res :=
  .next (s.onHw fun h =>
    let pg := pgHostPort x
    if h.blkState pg ≠ 0 then h
    else (((h.onHp fun y => { y with common := Tab.set y.common x.val b }).setRegN (pg + Reg.hostPort.hpLink) 0).setBlkState pg 1).peerShow x)
/-- DL_UP (R349, R366). -/
def execDlUp (x : HostId) (k : PcieLink) (s : State) : Res :=
  .next (s.onHw fun h =>
    let pg := pgHostPort x
    if h.blkState pg ≠ 1 then h
    else
      let below := decide (k.rate.toNat < 5) || decide (k.width.toNat < 8)
      let h := h.setRegN (pg + Reg.hostPort.hpLink) (k.rate.toNat + k.width.toNat <<< 3 + 1 <<< 8 + b2n k.flit <<< 9 + b2n below <<< 10)
      let h := (h.setBlkState pg 2).raise pg 8
      (if below then h.raise pg 10 else h).peerShow x)
/-- The link goes down: transfers that name host addresses end LINK_DOWN, leases and bindings end (R353, R356, R358). -/
def Hw.dlDown (h : Hw) (x : HostId) : Hw :=
  let pg := pgHostPort x
  if h.blkState pg ≠ 2 then h
  else
    let h := (hostChannels x).foldl (fun h m => match (h.mvAt m).active with
      | some a => if dSrcHost a.desc || dDstHost a.desc then (h.mvAbandon m).mvError m 5 else h
      | none => h) h
    let h := (h.unbind x fun _ _ => true).leasesEnd x
    ((((h.setRegN (pg + Reg.hostPort.hpLink) 0).setBlkState pg 1).raise pg 9).onHp fun y => { y with binding := Tab.erase y.binding x.val }).peerShow x
/-- DL_DOWN (R358). -/
def execDlDown (x : HostId) (s : State) : Res := .next (s.onHw fun h => h.dlDown x)

/-- HOST_COMPLETION: data of a host read, or its failure; or the end of a transfer to the host (R356). -/
def execHostCompletion (x : HostId) (i : Fin 8) (k : HostCpl) (s : State) : Res :=
  .next <|
    let m : MvLoc := .host x i
    match (s.hw.mvAt m).active with
    | none => s
    | some a =>
      match a.reads.find? fun r => r.id = k.id with
      | some r => if !dSrcHost a.desc then s else if k.ok then s.mvReadDone m r k.bytes else s.mvReadFail m (512 * r.id) 8
      | none =>
        if a.flushed && decide (a.acc < a.sent) && k.id = a.nextId then
          s.onHw fun h => if k.ok then h.mvAccount m 1 else (h.mvAccount m 1).mvError m 8
        else s
/-- COMPLETION_TIMEOUT: the oldest read a host channel has outstanding fails (R348, R356). -/
def execCompletionTimeout (x : HostId) (i : Fin 8) (s : State) : Res :=
  .next <|
    let m : MvLoc := .host x i
    match (s.hw.mvAt m).active with
    | none => s
    | some a =>
      match (if dSrcHost a.desc then a.reads.head? else none) with
      | some r => (s.onHw fun h => h.atLeast (a.startAt + 50000000)).mvReadFail m (512 * r.id) 8
      | none => if a.flushed && decide (a.acc < a.sent) then s.onHw fun h => ((h.atLeast (a.startAt + 50000000)).mvAccount m 1).mvError m 8 else s

end Sys2Proof.Machine
end

