-- ==== Sys2Proof/Machine/FarrierOps.lean ====
section
/-! DEFINITION. What the Farrier does to units (R306 to R317): fences, retirement, replacement, the loss of a field. -/
namespace Sys2Proof.Machine

/-- A number as a field. -/
def fieldOf (f : Nat) : Field := ⟨f % 48, Nat.mod_lt _ (by decide)⟩
/-- A number as a cluster of a field. -/
def clOf (f c : Nat) : ClLoc := ⟨fieldOf f, ⟨c % 6, Nat.mod_lt _ (by decide)⟩⟩
/-- The cluster of a unit with cluster code 0 to 5. -/
def unitCl (k : Nat) : ClLoc := clOf (unitField k) (unitCluster k)
/-- The M-core slot of a unit code 1 to 5. -/
def unitMc (k : Nat) : McLoc := ⟨unitCl k, ⟨(unitUnit k - 1) % 5, Nat.mod_lt _ (by decide)⟩⟩
/-- A unit is an M-core slot or a part of one. -/
def unitIsMc (k : Nat) : Bool := decide (unitCluster k < 6) && decide (1 ≤ unitUnit k) && decide (unitUnit k ≤ 5) && decide (k < 2 ^ 16)
/-- The key of an M-core slot as a whole. -/
def mcKey (m : McLoc) : Nat := unitKey m.cl.f.val m.cl.c.val (m.slot.val + 1) 0
/-- The unit a fence, a retirement or a replacement acts on: of an M-core part its slot, of a V-core part the V-core. -/
def unitWhole (k : Nat) : Nat :=
  if unitCluster k < 6 ∧ 1 ≤ unitUnit k ∧ unitUnit k ≤ 7 then unitKey (unitField k) (unitCluster k) (unitUnit k) 0 else k % 2 ^ 16
/-- A unit is out of service: by the service map at power-on, retired since, or not enabled at boot lock (R312, R413). -/
def Hw.retired (h : Hw) (k : Nat) : Bool := h.boot.out.contains (unitWhole k)
/-- The pages of a unit with the BLK_STATE of each while it is fenced (R169, R319): an M-core with its MEs and epilogue VE, a V-core with its VEs, or the unit's own page. -/
def unitPages (k : Nat) : List (Nat × Nat) :=
  let f := unitField k
  let c := unitCluster k
  let u := unitUnit k
  if c < 6 then
    if u = 0 then (if unitEngine k = 1 then [(pageBase f c 0 1, 3)] else [(pageBase f c 0 0, 2)])
    else if u ≤ 5 then (List.range 6).map fun p => (pageBase f c u p, if p = 5 then 4 else 3)
    else if u ≤ 7 then (List.range 5).map fun p => (pageBase f c u p, 4)
    else [(pageBase f c 8 0, 0)]
  else if u = 0 then [(pageBase f 6 0 0, 2)]
  else if u ≤ 2 then [(pageBase f 6 u 0, 5)]
  else if u = 3 then [(pageBase f 6 3 0, 2)]
  else if u = 4 then [(pageBase f 6 4 0, 0)]
  else if u = 5 then [(pageBase f 6 5 (unitEngine k % 4 + 1), 4)]
  else if u = 6 then [(pageBase f 6 6 0, 2)]
  else [(pageBase f 6 15 0, 3)]
/-- The mover channels of a unit: of an S-core, a memory site, an optical port, a host port. -/
def unitChannels (k : Nat) : List MvLoc :=
  let f := fieldOf (unitField k)
  let u := unitUnit k
  if unitCluster k < 6 then (if u = 8 then (List.finRange 4).map fun c => .cluster (unitCl k) c else [])
  else if u = 1 ∨ u = 2 then (List.finRange 16).map fun c => .site ⟨(2 * f.val + u - 1) % 96, Nat.mod_lt _ (by decide)⟩ c
  else if u = 3 then (List.finRange 8).map fun c => .port f c
  else if u = 4 then hostChannels (if f.val = 19 then 0 else 1)
  else []
/-- BLK_CTRL.FENCE of a page changes: event FENCE_CHANGE, and the page's BLK_STATE (R13, R414). -/
def Hw.fencePage (h : Hw) (page st : Nat) (set : Bool) : Hw :=
  if h.fencedPage page = set then h
  else
    let h := (h.setBit (page + 0x008) 1 set).raise page 2
    if st = 0 then h else h.setBlkState page (if set then st else 0)
/-- The parts of a cluster or field that a fence of the whole acts on. -/
def clusterUnits (f c : Nat) : List Nat :=
  if c < 6 then (List.range 9).map fun u => unitKey f c u 0
  else [unitKey f 6 0 0, unitKey f 6 1 0, unitKey f 6 2 0, unitKey f 6 3 0] ++ (List.range 4).map (unitKey f 6 5) ++ [unitKey f 6 6 0]
/-- One unit is fenced or unfenced: its bit in the mask of its router, its pages, its channels (R169, R236). -/
def Hw.fenceOne (h : Hw) (k : Nat) (set : Bool) : Hw :=
  let r : RtrLoc := if unitCluster k < 6 then .cluster (unitCl k) else .hub (fieldOf (unitField k))
  let h := if unitUnit k = 5 ∧ unitCluster k = 6 then h else h.setBit (r.page + Reg.router.rtrFenceMask) (unitUnit k) set
  let h := (unitPages k).foldl (fun h p => h.fencePage p.1 p.2 set) h
  let h := (unitChannels k).foldl (fun h m => if set then h.mvFence m else h.mvUnfence m) h
  if unitUnit k = 5 ∧ unitCluster k = 6 then
    let f := fieldOf (unitField k)
    let all := (List.finRange 4).all fun e => h.fencedPage (VeLoc.update f e).page
    if all then (h.setBlkState (pgUpdate f) 4).setBit (pgUpdate f + 0x008) 1 true
    else if h.blkState (pgUpdate f) = 4 then (h.setBlkState (pgUpdate f) (if (h.ucAt f).entries.isEmpty then 0 else 1)).setBit (pgUpdate f + 0x008) 1 false else h
  else h
/-- A unit is fenced or unfenced; a router stands for its whole cluster, cluster code 7 for the whole field (R169, R319). -/
def Hw.fenceUnit (h : Hw) (k : Nat) (set : Bool) : Hw :=
  let f := unitField k
  let c := unitCluster k
  if c = 7 then
    (List.range 7).foldl (fun h c => (clusterUnits f c).foldl (fun h u => h.fenceOne u set) h) h
  else if c < 6 ∧ unitUnit k = 0 ∧ unitEngine k = 1 then
    let h := h.setBit ((RtrLoc.cluster (unitCl k)).page + Reg.router.rtrFenceMask) 16 set
    (clusterUnits f c).foldl (fun h u => h.fenceOne u set) h
  else h.fenceOne (unitWhole k) set

/-- The host cluster and logical number that a slot serves. -/
def Hw.servedBy (h : Hw) (m : McLoc) : Option (ClLoc × Nat) :=
  (allClusters.filter h.l2pValid).findSome? fun l => ((List.range 4).find? fun i => h.mcoreSlot l i = some m).map fun i => (l, i)
/-- A slot that may take work: in service, not fenced, serving no logical M-core (R18, R308). -/
def Hw.isSpare (h : Hw) (m : McLoc) : Bool :=
  h.inService m.cl.f.val && !h.fencedPage m.page && !h.retired (mcKey m) && (h.servedBy m).isNone
/-- The slots of a cluster. -/
def clSlots (l : ClLoc) : List McLoc := (List.finRange 5).map fun i => ⟨l, i⟩
/-- Hops between two clusters (R164). -/
def hops (a b : ClLoc) : Nat := (max a.xy.1 b.xy.1 - min a.xy.1 b.xy.1) + (max a.xy.2 b.xy.2 - min a.xy.2 b.xy.2)
/-- The order of R308: the same field first, then the same ring, then hops, then router index. -/
def nearKey (l x : ClLoc) : Nat :=
  ((if x.f = l.f then 0 else if ringOf x.f = ringOf l.f then 1 else 2) <<< 20) + hops l x <<< 12 + x.routerIdx
/-- The nearest of some clusters. -/
def nearest (l : ClLoc) (xs : List ClLoc) : Option ClLoc :=
  xs.foldl (fun best x => match best with
    | some b => if nearKey l x < nearKey l b then some x else best
    | none => some x) none
/-- A cluster that can host a logical cluster: in service, hosting none, its router up and its parts unfenced, four slots good (R308). -/
def Hw.freeCluster (h : Hw) (l : ClLoc) : Bool :=
  h.inService l.f.val && !h.l2pValid l && h.rtrUp (.cluster l) && decide (((clSlots l).filter h.isSpare).length ≥ 4) &&
  ((List.range 9).all fun u => (decide (1 ≤ u) && decide (u ≤ 5)) ||
    (!h.retired (unitKey l.f.val l.c.val u 0) && !h.fencedPage (pageBase l.f.val l.c.val u 0))) && !h.retired (unitKey l.f.val l.c.val 0 1)
/-- A replacement for an M-core slot: its cluster's spare, else with REMOTE_SPARE the nearest spare of the ring (R308). -/
def Hw.spareFor (h : Hw) (m : McLoc) : Option McLoc :=
  match (clSlots m.cl).find? fun x => decide (x ≠ m) && h.isSpare x with
  | some x => some x
  | none =>
    if h.bit (pgFarrier + Reg.farrier.frCfg) 1 then
      match nearest m.cl ((allClusters.filter fun l => decide (l ≠ m.cl) && decide (ringOf l.f = ringOf m.cl.f) && h.l2pValid l).filter fun l => (clSlots l).any h.isSpare) with
      | some l => (clSlots l).find? h.isSpare
      | none => none
    else none

/-- The map changes: every S-core of the paddock reads the next L2P_EPOCH (R35). -/
def Hw.epochNext (h : Hw) (n : Paddock) : Hw :=
  (h.hosts n).foldl (fun h l => h.setRegN (l.page + Reg.score.l2pEpoch) (h.regN (l.page + Reg.score.l2pEpoch) + 1)) h
/-- The L2P_MCORE word of a slot (R35). -/
def l2pWord (m : McLoc) : Nat := (m.slot.val + 1) + m.cl.c.val <<< 8 + m.cl.f.val <<< 16 + 1 <<< 31
/-- Objects and watch ranges in the T0 of one unit move to another's (R209). -/
def Hw.rebase (h : Hw) (old new : Nat) : Hw :=
  let hit := fun (a : Nat) => daRegion a = 2 && a >>> 33 = old >>> 33
  let dest := fun (a : Nat) => new + a % 2 ^ 33
  { h with
    objs := h.objs.map fun p => (p.1, if p.2.hasT0 && hit p.2.t0Da then { p.2 with t0Da := dest p.2.t0Da } else p.2)
    nw := h.nw.map fun p => (p.1, { p.2 with ranges := p.2.ranges.map fun x => (x.1, if hit x.2.base then { x.2 with base := dest x.2.base } else x.2) }) }
/-- T0 base of a cluster's unit. -/
def t0Base (l : ClLoc) (u : Nat) : Nat := t0Addr l.f.val l.c.val u 0
/-- Objects with a lower copy are promoted again into re-placed T0 (R209, R307). -/
def State.refill (s : State) (base : Nat) : State :=
  s.hw.objs.foldl (fun s p =>
    if p.2.inT0 && p.2.inT1 && daRegion p.2.t0Da = 2 && p.2.t0Da >>> 33 = base >>> 33 then
      match objT1Bytes s.mem p.2 with
      | some bytes => s.put p.2.t0Da bytes
      | none => s
    else s) s
/-- LOCAL_SLOTS of the chains through a router name another slot (R171). -/
def Hw.chainSwap (h : Hw) (l : ClLoc) (old new : Nat) : Hw :=
  let r : RtrLoc := .cluster l
  let x := h.rtrAt r
  let fix := fun (d2 : Word) => (List.range 4).foldl (fun d i => if wbits d (4 + 3 * i) 3 = old then wput d (4 + 3 * i) 3 new else d) d2
  h.setRtr r { x with slots := x.slots.map fun p => (p.1, (p.2.1, p.2.2.1, if wbits p.2.1 1 2 = 0 then fix p.2.2.2 else p.2.2.2)) }
/-- A slot takes over from another: the map, T0 with its objects, watch ranges and chains; the replaced slot is fenced (R18, R35, R308). -/
def State.swapSlot (s : State) (m x : McLoc) : State :=
  let h := s.hw.fenceUnit (mcKey m) true
  let h := match h.servedBy m with
    | some (l, i) =>
      let h := h.setRegN (l.page + Reg.score.l2pMcore0 + 4 * i) (l2pWord x)
      match h.paddockOfCluster l with | some n => h.epochNext n | none => h
    | none => h
  let h := if m.cl = x.cl then h.chainSwap m.cl (m.slot.val + 1) (x.slot.val + 1) else h
  let h := (h.setBlkState x.page 0).rebase (t0Base m.cl (m.slot.val + 1)) (t0Base x.cl (x.slot.val + 1))
  let h := h.count (pgFarrier + Reg.farrier.frCountsA) 0 16 1
  ({ s with hw := h } : State).refill (t0Base x.cl (x.slot.val + 1))
/-- A logical cluster moves whole to another: map, sequencer, plan lists, T0, watch ranges (R308). -/
def State.moveCluster (s : State) (l x : ClLoc) : State :=
  let h := s.hw
  let slots := (clSlots x).filter h.isSpare
  let own := (List.range 4).map fun i => (i, h.mcoreSlot l i)
  let h := h.setReg (x.page + Reg.score.l2pCluster) (h.reg (l.page + Reg.score.l2pCluster))
  let h := own.foldl (fun h p => match p.2 with
    | some m =>
      let dest := if m.cl = l then slots.getD p.1 m else m
      let h := (h.setRegN (x.page + Reg.score.l2pMcore0 + 4 * p.1) (l2pWord dest)).setRegN (l.page + Reg.score.l2pMcore0 + 4 * p.1) 0
      if m.cl = l then (h.setBlkState dest.page 0).rebase (t0Base l (m.slot.val + 1)) (t0Base x (dest.slot.val + 1)) else h
    | none => h) h
  let h := (h.setRegN (l.page + Reg.score.l2pCluster) 0).setReg (x.page + Reg.score.slackNs) (h.reg (l.page + Reg.score.slackNs))
  let h := h.setRegN (x.page + Reg.score.l2pEpoch) (h.regN (l.page + Reg.score.l2pEpoch))
  let h := (h.setSq x (h.sqAt l)).setSq l ScoreState.empty
  let h := (List.finRange 4).foldl (fun h c =>
    let y := h.mvAt (.cluster l c)
    (h.setMv (.cluster x c) { h.mvAt (.cluster x c) with list := y.list, listNext := 0, listGo := false }).setMv (.cluster l c) { y with list := [], listNext := 0, listGo := false }) h
  let h := [0, 6, 7, 8].foldl (fun h u => h.rebase (t0Base l u) (t0Base x u)) h
  let h := match h.paddockOfCluster x with | some n => h.epochNext n | none => h
  let h := h.count (pgFarrier + Reg.farrier.frCountsA) 0 16 1
  (List.range 9).foldl (fun s u => s.refill (t0Base x u)) { s with hw := h }

/-- Conditions under which GLB_STATUS.DEGRADED stays (R19): a field, stitch link or optical port out of service, or a unit retired beyond the spares. -/
def Hw.degraded (h : Hw) : Bool :=
  !h.outFields.isEmpty ||
  allRouters.any (fun r => (List.range 7).any fun p => h.linkState r p .a = 6 || h.linkState r p .b = 6) ||
  (List.finRange 48).any (fun f => h.blkState (pgPort f) = 2) ||
  h.boot.out.any fun k => !unitIsMc k || decide (((clSlots (unitCl k)).countP fun m => h.retired (mcKey m)) ≥ 2)
/-- A unit is retired in the service map: fenced, out of service (R312). -/
def Hw.retire (h : Hw) (k : Nat) : Hw :=
  let w := unitWhole k
  if h.flash.service.contains w then h
  else
    let h := { h with flash := { h.flash with service := h.flash.service ++ [w] }, boot := { h.boot with out := if h.boot.out.contains w then h.boot.out else h.boot.out ++ [w] } }
    let h := (h.fenceUnit w true).count (pgFarrier + Reg.farrier.frCountsB) 0 16 1
    if h.degraded then h.setGlb 1 true else h

/-- X-then-Y routes between two places cross a third (R164). -/
def between (a b x : Nat) : Bool := decide (min a b ≤ x) && decide (x ≤ max a b)
/-- The default route from a to b crosses x. -/
def crosses (a b x : ClLoc) : Bool :=
  (a.xy.2 = x.xy.2 && between a.xy.1 b.xy.1 x.xy.1) || (b.xy.1 = x.xy.1 && between a.xy.2 b.xy.2 x.xy.2)
/-- A paddock's routes, chains, trees or ticks cross a cluster's router (R307, R315). -/
def Hw.crossedBy (h : Hw) (n : Paddock) (x : ClLoc) : Bool :=
  let hs := h.hosts n
  hs.any (fun a => hs.any fun b => crosses a b x) ||
  (h.rtrAt (.cluster x)).slots.any (fun p => wbit p.2.1 0 && wbits p.2.1 28 2 = n.val) ||
  (match h.tickRoot with | some f => hs.any fun b => crosses ⟨f, 0⟩ b x | none => false)
/-- The paddocks that a unit's main path halts (R307): those that use it, and those that cross a router it takes away. -/
def Hw.affected (h : Hw) (k : Nat) : List Paddock :=
  let f := fieldOf (unitField k)
  let c := unitCluster k
  let own := if unitIsMc k then
      (match h.servedBy (unitMc k) with | some (l, _) => (h.paddockOfCluster l).toList | none => [])
    else if c < 6 then (if h.l2pValid (unitCl k) then (h.paddockOfCluster (unitCl k)).toList else [])
    else (h.paddockOfField f).toList
  let away : List ClLoc := if c = 7 then fieldClusters f else if c < 6 ∧ (k ≥ 2 ^ 16 ∨ (unitUnit k = 0 ∧ unitEngine k = 1)) then [unitCl k] else []
  (List.finRange 4).filter fun n => decide (2 ≤ h.slotState n) && (own.contains n || away.any fun x => h.crossedBy n x)

/-- Everything of a field that its supply holds goes: registers but those of its power page and of a host port, engines, channels, routers (soft lane entries stay in flash), sequencers, complex, links (R370, R383). BLK_CTRL.ENABLE is kept (R413, notes/assumptions/55.md). -/
def Hw.fieldDark (h : Hw) (f : Field) : Hw :=
  let mine := fun (k : Nat) => daRegion k = 3 && daField k = f.val && !(daCluster k = 6 && ((daUnit k = 15 && daPage k = 1) || daUnit k = 4))
  let h : Hw := { h with
    rf := { h.rf with words := h.rf.words.filterMap fun p => if !mine p.1 then some p else if p.1 % 4096 = 0x008 && !wbit p.2 0 then some (p.1, 0) else none }
    me := h.me.filter fun p => !mine p.1
    ve := h.ve.filter fun p => !mine p.1
    mv := h.mv.filter fun p => !mine p.1
    mon := h.mon.filter fun p => !mine p.1
    syncTaint := h.syncTaint.filter fun p => !mine p.1
    errMark := h.errMark.filter fun p => !mine p.1
    prov := h.prov.filter fun p => !mine p.1
    sq := h.sq.filter fun p => p.1 / 6 ≠ f.val
    rtr := h.rtr.filter fun p => p.1 / 6 ≠ f.val && p.1 ≠ 288 + f.val
    uc := Tab.erase h.uc f.val
    opl := h.opl.filter fun p => p.1 / 8 ≠ f.val
    opp := Tab.erase h.opp f.val
    fills := h.fills.filter fun x => !(daRegion x.base = 2 && daField x.base = f.val) }
  (List.finRange 6).foldl (fun h c => h.setClusterGait ⟨f, c⟩ 4) h
/-- The memory of a field is gone (R314, R383). -/
def State.fieldForget (s : State) (f : Field) : State :=
  { s with mem := s.mem.filter fun c => fieldOfPhys c.1 ≠ f.val }
/-- Waiting placement commands go to the homes of their objects (R196, R314). -/
def Hw.rehome (h : Hw) : Hw :=
  let all := h.plq.flatMap (·.2)
  { h with plq := all.foldl (fun t c => let f := (h.homeOf c.handle).val; Tab.set t f (Tab.get t f [] ++ [c])) [] }
/-- A field leaves service: state at REST, links DOWN, routers excluded, port, sites, complex and placement controller out of service, descriptors to their new homes, its host port's link down (R313, R314). -/
def State.fieldOut (s : State) (f : Field) : State :=
  let s := s.fieldForget f
  s.onHw fun h =>
    let h := (portLinks f).foldl (fun h k => h.opDown k 0) h
    let h := (h.fieldDark f).govDrop f
    let h := (fieldClusters f).foldl (fun h l => h.setBlkState (RtrLoc.cluster l).page 3) h
    let h := h.setBlkState (RtrLoc.hub f).page 3
    let h := h.setBlkState (pgPort f) 2
    let h := [1, 2].foldl (fun h u => h.setBlkState (pageBase f.val 6 u 0) 5) h
    let h := (h.setBlkState (pgUpdate f) 4).setBlkState (pgPlace f) 2
    let h := { h with outFields := if h.outFields.contains f.val then h.outFields else h.outFields ++ [f.val] }
    let h := (h.rehome.setGlb 1 true).setBit (pgFarrier + Reg.farrier.frFieldOutLo + 4 * (f.val / 32)) (f.val % 32) true
    if f.val = 19 then h.dlDown 0 else if f.val = 28 then h.dlDown 1 else h
/-- A field is lost: it leaves service and the Farrier's main path for the whole field is due (R313). -/
def State.loseField (s : State) (f : Field) : State :=
  if s.hw.outFields.contains f.val then s
  else
    (s.fieldOut f).onHw fun h =>
      let h := (h.count (pgFarrier + Reg.farrier.frCountsB) 16 16 1).raise pgFarrier 12
      h.onFr fun x => { x with todo := if x.todo.contains (fieldUnit f.val) then x.todo else x.todo ++ [fieldUnit f.val] }

/-- A repair is pending for a paddock: a persistent unit waits for its main path, or one runs (R304). -/
def Hw.repairPending (h : Hw) (n : Paddock) : Bool :=
  h.fr.todo.any (fun k => (h.affected k).contains n) || (match h.fr.act with | some a => a.pads.contains n.val | none => false)

end Sys2Proof.Machine
end

