-- ==== Sys2Proof/Machine/Farrier.lean ====
section
/-! DEFINITION. Error reports (R301 to R305, R310), the Farrier's main path and its commands (R307 to R319). -/
namespace Sys2Proof

/-- A test's result passed. -/
def TestResult.pass (k : TestResult) : Bool := !k.multi && k.row.isNone && k.col.isNone
/-- The soft entry that a result asks for. -/
def TestResult.soft (k : TestResult) : Nat :=
  (match k.row with | some x => x.val + 128 | none => 0) + (match k.col with | some x => x.val + 128 | none => 0) <<< 8

namespace Machine

/-- The error and taint registers of an S-core are cleared (R318). -/
def Hw.errClear (h : Hw) (l : ClLoc) : Hw :=
  let h := h.clearRegs l.page ([Reg.score.sqErrStatus, Reg.score.sqErrItem, Reg.score.sqErrStride, Reg.score.sqErrCount] ++
    (List.range 8).map fun i => Reg.score.sqTaint0 + 4 * i)
  let h := h.setFld (l.page + Reg.score.sqReplays) 0 16 0
  let own := fun (k : Nat) => k = (VcLoc.page ⟨l, 0⟩) || k = (VcLoc.page ⟨l, 1⟩) || (List.range 4).any fun m => (h.mcoreSlot l m).map McLoc.page = some k
  ({ h with syncTaint := h.syncTaint.filter fun t => !own t.1 } : Hw).setSq l { h.sqAt l with itemError := false, errUnits := [], replayed := false }
/-- SQ_ERR_STATUS.PENDING. -/
def Hw.errPending (h : Hw) (l : ClLoc) : Bool := h.bit (l.page + Reg.score.sqErrStatus) 8
/-- A report reaches the S-core: the first of the step is recorded and takes ITEM_ERROR, every one is counted (R302, R318). -/
def Hw.errRecord (h : Hw) (l : ClLoc) (cause leid item : Nat) : Hw :=
  let pg := l.page
  let h := h.count (pg + Reg.score.sqErrCount) 0 32 1
  if h.errPending l then h
  else
    let h := h.setRegN (pg + Reg.score.sqErrStatus) (cause % 256 + 1 <<< 8 + (leid % 2 ^ 16) <<< 16)
    let h := (h.setRegN (pg + Reg.score.sqErrItem) item).setRegN (pg + Reg.score.sqErrStride) (h.stride + 2 ^ 48 - h.stepBaseOf l)
    h.setSq l { h.sqAt l with itemError := true }
/-- The plan's paddock of an S-core. -/
def Hw.paddockOfScore (h : Hw) (l : ClLoc) : Option Paddock :=
  match h.paddockOfCluster l with
  | some n => if h.planRunning n then some n else none
  | none => none
/-- A persistent update engine: fenced, its sweep entries go to the lowest in-service engine of the field, and the step aborts without HOLD; with no engine left the field is lost (R310). -/
def State.engineLost (s : State) (f : Field) (e : Nat) : State :=
  let s := s.onHw fun h => h.fenceUnit (unitKey f.val 6 5 e) true
  match (List.finRange 4).find? fun x => !s.hw.fencedPage (VeLoc.update f x).page with
  | some x =>
    s.onHw fun h =>
      let u := h.ucAt f
      let h := h.setUc f { u with entries := u.entries.map fun v => if bitsOf v (8 * 21) 8 = e then withBits v (8 * 21) 8 x.val else v }
      match h.paddockOfField f with
      | some n => if h.planRunning n then h.askAbort n (h.repairPending n) else h
      | none => h
  | none => s.loseField f
/-- ERROR_REPORT: recorded at the S-core, logged where the reporter has not, counted and classified by the Farrier (R301, R302, R305, R306, R310). -/
def execErrorReport (l : ClLoc) (k : ErrReport) (s : State) : Res :=
  .next <|
    let page := k.page.toNat - daOff k.page.toNat
    let cause := k.cause.toNat
    let u0 := unitOfPage page
    let u := if cause = 7 ∧ unitCluster u0 < 6 then unitWhole u0 + 7 <<< 13 else u0
    let s := s.onHw fun h =>
      let h := h.errRecord l cause k.leid.toNat k.item
      let h := if [1, 2, 5, 7, 10].contains cause then h.logError page k.word cause else h
      let h := if cause = 7 then (h.setMark page true).emit (.programReload l page) else h
      let q := h.sqAt l
      let again := q.replayed && q.errUnits.contains u
      let h := h.setSq l { q with errUnits := if q.errUnits.contains u then q.errUnits else u :: q.errUnits }
      let h := if cause = 9 then h else if cause = 7 && !again then h.classifyFetch u k.word else h.classify u again
      if cause = 10 then (match h.paddockOfScore l with | some n => h.askAbort n (h.repairPending n) | none => h) else h
    match blockAt page with
    | some (.uengine, e) => if s.hw.fr.todo.contains u then
        (s.onHw fun h => h.onFr fun x => { x with todo := x.todo.erase u }).engineLost (fieldOf (daField page)) e else s
    | _ => s
/-- An S-core command, legal while its plan runs (R318). -/
def sqCmd (p : Path) (l : ClLoc) (code : Nat) (may : Bool) (f : Hw → Paddock → Hw) (s : State) : State :=
  runCmd s p l.page code may [0, 1, 2, 3, 4, 5, 6, 7] fun s =>
    match s.hw.paddockOfScore l with
    | some n => (.ok, s.onHw fun h => f h n)
    | none => (.illegal, s)
/-- ERR_CLEAR (R318). -/
def execErrClear (p : Path) (l : ClLoc) (s : State) : Res :=
  .next (sqCmd p l 0x10 (s.hw.mayCommand p l.page none) (fun h _ => h.errClear l) s)
/-- ABORT_REQ, from the S-core itself or the Ringmaster (R304, R318). -/
def execAbortReq (p : Path) (l : ClLoc) (s : State) : Res :=
  .next (sqCmd p l 0x11 (decide (p = .rm) || decide (p = .score l)) (fun h n => h.askAbort n (h.repairPending n)) s)

/-- Stored BLK_STATE of the Farrier when nothing acts: WAITING_PLAN, TESTING, IDLE. -/
def Hw.frIdle (h : Hw) : Hw :=
  h.setBlkState pgFarrier (if h.bit (pgFarrier + Reg.farrier.frStatus) 1 then 2 else if h.fr.test.isSome || !h.fr.retest.isEmpty then 3 else 0)
/-- Persistent classifications of an M-core slot and its parts. -/
def Hw.slotFaults (h : Hw) (m : McLoc) : Nat := ((h.fr.persistent.filter fun p => unitIsMc p.1 && unitWhole p.1 = mcKey m).map (·.2)).sum
/-- What takes the place of a unit: done, or nothing exists for it (R308, R311). The main path of a field, of a site, or of what no cluster can take leaves none. -/
def State.replace (s : State) (k : Nat) : State × Bool :=
  let f := fieldOf (unitField k)
  let c := unitCluster k
  let move := fun (s : State) (l : ClLoc) =>
    if !s.hw.l2pValid l then (s, true)
    else
      let xs := match s.hw.paddockOfCluster l with
        | some n => (s.hw.paddockFields n).flatMap fun g => (fieldClusters g).filter s.hw.freeCluster
        | none => []
      match nearest l xs with
      | some x => (s.moveCluster l x, true)
      | none => (s, false)
  if k ≥ 2 ^ 16 then (s, true)
  else if c = 7 then (s, (s.hw.paddockOfField f).isNone)
  else if c < 6 then
    if unitIsMc k then
      let m := unitMc k
      match s.hw.servedBy m with
      | none => (s, true)
      | some (l, _) =>
        match s.hw.spareFor m with
        | some x => (s.swapSlot m x, true)
        | none => move s l
    else
      let s := if unitUnit k = 0 ∧ unitEngine k = 1 then s.onHw fun h => h.setBlkState (RtrLoc.cluster (unitCl k)).page 3 else s
      move s (unitCl k)
  else (s, false)
/-- Phases 2 to 7, once the HOLD has applied (R307 to R311, R316): fence, replace or retire, rewrite, report; resume where the Farrier may. -/
def State.mainFinish (s : State) (a : FarrierAct) : State :=
  let k := a.unit
  let s := s.onHw fun h => if k ≥ 2 ^ 16 then h else h.fenceUnit k true
  let heat := unitCluster k = 7 ∧ !s.hw.outFields.contains (unitField k)
  let s := if heat then
      (s.fieldOut (fieldOf (unitField k))).onHw fun h =>
        let h := (h.count (pgFarrier + Reg.farrier.frCountsB) 16 16 1).raise pgFarrier 12
        (h.setBlkState (pgFieldPower (fieldOf (unitField k))) 0).onPw fun p => { p with hotOut := if p.hotOut.contains (unitField k) then p.hotOut else p.hotOut ++ [unitField k] }
    else s
  let (s, ok) := s.replace k
  s.onHw fun h =>
    let m := unitMc k
    let h := if !unitIsMc k then (if unitCluster k = 7 ∨ k ≥ 2 ^ 16 then h else h.retire k)
      else if ok && decide (unitEngine k ≠ 7) && decide (h.slotFaults m < 2) then h.onFr fun x => { x with retest := x.retest ++ [mcKey m] }
      else h.retire k
    let st := pgFarrier + Reg.farrier.frStatus
    let need := if ok then [] else
      (List.finRange 4).filter fun n => a.pads.contains n.val && (unitCluster k ≠ 7 || h.paddockOfField (fieldOf (unitField k)) = some n)
    let h := if need.isEmpty then h
      else need.foldl (fun h n => h.notifyHolder n.val (11 + 4 * n.val)) ((h.setBit st 1 true).raise pgFarrier 11)
    let done := (List.finRange 4).filter fun n => a.pads.contains n.val && !need.contains n
    let h := h.setRegN (pgFarrier + Reg.farrier.frRepairMs) ((h.clk.now - a.since) / 1000000)
    let h := ((h.setBit st 0 false).setBit st 2 true).raise pgFarrier 10
    let h := done.foldl (fun h n => (h.setBit st (8 + n.val) false).notifyHolder n.val (11 + 4 * n.val)) h
    let h := (h.onFr fun x => { x with act := none }).frIdle
    done.foldl (fun h n =>
      if h.bit (pgFarrier + Reg.farrier.frCfg) 2 && (h.voteHub n).isNone && decide (h.slotState n = 4) && (h.scAt n).held then h.resume n else h) h
/-- FARRIER_MAIN_PATH: phase 1 asks for HOLD on the paddocks the unit's repair halts; once none of them runs, the rest follows (R307). -/
def execFarrierMainPath (u : UnitSel) (s : State) : Res :=
  .next <|
    let sel := unitKey u.field.val u.cluster.val u.unit.val u.engine.val
    let running := fun (h : Hw) (ps : List Nat) => (List.finRange 4).any fun n => ps.contains n.val && h.planRunning n
    match s.hw.fr.act with
    | some a => if a.unit % 2 ^ 16 = sel && !running s.hw a.pads then s.mainFinish a else s
    | none =>
      match s.hw.fr.todo.find? fun k => k % 2 ^ 16 = sel with
      | none => s
      | some k =>
        if !s.hw.bit (pgFarrier + Reg.farrier.frCfg) 0 && unitCluster k ≠ 7 then s
        else
          let pads := s.hw.affected k
          let a : FarrierAct := { unit := k, since := s.hw.clk.now, pads := pads.map (·.val) }
          let s := s.onHw fun h =>
            let st := pgFarrier + Reg.farrier.frStatus
            let h := h.onFr fun x => { x with todo := x.todo.erase k, act := some a }
            let h := ((h.setBit st 0 true).setBit st 2 false).setBlkState pgFarrier 1
            pads.foldl (fun h n => let h := h.setBit st (8 + n.val) true
              if h.slotState n = 2 then h.takeUpEnd n 14 0 0 else h.askAbort n true) h
          if running s.hw a.pads then s else s.mainFinish a

/-- FR_SEL. -/
def Hw.frSel (h : Hw) : Nat := h.fld (pgFarrier + Reg.farrier.frSel) 0 16
/-- The paddock of a unit. -/
def Hw.unitPaddock (h : Hw) (k : Nat) : Option Paddock :=
  if unitIsMc k then (match h.servedBy (unitMc k) with | some (l, _) => h.paddockOfCluster l | none => h.paddockOfField (fieldOf (unitField k)))
  else if unitCluster k < 6 then h.paddockOfCluster (unitCl k) else h.paddockOfField (fieldOf (unitField k))
/-- FR_SEL names a unit that exists. -/
def unitOk (k : Nat) : Bool :=
  let c := unitCluster k
  let u := unitUnit k
  decide (unitField k < 48) && (if c < 6 then decide (u ≤ 8) else if c = 6 then decide (u ≤ 6) || decide (u = 15) else decide (u = 0))
/-- A Farrier command may come from the Ringmaster, or with AUTO clear from the host that holds the lease of the paddock concerned (R319). -/
def Hw.frMay (h : Hw) (p : Path) (n : Option Paddock) : Bool :=
  match p.host with
  | none => decide (p = .rm)
  | some x => !h.bit (pgFarrier + Reg.farrier.frCfg) 0 && (match n with | some n => h.holds x n.val | none => false)
/-- A Farrier command: its tests, its effect, and the record of the last action (R319). -/
def frCmd (p : Path) (code : Nat) (legal : List Nat) (body : State → Nat → Option State) (s : State) : State :=
  let k := s.hw.frSel
  let n := if code = 7 then some (⟨s.hw.fld (pgFarrier + Reg.farrier.frArg) 0 2 % 4, Nat.mod_lt _ (by decide)⟩ : Paddock) else s.hw.unitPaddock k
  runCmd s p pgFarrier code (s.hw.frMay p n) legal fun s =>
    if code ≠ 7 && code ≠ 10 && !unitOk k then (.badArg, s)
    else match body s k with
      | some t => (.ok, t.onHw fun h => (h.setRegN (pgFarrier + Reg.farrier.frLastAction) code).setRegN (pgFarrier + Reg.farrier.frLastUnit) k)
      | none => (.illegal, s)
/-- Every state of the Farrier. -/
def frAny : List Nat := [0, 1, 2, 3]
/-- The paddocks concerned have no running plan. -/
def Hw.unitHalted (h : Hw) (k : Nat) : Bool := (h.affected k).all (fun n => !h.planRunning n) && (match h.unitPaddock k with | some n => !h.planRunning n | none => true)
/-- FARRIER_FENCE (R169). -/
def execFarrierFence (p : Path) (s : State) : Res := .next (frCmd p 0x01 frAny (fun s k => some (s.onHw fun h => h.fenceUnit k true)) s)
/-- UNFENCE (R319). -/
def execUnfence (p : Path) (s : State) : Res :=
  .next (frCmd p 0x02 [0] (fun s k => if s.hw.unitHalted k then some (s.onHw fun h => h.fenceUnit k false) else none) s)
/-- The ME that FR_SEL names. -/
def unitMe (k : Nat) : MeLoc := ⟨unitMc k, ⟨unitEngine k % 4, Nat.mod_lt _ (by decide)⟩⟩
/-- FR_SEL names an ME of a fenced M-core. -/
def Hw.fencedMe (h : Hw) (k : Nat) : Bool := unitIsMc k && decide (unitEngine k < 4) && h.fencedPage (unitMc k).page
/-- The array test begins on an ME (R48). -/
def Hw.testBegin (h : Hw) (l : MeLoc) : Hw :=
  ((h.setBlkState l.page 4).setBlkState l.mc.page 5).onFr fun x => { x with test := some (l.page, h.clk.now) }
/-- ARRAY_TEST (R48). -/
def execArrayTest (p : Path) (s : State) : Res :=
  .next (frCmd p 0x03 [0, 3] (fun s k =>
    if s.hw.fencedMe k && s.hw.fr.test.isNone then some (s.onHw fun h => (h.testBegin (unitMe k)).setBlkState pgFarrier 3) else none) s)
/-- ME_TEST_RESULT shows a result (R48). -/
def Hw.testShow (h : Hw) (l : MeLoc) (k : TestResult) : Hw :=
  let r := match k.row with | some x => (x.val <<< 8) + 1 <<< 15 | none => 0
  let c := match k.col with | some x => (x.val <<< 16) + 1 <<< 23 | none => 0
  (h.setRegN (l.page + Reg.me.meTestResult) (1 + 2 * b2n k.pass + 4 * b2n k.multi + (if k.multi then 0 else r + c))).raise l.page 10
/-- ARRAY_TEST_DONE: after 204,800 cycles at GALLOP; a failing result makes the ME persistent (R48, R306). -/
def execArrayTestDone (l : MeLoc) (k : TestResult) (s : State) : Res :=
  .next (s.onHw fun h =>
    match h.fr.test with
    | some (page, t) =>
      if page ≠ l.page then h
      else
        let h := ((h.atLeast (t + 113778)).testShow l k).onFr fun x => { x with test := none }
        let h := ((h.setBlkState l.page 3).setBlkState l.mc.page 3)
        let h := if h.blkState pgFarrier = 3 then h.frIdle else h
        if k.pass then h else h.classify (unitOfPage l.page) true
    | none => h)

/-- ME_REPAIR_FUSED. -/
def Hw.fusedMap (h : Hw) (l : MeLoc) : Nat := Tab.get h.fac.repair l.page 0
/-- A soft map: loaded from flash (R47). -/
def Hw.softMap (h : Hw) (l : MeLoc) : Nat := Tab.get h.flash.softMe l.page 0
/-- A soft entry asks for no second bypassed row or column (R47). -/
def softFits (fused soft : Nat) : Bool := !(bitOf fused 7 && bitOf soft 7) && !(bitOf fused 15 && bitOf soft 15)
/-- The soft entry beside one held already. -/
def softAdd (old new : Nat) : Nat :=
  (if bitOf new 7 then bitsOf new 0 8 else bitsOf old 0 8) + (if bitOf new 15 then bitsOf new 8 8 else bitsOf old 8 8) <<< 8
/-- A soft entry is written, and recorded in flash (R47, R309). -/
def Hw.softWrite (h : Hw) (l : MeLoc) (v : Nat) : Hw :=
  let new := softAdd (h.softMap l) v
  ({ h with flash := { h.flash with softMe := Tab.set h.flash.softMe l.page new } } : Hw).count (pgFarrier + Reg.farrier.frCountsA) 16 16 1
/-- A soft entry may be added: its spares are free of the fused map and of soft entries (R47). -/
def Hw.softFree (h : Hw) (l : MeLoc) (v : Nat) : Bool := softFits (h.fusedMap l) v && softFits (h.softMap l) v
/-- SOFT_REPAIR (R47). -/
def execSoftRepair (p : Path) (s : State) : Res :=
  .next (frCmd p 0x04 [0, 3] (fun s k =>
    let v := s.hw.fld (pgFarrier + Reg.farrier.frArg) 0 16
    if s.hw.fencedMe k && s.hw.softFree (unitMe k) v then some (s.onHw fun h => h.softWrite (unitMe k) v) else none) s)
/-- SWAP_SPARE: the cluster's spare for the selected slot, its paddock halted (R308). -/
def execSwapSpare (p : Path) (s : State) : Res :=
  .next (frCmd p 0x05 [0, 1] (fun s k =>
    let m := unitMc k
    if !unitIsMc k || !s.hw.unitHalted k || (s.hw.servedBy m).isNone then none
    else match (clSlots m.cl).find? fun x => decide (x ≠ m) && s.hw.isSpare x with
      | some x => some (s.swapSlot m x)
      | none => none) s)
/-- RETIRE (R312). -/
def execRetire (p : Path) (s : State) : Res := .next (frCmd p 0x06 frAny (fun s k => some (s.onHw fun h => h.retire k)) s)
/-- REQUEST_HOLD: an abort request with HOLD for paddock FR_ARG[1:0] (R304). -/
def execRequestHold (p : Path) (s : State) : Res :=
  .next (frCmd p 0x07 frAny (fun s _ => some (s.onHw fun h => h.askAbort ⟨h.fld (pgFarrier + Reg.farrier.frArg) 0 2 % 4, Nat.mod_lt _ (by decide)⟩ true)) s)
/-- Every paddock whose rings include a field, or whose traffic crosses it, is halted (R317). -/
def Hw.fieldQuiet (h : Hw) (f : Field) : Bool :=
  (match h.paddockOfField f with | some n => !h.planRunning n | none => true) && (h.affected (fieldUnit f.val)).all fun n => !h.planRunning n
/-- The field's sensors read below 85 °C. -/
def Hw.fieldCool (h : Hw) (f : Field) : Bool :=
  let pg := pgFieldPower f
  [h.fld (pg + Reg.fieldPower.ptTemp01) 0 16, h.fld (pg + Reg.fieldPower.ptTemp01) 16 16, h.fld (pg + Reg.fieldPower.ptTemp23) 0 16,
    h.fld (pg + Reg.fieldPower.ptTemp23) 16 16, h.fld (pg + Reg.fieldPower.ptTemp4) 0 16].all fun t => decide (signOf 16 t < 85 * 16)
/-- Both planes of every link between a field's nodes and those in service come UP. -/
def Hw.trainField (h : Hw) (f : Field) : Hw :=
  let rs : List RtrLoc := RtrLoc.hub f :: (fieldClusters f).map RtrLoc.cluster
  rs.foldl (fun h r => (List.range 7).foldl (fun h p =>
    match neighbour r p with
    | some (n, _) =>
      if h.inService n.field.val then
        [Plane.a, Plane.b].foldl (fun h v =>
          if h.linkState r p v = 6 then h
          else h.bothEnds r p fun h n q => (h.setLink n q v { LinkState.empty with soft := Tab.get h.flash.softLane (16 * n.idx + linkKey q v) [] }).setLinkState n q v 2) h
      else h
    | none => h) h) h
/-- A field's domain powers up: ceilings at GALLOP, clusters from REST toward WALK, or as requested, through the governor (R377, R381, R386). -/
def Hw.fieldPowerUp (h : Hw) (f : Field) (st : Nat) : Hw :=
  let h := ((h.setRegN (pgFieldPower f + Reg.fieldPower.ptGait) 0).setBlkState (pgFieldPower f) st).setCeilTherm f 0
  let h := h.onPw fun p => { p with hotOut := p.hotOut.erase f.val, thermUp := p.thermUp.erase f.val, powerDown := p.powerDown.erase f.val, powerUp := p.powerUp.erase f.val,
                                    coolSince := Tab.erase p.coolSince f.val, stepAt := Tab.erase p.stepAt f.val }
  let h := h.setGaitFld f 0 (h.gaitRequest f)
  h.gaitApply f
/-- A field is in service: routers, port, sites, complex and placement controller (R317, R386). -/
def Hw.fieldServe (h : Hw) (f : Field) : Hw :=
  let h := { h with outFields := h.outFields.erase f.val }
  let h := (fieldClusters f).foldl (fun h l => h.setBlkState (RtrLoc.cluster l).page 2) h
  let h := (h.setBlkState (RtrLoc.hub f).page 2).setBlkState (pgPort f) 0
  let h := [1, 2].foldl (fun h u => h.setBlkState (pageBase f.val 6 u 0) 3) h
  let h := (h.setBlkState (pgUpdate f) 0).setBlkState (pgPlace f) 0
  let h := h.setBit (pgFarrier + Reg.farrier.frFieldOutLo + 4 * (f.val / 32)) (f.val % 32) false
  let h := (h.trainField f).rehome
  let h := (h.boot.out.filter fun k => unitField k = f.val).foldl (fun h k => h.fenceUnit k true) h
  h.portEnable f
/-- The field whose domain an instance of a calibration parameter belongs to, none for the harness base (R391). -/
def calField (key : Nat) : Option Nat :=
  let c := key % 256
  let i := key / 256
  if 1 ≤ c ∧ c ≤ 4 then some i
  else if c = 5 then
    (if i < 240 then some (i / 5) else if i < 336 then some ((i - 240) / 2) else if i < 384 then some (i - 336) else if i < 432 then some (i - 384) else none)
  else if c = 6 then some (i / 2)
  else if c = 7 ∨ c = 8 then some (i / 8)
  else none
/-- Stage CALIBRATE: user values of some instances take effect (R392). -/
def Hw.calApply (h : Hw) (which : Nat → Bool) : Hw :=
  { h with sec := { h.sec with calIn := (h.flash.calUser.filter fun x => which x.1).foldl (fun t x => Tab.set t x.1 x.2) h.sec.calIn } }
/-- READMIT_FIELD: legal for a field out for heat, its traffic halted, its sensors below 85 °C; it is powered, trained, zero-filled, and its bit of FR_FIELD_OUT clears (R317). -/
def execReadmitField (p : Path) (s : State) : Res :=
  .next (frCmd p 0x08 [0] (fun s k =>
    let f := fieldOf (unitField k)
    let hot := s.hw.pw.hotOut.contains f.val || s.hw.fld (pgFieldPower f + Reg.fieldPower.ptFuse) 1 2 = 3
    if !s.hw.outFields.contains f.val || !hot || !s.hw.fieldQuiet f || !s.hw.fieldCool f then none
    else some ((s.fieldForget f).onHw fun h =>
      let h := ((h.fieldDark f).setRegN (pgFieldPower f + Reg.fieldPower.ptFuse) 0).fieldPowerUp f 2
      let h := h.fieldServe f
      let h := h.calApply fun k => decide (calField k = some f.val)
      ((h.setGlb 1 h.degraded).showThermal).showAlert)) s)
/-- UNRETIRE: the entry goes; it takes effect at the next power-on (R312). -/
def execUnretire (p : Path) (s : State) : Res :=
  .next (frCmd p 0x09 [0] (fun s k =>
    if s.hw.anyPlan then none
    else some (s.onHw fun h => { h with flash := { h.flash with service := h.flash.service.filter fun x => decide (x ≠ unitWhole k) } })) s)
/-- FR CLEAR_COUNTERS (R319). -/
def execFrClearCounters (p : Path) (s : State) : Res :=
  .next (frCmd p 0x0A frAny (fun s _ => some (s.onHw fun h => h.clearRegs pgFarrier
    [Reg.farrier.frCountsA, Reg.farrier.frCountsB, Reg.farrier.frTransients, Reg.farrier.frTickMissed])) s)

/-- SPARE_RETEST: a replaced slot's four MEs are tested; a failing row or column whose spares are free is repaired and tested again; a slot that then passes is the cluster's spare, another is retired (R309). -/
def execSpareRetest (l : McLoc) (a b : List TestResult) (s : State) : Res :=
  .next (s.onHw fun h =>
    let k := mcKey l
    if !h.fr.retest.contains k || h.fr.test.isSome then h
    else
      let mes : List MeLoc := (List.finRange 4).map fun e => ⟨l, e⟩
      let res := fun (ts : List TestResult) (e : MeLoc) => ts.getD e.e.val ⟨false, none, none⟩
      let h := h.onFr fun x => { x with retest := x.retest.erase k }
      let h := (mes.foldl (fun h e => h.testShow e (res a e)) h).atLeast (h.clk.now + 4 * 113778)
      let fixable := mes.all fun e => (res a e).pass || (!(res a e).multi && h.softFree e (res a e).soft)
      let h :=
        if !fixable || decide (h.slotFaults l ≥ 2) then h.retire k
        else
          let h := mes.foldl (fun h e => if (res a e).pass then h else h.softWrite e (res a e).soft) h
          let h := (mes.foldl (fun h e => h.testShow e (res b e)) h).atLeast (h.clk.now + 4 * 113778)
          if mes.all fun e => (res b e).pass then (h.fenceUnit k false).setBlkState l.page 4 else h.retire k
      if h.blkState pgFarrier = 3 then h.frIdle else h)

end Machine
end Sys2Proof
end

