-- ==== Sys2Proof/Machine/Calib.lean ====
section
/-! DEFINITION. Calibration parameters (R391, R392, R402): ranges, fused, user, effective and pending values, the calibration page. -/
namespace Sys2Proof.Machine

/-- Instances, effective range and user range of a calibration parameter (R391). -/
def calParam (code : Nat) : Option (Nat × (Int × Int) × (Int × Int)) :=
  match code with
  | 1 => some (48, (700, 800), (-20, 20))
  | 2 => some (48, (630, 730), (-20, 20))
  | 3 => some (48, (560, 650), (-20, 20))
  | 4 => some (48, (0, 255), (-8, 8))
  | 5 => some (437, (-64, 64), (0, 32))
  | 6 => some (96, (0, 127), (-6, 6))
  | 7 => some (384, (0, 4095), (-64, 64))
  | 8 => some (384, (0, 4095), (-64, 64))
  | 9 => some (1, (-5000, 5000), (-2000, 2000))
  | 10 => some (1, (-5000, 5000), (-2000, 2000))
  | _ => none
/-- A value saturated to a range. -/
def clampInt (r : Int × Int) (v : Int) : Int := max r.1 (min r.2 v)
/-- Key of an instance of a parameter. -/
def calKey (code inst : Nat) : Nat := inst * 256 + code
/-- The parameter exists with that instance. -/
def calOk (code inst : Nat) : Bool := match calParam code with | some (n, _) => decide (inst < n) | none => false
/-- CAL_F: fused; nominal where the model has none (notes/assumptions/3.md). -/
def Hw.calFused (h : Hw) (code inst : Nat) : Int :=
  match Tab.find h.fac.cal (calKey code inst) with
  | some v => signOf 16 v
  | none => match code with | 1 => 750 | 2 => 680 | 3 => 600 | _ => 0
/-- A user value as a table holds it. -/
def calUserOf (t : Tab Nat) (code inst : Nat) : Int := signOf 16 (Tab.get t (calKey code inst) 0)
/-- The effective value with a user value: CAL_F + CAL_U, saturated to the effective range (R391). -/
def Hw.calWith (h : Hw) (t : Tab Nat) (code inst : Nat) : Int :=
  match calParam code with
  | some (_, e, _) => clampInt e (h.calFused code inst + calUserOf t code inst)
  | none => 0
/-- CAL_EFF: the value in force. -/
def Hw.calEff (h : Hw) (code inst : Nat) : Int := h.calWith h.sec.calIn code inst
/-- CAL_PENDING: the value after the next pass of stage CALIBRATE. -/
def Hw.calPending (h : Hw) (code inst : Nat) : Int := h.calWith h.flash.calUser code inst
/-- CAL_SEL's parameter and instance. -/
def Hw.calPick (h : Hw) : Nat × Nat := (h.fld (pgCalib + Reg.calib.calSel) 0 8, h.fld (pgCalib + Reg.calib.calSel) 8 12)
/-- A value register of the calibration page for the selected instance; 0 outside R391 (R402). -/
def Hw.calView (h : Hw) (off : Nat) : Option Nat :=
  let (c, i) := h.calPick
  let ok := calOk c i
  let w := fun (v : Int) => some (if ok then twos 32 v else 0)
  let pair := fun (r : Int × Int) => some (if ok then twos 16 r.1 + twos 16 r.2 <<< 16 else 0)
  if off = Reg.calib.calFused then w (h.calFused c i)
  else if off = Reg.calib.calUser then (if ok then none else some 0)
  else if off = Reg.calib.calEff then w (h.calEff c i)
  else if off = Reg.calib.calPending then w (h.calPending c i)
  else if off = Reg.calib.calEffRange then (match calParam c with | some (_, e, _) => pair e | none => some 0)
  else if off = Reg.calib.calUserRange then (match calParam c with | some (_, _, u) => pair u | none => some 0)
  else if off = Reg.calib.calWrites then some (min h.flash.calWrites (2 ^ 32 - 1))
  else none
/-- CAL_SEL_WRITE: CAL_USER is loaded from the record (R402). -/
def execCalSelWrite (p : Path) (v : Word) (s : State) : Res :=
  .next (s.onHw fun h => h.pathWrite p pgCalib Reg.calib.calSel fun h =>
    let h := h.setRegN (pgCalib + Reg.calib.calSel) (v.toNat % 2 ^ 20)
    let (c, i) := h.calPick
    h.setRegN (pgCalib + Reg.calib.calUser) (if calOk c i then twos 32 (calUserOf h.flash.calUser c i) else 0))
/-- A write of CAL_USER saturates to the user range (R391, R402). -/
def Hw.calUserWrite (h : Hw) (v : Nat) : Hw :=
  match calParam h.calPick.1 with
  | some (_, _, u) => h.setRegN (pgCalib + Reg.calib.calUser) (twos 32 (clampInt u (signOf 32 v)))
  | none => h
/-- A flash write of a user value begins: BLK_STATE WRITING (R392, R402). -/
def calWrite (p : Path) (code : Nat) (f : Hw → Int) (s : State) : State :=
  let may := s.hw.mayCommand p pgCalib none
  if may && s.hw.blkState pgCalib = 1 then s.onHw fun h => h.cmdResult p pgCalib code .busy
  else runCmd s p pgCalib code may [0] fun s =>
    let (c, i) := s.hw.calPick
    if !calOk c i then (.badArg, s)
    else (.ok, s.onHw fun h =>
      let h : Hw := { h with
        flash := { h.flash with calUser := Tab.set h.flash.calUser (calKey c i) (twos 16 (f h)), calWrites := h.flash.calWrites + 1 }
        sec := { h.sec with calBusy := some (calKey c i, h.clk.now) } }
      h.setBlkState pgCalib 1)
/-- WRITE_USER (R392). -/
def execWriteUser (p : Path) (s : State) : Res := .next (calWrite p 0x01 (fun h => signOf 32 (h.regN (pgCalib + Reg.calib.calUser))) s)
/-- CLEAR_USER (R402). -/
def execClearUser (p : Path) (s : State) : Res := .next (calWrite p 0x02 (fun _ => 0) s)
/-- CAL_FLASH_DONE: the block leaves WRITING (R402). -/
def execCalFlashDone (s : State) : Res :=
  .next (s.onHw fun h =>
    match h.sec.calBusy with
    | some _ => ({ h with sec := { h.sec with calBusy := none } } : Hw).setBlkState pgCalib 0
    | none => h)

end Sys2Proof.Machine
end

