-- ==== Sys2Proof/Machine/Lms.lean ====
section
/-! DEFINITION. SHA-256 (FIPS 180-4) and the verification of LMS signatures (RFC 8554), which the manual names and does not restate (R393, R395; notes/assumptions/53.md). -/
namespace Sys2Proof.Machine

/-- The round constants of SHA-256. -/
def shaK : List Nat :=
  [0x428a2f98, 0x71374491, 0xb5c0fbcf, 0xe9b5dba5, 0x3956c25b, 0x59f111f1, 0x923f82a4, 0xab1c5ed5, 0xd807aa98, 0x12835b01, 0x243185be, 0x550c7dc3, 0x72be5d74, 0x80deb1fe, 0x9bdc06a7, 0xc19bf174,
   0xe49b69c1, 0xefbe4786, 0x0fc19dc6, 0x240ca1cc, 0x2de92c6f, 0x4a7484aa, 0x5cb0a9dc, 0x76f988da, 0x983e5152, 0xa831c66d, 0xb00327c8, 0xbf597fc7, 0xc6e00bf3, 0xd5a79147, 0x06ca6351, 0x14292967] ++
  [0x27b70a85, 0x2e1b2138, 0x4d2c6dfc, 0x53380d13, 0x650a7354, 0x766a0abb, 0x81c2c92e, 0x92722c85, 0xa2bfe8a1, 0xa81a664b, 0xc24b8b70, 0xc76c51a3, 0xd192e819, 0xd6990624, 0xf40e3585, 0x106aa070,
   0x19a4c116, 0x1e376c08, 0x2748774c, 0x34b0bcb5, 0x391c0cb3, 0x4ed8aa4a, 0x5b9cca4f, 0x682e6ff3, 0x748f82ee, 0x78a5636f, 0x84c87814, 0x8cc70208, 0x90befffa, 0xa4506ceb, 0xbef9a3f7, 0xc67178f2]
/-- The hash value before the first block, word 0 in the low bits. -/
def shaInit : Nat := 0x5be0cd19_1f83d9ab_9b05688c_510e527f_a54ff53a_3c6ef372_bb67ae85_6a09e667
/-- A 32-bit word turned right. -/
def rotr32 (x n : Nat) : Nat := (x >>> n ||| x <<< (32 - n)) % 2 ^ 32
/-- One round on the eight working words, held in one number, word 0 lowest; kw is the sum of the round's constant and message word. -/
def shaRound (s kw : Nat) : Nat :=
  let a := s % 2 ^ 32
  let b := (s >>> 32) % 2 ^ 32
  let c := (s >>> 64) % 2 ^ 32
  let e := (s >>> 128) % 2 ^ 32
  let f := (s >>> 160) % 2 ^ 32
  let g := (s >>> 192) % 2 ^ 32
  let t := s >>> 224 + (rotr32 e 6 ^^^ rotr32 e 11 ^^^ rotr32 e 25) + ((e &&& f) ^^^ ((2 ^ 32 - 1 - e) &&& g)) + kw
  let u := (rotr32 a 2 ^^^ rotr32 a 13 ^^^ rotr32 a 22) + ((a &&& b) ^^^ (a &&& c) ^^^ (b &&& c))
  let d := (s >>> 96) % 2 ^ 32
  (s <<< 32) % 2 ^ 256 + ((d + t) % 2 ^ 32) <<< 128 + (t + u) % 2 ^ 32 - d <<< 128
/-- The message schedule's next word, from the sixteen before it in one number, the oldest lowest. -/
def shaNext (w : Nat) : Nat :=
  let x := (w >>> 32) % 2 ^ 32
  let y := (w >>> 448) % 2 ^ 32
  (w % 2 ^ 32 + (rotr32 x 7 ^^^ rotr32 x 18 ^^^ x >>> 3) + (w >>> 288) % 2 ^ 32 + (rotr32 y 17 ^^^ rotr32 y 19 ^^^ y >>> 10)) % 2 ^ 32
/-- The rounds of a block. -/
def shaRounds : List Nat → Nat → Nat → Nat
  | [], _, s => s
  | k :: r, w, s => shaRounds r (w >>> 32 + shaNext w <<< 480) (shaRound s (k + w % 2 ^ 32))
/-- The eight words of two hash values added word by word. -/
def shaAdd (s t : Nat) : Nat := ((List.range 8).map fun i => (((s >>> (32 * i)) + (t >>> (32 * i))) % 2 ^ 32) <<< (32 * i)).sum
/-- One block of 64 bytes. -/
def shaBlock (s : Nat) (b : List Byte) : Nat :=
  shaAdd s (shaRounds shaK ((List.range 16).foldl (fun w i => w + (ofLeBytes ((b.drop (4 * i)).take 4).reverse) <<< (32 * i)) 0) s)
/-- The blocks of a padded message. -/
def shaBlocks : Nat → List Byte → Nat → Nat
  | 0, _, s => s
  | n + 1, b, s => shaBlocks n (b.drop 64) (shaBlock s (b.take 64))
/-- Bytes of a number, the most significant first. -/
def beBytes (n v : Nat) : List Byte := (leBytes n v).reverse
/-- The number of n bytes from an offset on, the most significant first. -/
def beAt (b : List Byte) (off n : Nat) : Nat := ofLeBytes (sliceD b off n 0).reverse
/-- SHA-256 as 32 bytes. -/
def sha256Bytes (m : List Byte) : List Byte :=
  let padded := m ++ [0x80] ++ List.replicate ((119 - m.length % 64) % 64) 0 ++ beBytes 8 (8 * m.length)
  let s := shaBlocks (padded.length / 64) padded shaInit
  (List.range 8).flatMap fun i => beBytes 4 ((s >>> (32 * i)) % 2 ^ 32)
/-- SHA-256 as a number. -/
def sha256 (m : List Byte) : BitVec 256 := BitVec.ofNat 256 (ofLeBytes (sha256Bytes m).reverse)

/-- Height of the LMS types with SHA-256 and 32-byte nodes (RFC 8554). -/
def lmsHeight (type : Nat) : Option Nat :=
  match type with | 5 => some 5 | 6 => some 10 | 7 => some 15 | 8 => some 20 | 9 => some 25 | _ => none
/-- Width w, number of chains p and checksum shift ls of the one-time types with SHA-256 and 32-byte values (RFC 8554). -/
def lmotsParam (type : Nat) : Option (Nat × Nat × Nat) :=
  match type with | 1 => some (1, 265, 7) | 2 => some (2, 133, 6) | 3 => some (4, 67, 4) | 4 => some (8, 34, 0) | _ => none
/-- The two types that a public key names. -/
def lmsTypes (key : List Byte) : Nat × Nat := (beAt key 0 4, beAt key 4 4)
/-- Bytes of a signature under a key. -/
def lmsSigBytes (key : List Byte) : Nat :=
  match lmsHeight (lmsTypes key).1, lmotsParam (lmsTypes key).2 with
  | some h, some (_, p, _) => 12 + 32 * (p + 1) + 32 * h
  | _, _ => 0
/-- Digit i of width w of a byte string. -/
def lmotsCoef (b : List Byte) (i w : Nat) : Nat := bitsOf (b.getD (i * w / 8) 0).toNat (8 - (w * (i % (8 / w)) + w)) w
/-- The digest with its checksum. -/
def lmotsDigits (q : List Byte) (w ls : Nat) : List Byte :=
  q ++ beBytes 2 ((((List.range (256 / w)).map fun i => 2 ^ w - 1 - lmotsCoef q i w).sum <<< ls) % 2 ^ 16)
/-- A chain from step j on, n steps. -/
def lmotsChain (pre : List Byte) : Nat → Nat → List Byte → List Byte
  | 0, _, x => x
  | n + 1, j, x => lmotsChain pre n (j + 1) (sha256Bytes (pre ++ beBytes 1 j ++ x))
/-- The one-time public key that a one-time signature leads to; idq is the key's identifier and the leaf number. -/
def lmotsCandidate (idq : List Byte) (par : Nat × Nat × Nat) (msg sig : List Byte) : List Byte :=
  let (w, p, ls) := par
  let v := lmotsDigits (sha256Bytes (idq ++ [0x81, 0x81] ++ sliceD sig 4 32 0 ++ msg)) w ls
  sha256Bytes (idq ++ [0x80, 0x80] ++ (List.range p).flatMap fun i =>
    let a := lmotsCoef v i w
    lmotsChain (idq ++ beBytes 2 i) (2 ^ w - 1 - a) a (sliceD sig (36 + 32 * i) 32 0))
/-- The way up the tree from a node. -/
def lmsClimb (id path : List Byte) : Nat → Nat → Nat → List Byte → List Byte
  | 0, _, _, x => x
  | n + 1, i, node, x =>
    let y := sliceD path (32 * i) 32 0
    lmsClimb id path n (i + 1) (node / 2) (sha256Bytes (id ++ beBytes 4 (node / 2) ++ [0x83, 0x83] ++ if node % 2 = 1 then y ++ x else x ++ y))
/-- An LMS signature of a message verifies under a public key (RFC 8554). -/
def lmsVerify (key msg sig : List Byte) : Bool :=
  match lmsHeight (lmsTypes key).1, lmotsParam (lmsTypes key).2 with
  | some h, some par =>
    let q := beAt sig 0 4
    let n := 36 + 32 * par.2.1
    let id := sliceD key 8 16 0
    key.length = 56 && sig.length = lmsSigBytes key && decide (q < 2 ^ h) && beAt sig 4 4 = (lmsTypes key).2 && beAt sig (4 + n) 4 = (lmsTypes key).1 &&
    (let kc := lmotsCandidate (id ++ beBytes 4 q) par msg (sliceD sig 4 n 0)
     lmsClimb id (sig.drop (8 + n)) h 0 (2 ^ h + q) (sha256Bytes (id ++ beBytes 4 (2 ^ h + q) ++ [0x82, 0x82] ++ kc)) = sliceD key 24 32 0)
  | _, _ => false

end Sys2Proof.Machine
end

