-- ==== Sys2Proof/Machine/Power.lean ====
section
/-! DEFINITION. Power and heat (R368 to R385): samples, thresholds, the cap, fuses, the inrush governor, gait changes. -/
namespace Sys2Proof.Machine

/-- The CORE rail's setpoint at a gait, in mV: the effective calibration value (R373, R392). -/
def Hw.railOf (h : Hw) (f : Field) (g : Nat) : Nat :=
  if g = 4 then 0 else (h.calEff (if g = 0 then 1 else if g = 1 then 2 else 3) f.val).toNat
/-- A fuse trips: PT_FUSE, event TRIP, the field at REST, ALERT_N; the field is lost; the link of a short stays open through every power-on (R371). -/
def State.trip (s : State) (f : Field) (cls : Nat) : State :=
  let pg := pgFieldPower f
  if s.hw.bit (pg + Reg.fieldPower.ptFuse) 0 then s
  else
    let s := s.loseField f
    s.onHw fun h =>
      let h := ((h.setRegN (pg + Reg.fieldPower.ptFuse) (1 + cls <<< 1 + (if cls = 1 then 8 else 0))).setBlkState pg 4).raise pg 12
      let h := h.setRegN (pg + Reg.fieldPower.ptGait) (4 <<< 12)
      let h : Hw := if cls = 1 then { h with boot := { h.boot with openLinks := if h.boot.openLinks.contains f.val then h.boot.openLinks else h.boot.openLinks ++ [f.val] } } else h
      let h := if cls = 3 then h.onPw fun p => { p with hotOut := if p.hotOut.contains f.val then p.hotOut else p.hotOut ++ [f.val] } else h
      h.showThermal
/-- FUSE_SHORT (R371). -/
def execFuseShort (f : Field) (s : State) : Res := .next (s.trip f 1)
/-- FUSE_OVERLOAD (R371). -/
def execFuseOverload (f : Field) (s : State) : Res := .next (s.trip f 2)

/-- INPUT_SAMPLE: voltage (0.1 V), power (W) and the fields' powers as measured; corrected by the gains, shown, compared, sampled (R369, R391, R403). -/
def execInputSample (v w : Nat) (k : List Nat) (s : State) : Res :=
  .next (s.onHw fun h =>
    let gain := fun (code x : Nat) => ((x : Int) * (1000000 + h.calEff code 0) / 1000000).toNat
    let volt := gain 9 v
    let watt := gain 10 w
    let h := (h.setFld (pgPower + Reg.powerGlobal.ptInputV) 0 16 volt).setFld (pgPower + Reg.powerGlobal.ptInputP) 0 16 watt
    let h := if 7000 ≤ volt ∧ volt < 7200 then h.raise pgPower 8 else if 8600 < volt ∧ volt ≤ 8800 then h.raise pgPower 9 else h
    let bad := decide (volt < 7000) || decide (volt > 8800)
    let h := h.onPw fun p => { p with inputBad := if bad then p.inputBad.or (some h.clk.now) else none }
    (List.finRange 48).foldl (fun h f =>
      if h.fieldOn f then (h.monSample f 7 0 (k.getD f.val 0)).monSample f 7 1 (watt : Int) else h) h)

/-- CEIL_THERM falls one gait, to no lower than TROT: event, count, at once in the clusters (R376, R380). -/
def Hw.ceilFall (h : Hw) (f : Field) (dest : Nat) : Hw :=
  let old := h.gaitFld f 4
  if old ≥ dest then h
  else
    let h := ((h.setCeilTherm f dest).raise (pgFieldPower f) 9).count (pgFieldPower f + Reg.fieldPower.ptThrottleCount) 0 16 (dest - old)
    h.gaitApply f
/-- The orderly removal of a field: DRAINING, its main path due (R316). -/
def Hw.drainField (h : Hw) (f : Field) : Hw :=
  if h.blkState (pgFieldPower f) ≠ 2 then h
  else (h.setBlkState (pgFieldPower f) 3).onFr fun x => { x with todo := if x.todo.contains (fieldUnit f.val) then x.todo else x.todo ++ [fieldUnit f.val] }
/-- Two consecutive samples of a sensor at or above TRIP (R380). -/
def Hw.tripCount (h : Hw) (sensor : Nat) (at_ : Bool) : Hw × Bool :=
  let n := if at_ then Tab.get h.pw.tripSamples sensor 0 + 1 else 0
  (h.onPw fun p => { p with tripSamples := if n = 0 then Tab.erase p.tripSamples sensor else Tab.set p.tripSamples sensor n }, decide (n ≥ 2))
/-- A byte in °C. -/
def degByte (t : Int) : Nat := twos 8 (t / 16)
/-- The largest of some temperatures. -/
def maxInt (l : List Int) : Int := match l with | [] => 0 | a :: r => r.foldl max a
/-- A memory site's MS_TEMP, with double refresh from 85 °C (R184). -/
def Hw.stackTemp (h : Hw) (site : Nat) (t : Int) : Hw :=
  let pg := pageBase (site / 2) 6 (1 + site % 2) 0
  let k := pg + Reg.msite.msTemp
  let hot := decide (t ≥ 85 * 16)
  let was := h.bit k 8
  let h := h.setRegN k (degByte t + (b2n hot) <<< 8)
  if hot = was then h else h.raise pg 10
/-- The junction's and the field's other conditions of one sample: what falls, stops or is reported (R380). The second part says whether the field trips. -/
def Hw.fieldTemps (h : Hw) (f : Field) (j : Int) (stackT : List Int) (optic stage : Int) : Hw × Bool :=
  let pg := pgFieldPower f
  let th := fun (i : Nat) => 16 * (h.fld (pgPower + Reg.powerGlobal.ptThresh) (8 * i) 8 : Int)
  let st := maxInt stackT
  let warn := decide (j ≥ th 0) || decide (st ≥ 90 * 16) || decide (optic ≥ 75 * 16)
  let limit := decide (j ≥ th 2) || decide (st ≥ 100 * 16) || decide (optic ≥ 85 * 16)
  let (h, t0) := h.tripCount (4 * f.val) (decide (j ≥ th 3))
  let (h, t1) := h.tripCount (4 * f.val + 1) (decide (st ≥ 105 * 16))
  let (h, t2) := h.tripCount (4 * f.val + 2) (decide (stage ≥ 110 * 16))
  let h := if warn then h.raise pg 8 else h
  let h := if limit then h.raise pg 11 else h
  let h := h.onPw fun p => { p with
    holding := if warn || limit then Tab.set p.holding f.val (b2n warn + 2 * b2n limit) else Tab.erase p.holding f.val
    coolSince := if j ≤ th 0 then (if (Tab.find p.coolSince f.val).isSome then p.coolSince else Tab.set p.coolSince f.val h.clk.now) else Tab.erase p.coolSince f.val }
  let trot := h.gaitFld f 4 = 2
  let h := if j ≥ th 1 then
      (if (Tab.find h.pw.stepAt f.val).isSome then h
       else (h.ceilFall f (min 2 (h.gaitFld f 4 + 1))).onPw fun p => { p with stepAt := Tab.set p.stepAt f.val h.clk.now })
    else h.onPw fun p => { p with stepAt := Tab.erase p.stepAt f.val }
  let h := if j ≥ th 2 then (if trot then h.drainField f else h.ceilFall f 2) else h
  let h := if st ≥ 100 * 16 then h.drainField f else h
  let h := if optic ≥ 85 * 16 then
      (if h.pw.opticOff.contains f.val then h
       else (portLinks f).foldl (fun h k => h.opDown k 0) (h.onPw fun p => { p with opticOff := p.opticOff ++ [f.val] }))
    else if optic < 75 * 16 ∧ h.pw.opticOff.contains f.val then (h.onPw fun p => { p with opticOff := p.opticOff.erase f.val }).portEnable f
    else h
  (h, t0 || t1 || t2)
/-- PT_HARNESS_MAX: the hottest of each kind over the fields (R385). -/
def Hw.harnessMax (h : Hw) (die : Int) : Hw :=
  let best := fun (lo : Nat) => ((List.finRange 48).map fun f => signOf 8 (h.fld (pgFieldPower f + Reg.fieldPower.ptHarness) lo 8)).foldl max (-128)
  h.setRegN (pgPower + Reg.powerGlobal.ptHarnessMax)
    (twos 8 (max (best 0) (best 8)) + twos 8 (best 16) <<< 8 + twos 8 (best 24) <<< 16 + degByte die <<< 24)
/-- Coolant inlets and outlets: shown in 0.25 °C, HOT and FLOW_LOW (R380, R385). -/
def Hw.coolantTemps (h : Hw) (ti dest bi bo : Int) : Hw :=
  let q := fun (a b : Int) => twos 8 (a / 4) + twos 8 (b / 4) <<< 8
  let h := (h.setRegN (pgPower + Reg.powerGlobal.ptCoolantTop) (q ti dest)).setRegN (pgPower + Reg.powerGlobal.ptCoolantBot) (q bi bo)
  let hot := decide (ti ≥ 640) || decide (bi ≥ 640)
  let low := decide (dest - ti ≥ 224) || decide (bo - bi ≥ 224)
  let h := if hot then h.raise pgPower 10 else h
  let h := if low then h.raise pgPower 11 else h
  h.onPw fun p => { p with coolant := b2n hot + 2 * b2n low }
/-- One sampling of a field's sensors and the harness's, corrected by calibration (R380, R391, R403). The second part says whether the field trips, the third whether the Ringmaster die does. -/
def Hw.tempsIn (h : Hw) (f : Field) (t : FieldTemps) (u : HarnessTemps) : Hw × Bool × Bool :=
  let pg := pgFieldPower f
  let cal := fun (inst : Nat) (v : Int) => v + h.calEff 5 inst
  let s := (List.range 5).map fun i => cal (5 * f.val + i) (t.s.getD i 0)
  let stackT := (List.range 2).map fun i => cal (240 + 2 * f.val + i) (t.stackT.getD i 0)
  let optic := cal (240 + 96 + f.val) t.optic
  let stage := cal (240 + 144 + f.val) t.stage
  let die := cal (240 + 192) u.die
  let j := maxInt s
  let w := fun (i : Nat) => twos 16 (s.getD i 0)
  let h := ((h.setRegN (pg + Reg.fieldPower.ptTemp01) (w 0 + w 1 <<< 16)).setRegN (pg + Reg.fieldPower.ptTemp23) (w 2 + w 3 <<< 16)).setRegN
    (pg + Reg.fieldPower.ptTemp4) (w 4 + twos 16 j <<< 16)
  let h := h.setFld (pg + Reg.fieldPower.ptTempPeak) 0 16 (twos 16 (max j (signOf 16 (h.fld (pg + Reg.fieldPower.ptTempPeak) 0 16))))
  let h := h.setRegN (pg + Reg.fieldPower.ptHarness) (degByte (stackT.getD 0 0) + degByte (stackT.getD 1 0) <<< 8 + degByte optic <<< 16 + degByte stage <<< 24)
  let h := (h.stackTemp (2 * f.val) (stackT.getD 0 0)).stackTemp (2 * f.val + 1) (stackT.getD 1 0)
  let h := if h.fieldOn f then
      (List.range 10).foldl (fun h i => h.monSample f 3 i (if i < 5 then s.getD i 0 else if i = 5 then j else if i < 8 then stackT.getD (i - 6) 0 else if i = 8 then optic else stage)) h
    else h
  let h := (h.harnessMax die).coolantTemps (cal (240 + 193) u.topIn) (cal (240 + 194) u.topOut) (cal (240 + 195) u.botIn) (cal (240 + 196) u.botOut)
  let (h, off) := h.tripCount 192 (decide (die ≥ 110 * 16))
  let (h, tripped) := if h.fieldOn f then h.fieldTemps f j stackT optic stage else (h, false)
  (h.showThermal, tripped, off)
/-- THROTTLE_STEP: each 1 ms at or above THROTTLE (R380). -/
def execThrottleStep (f : Field) (s : State) : Res :=
  .next (s.onHw fun h =>
    match Tab.find h.pw.stepAt f.val with
    | some t =>
      let h := h.atLeast (t + 1000000)
      (h.ceilFall f (min 2 (h.gaitFld f 4 + 1))).onPw fun p => { p with stepAt := Tab.set p.stepAt f.val h.clk.now }
    | none => h)
/-- CEIL_RELEASE: after 10 ms at or below WARN; at the paddock's next boundary, at once without a plan (R381). -/
def execCeilRelease (f : Field) (s : State) : Res :=
  .next (s.onHw fun h =>
    match Tab.find h.pw.coolSince f.val with
    | some t =>
      if h.gaitFld f 4 = 0 || h.pw.thermUp.contains f.val then h
      else
        let h := h.atLeast (t + 10000000)
        let h := h.onPw fun p => { p with coolSince := Tab.set p.coolSince f.val h.clk.now }
        if (match h.paddockOfField f with | some n => decide (3 ≤ h.slotState n) | none => false) then h.onPw fun p => { p with thermUp := p.thermUp ++ [f.val] }
        else (h.thermRise f).gaitApply f
    | none => h)
/-- POWER_AVERAGE: averages over 1 ms of the input (W) and of each field; the cap lowers or releases CEIL_POWER at the next boundary (R382, R384, R385). -/
def execPowerAverage (a : Nat) (k : List Nat) (s : State) : Res :=
  .next (s.onHw fun h =>
    let watt := ((a : Int) * (1000000 + h.calEff 10 0) / 1000000).toNat
    let h := h.setFld (pgPower + Reg.powerGlobal.ptInputP) 16 16 watt
    let pk := pgPower + Reg.powerGlobal.ptInputPeak
    let h := h.setFld pk 0 16 (max (h.fld pk 0 16) (min watt 65535))
    let h := (List.finRange 48).foldl (fun h f =>
      let kk := pgFieldPower f + Reg.fieldPower.ptPower
      let v := min (k.getD f.val 0) 65535
      let h := (h.setFld kk 0 16 v).setFld kk 16 16 (max (h.fld kk 16 16) v)
      if h.gaitFld f 12 = 1 || h.gaitFld f 12 = 2 then h.count (pgFieldPower f + Reg.fieldPower.ptThrottleCount) 16 16 1 else h) h
    let cap := h.fld (pgPower + Reg.powerGlobal.ptPowerCap) 0 16
    let planned := ((List.finRange 48).filter fun f => match h.paddockOfField f with | some n => decide (3 ≤ h.slotState n) | none => false).map (·.val)
    if watt > cap then (h.onPw fun p => { p with powerDown := planned, powerUp := [], lowAverages := 0 }).raise pgPower 12
    else if 10 * watt < 9 * cap then
      h.onPw fun p =>
        if p.lowAverages + 1 ≥ 100 then { p with lowAverages := 0, powerUp := ((List.finRange 48).filter fun f => decide (h.gaitFld f 8 > 0)).map (·.val) }
        else { p with lowAverages := p.lowAverages + 1 }
    else h.onPw fun p => { p with lowAverages := 0 })

/-- A request of the governor as it stands: the gait it would reach, its charge, and whether it leaves WALK or REST (R377). -/
def Hw.govEval (h : Hw) (q : GovReq) : Nat × Nat × Bool :=
  let f := fieldOf q.field
  match q.cluster with
  | some c =>
    let l := clOf q.field c
    let run := h.runningClusters f
    let dest := if q.target ≤ 2 then (match run with | x :: _ => h.clusterGait x | [] => h.clampGait f q.target) else q.target
    (dest, govCharge (h.clusterGait l) dest, true)
  | none =>
    let dest := h.clampGait f q.target
    (dest, ((h.runningClusters f).map fun l => if h.clusterGait l > dest then govCharge (h.clusterGait l) dest else 0).sum, false)
/-- One request in the scan: admitted where it fits the slot's charge and its field's spacing; else it stays (R377). -/
def Hw.govTry (h : Hw) (q : GovReq) : Hw × Option GovReq :=
  let (dest, charge, wake) := h.govEval q
  let f := fieldOf q.field
  let spaced := wake && (match Tab.find h.pw.lastWake f.val with | some t => decide (h.clk.now < t + 10000) | none => false)
  if !spaced && decide (h.pw.charged + charge ≤ h.fld (pgPower + Reg.powerGlobal.ptGovLimit) 0 16) then
    let h := if h.pw.slot > q.slot then h.count (pgPower + Reg.powerGlobal.ptGov) 0 16 1 else h
    let h := h.onPw fun p => { p with charged := p.charged + charge }
    match q.cluster with
    | some c =>
      let l := clOf q.field c
      (h.onPw fun p => { p with lastWake := Tab.set p.lastWake f.val h.clk.now, wakes := Tab.set p.wakes l.idx ⟨dest, decide (h.clusterGait l = 4), h.clk.now⟩ }, none)
    | none => (h.onPw fun p => { p with ramps := Tab.set p.ramps f.val (dest, h.clk.now) }, none)
  else
    let h := if spaced && !q.spaced then h.count (pgFieldPower f + Reg.fieldPower.ptWakeSpacing) 0 32 1 else h
    (h, some { q with spaced := q.spaced || spaced })
/-- GOV_ADMIT: the queue is scanned in order, and each request that fits is admitted (R377). -/
def execGovAdmit (s : State) : Res :=
  .next (s.onHw fun h =>
    let (h, left) := h.pw.gov.foldl (fun (acc : Hw × List GovReq) q =>
      let (h, o) := acc.1.govTry q
      (h, acc.2 ++ o.toList)) (h, [])
    h.onPw fun p => { p with gov := left })
/-- GOV_SLOT: a slot that ends with requests waiting counts; the whole limit is free again (R377). -/
def execGovSlot (s : State) : Res :=
  .next (s.onHw fun h =>
    let h := h.atLeast (h.pw.slotAt + 100000)
    let h := if h.pw.gov.isEmpty then h else h.count (pgPower + Reg.powerGlobal.ptGov) 16 16 1
    h.onPw fun p => { p with slot := p.slot + 1, slotAt := h.clk.now, charged := 0 })
/-- RAIL_RAMP_DONE: the rail has risen, the divider changes, to no more than the gait now in effect; what is still to rise asks again (R374 to R377). -/
def execRailRampDone (f : Field) (s : State) : Res :=
  .next (s.onHw fun h =>
    match Tab.find h.pw.ramps f.val with
    | some (dest, t) =>
      let h := (h.atLeast (t + 200000)).onPw fun p => { p with ramps := Tab.erase p.ramps f.val }
      let dest := max dest (h.effGait f)
      (((h.runningClusters f).foldl (fun h l => if h.clusterGait l > dest then h.setClusterGait l dest else h) h).gaitAsk f).showEff f
    | none => h)
/-- REST_WAKE_DONE: CORE_c is powered and the memories are zero-filled: WALK; a wake bound for a running gait goes on while one is in effect (R374, R375). -/
def execRestWakeDone (l : ClLoc) (s : State) : Res :=
  .next <|
    match Tab.find s.hw.pw.wakes l.idx with
    | some w =>
      if !w.fromRest then s
      else
        let s : State := { s with mem := s.mem.filter fun c => !(daRegion c.1 = 2 && daField c.1 = l.f.val && daCluster c.1 = l.c.val) }
        s.onHw fun h =>
          let h := (h.atLeast (w.since + 100000)).setClusterGait l 3
          ((h.onPw fun p => { p with wakes := if w.target ≤ 2 ∧ h.effGait l.f ≤ 2 then Tab.set p.wakes l.idx ⟨w.target, false, h.clk.now⟩ else Tab.erase p.wakes l.idx }).gaitAsk l.f).showEff l.f
    | none => s
/-- WALK_WAKE_DONE: the cluster's clock starts (R375). -/
def execWalkWakeDone (l : ClLoc) (s : State) : Res :=
  .next (s.onHw fun h =>
    match Tab.find h.pw.wakes l.idx with
    | some w =>
      if w.fromRest || decide (w.target > 2) then h
      else
        let h := h.atLeast (w.since + 2000)
        let dest := match h.runningClusters l.f with | x :: _ => h.clusterGait x | [] => max w.target (min 3 (h.effGait l.f))
        (((h.onPw fun p => { p with wakes := Tab.erase p.wakes l.idx }).setClusterGait l dest).gaitAsk l.f).showEff l.f
    | none => h)
/-- VDROOP_SAMPLE: every 1 µs while the cluster runs (R403). -/
def execVdroopSample (l : ClLoc) (a : Nat) (s : State) : Res :=
  .next (s.onHw fun h => if h.clusterGait l ≤ 2 && !h.fencedPage l.page then h.monSample l.f 4 l.c.val (a : Int) else h)
/-- PT_RING_REST: a ring in no paddock goes to REST, or wakes to WALK through the governor (R374). -/
def execPtRingRestWrite (p : Path) (v : Word) (s : State) : Res :=
  .next (s.onHw fun h => h.pathWrite p pgPower Reg.powerGlobal.ptRingRest fun h =>
    let h := h.setRegN (pgPower + Reg.powerGlobal.ptRingRest) (v.toNat % 16)
    (List.finRange 48).foldl (fun h f => if (h.paddockOfField f).isNone then (h.setGaitFld f 0 (h.gaitRequest f)).gaitApply f else h) h)
/-- PT CLEAR_COUNTERS of a field (R384). -/
def execPtClearCounters (p : Path) (f : Field) (s : State) : Res :=
  let pg := pgFieldPower f
  .next (plainCmd s p pg 0x02 (s.hw.mayCommand p pg none) [2] fun h =>
    (h.clearRegs pg [Reg.fieldPower.ptTempPeak, Reg.fieldPower.ptThrottleCount, Reg.fieldPower.ptWakeSpacing]).setFld (pg + Reg.fieldPower.ptPower) 16 16 0)
/-- CLEAR_COUNTERS of the module-global power page (R385). -/
def execPgClearCounters (p : Path) (s : State) : Res :=
  .next (plainCmd s p pgPower 0x02 (s.hw.mayCommand p pgPower none) [0] fun h =>
    h.clearRegs pgPower [Reg.powerGlobal.ptInputPeak, Reg.powerGlobal.ptGov])

end Sys2Proof.Machine
end

