-- ==== Sys2Proof/Machine/Boot.lean ====
section
/-! DEFINITION. Power-on, bring-up and the power latch (R369, R383, R386 to R390, R393, R433). -/
namespace Sys2Proof.Machine

/-- SEC_BOOT.STAGE. -/
def Hw.stage (h : Hw) : Nat := h.fld (pgSecurity + Reg.security.secBoot) 0 4
/-- The boot part changed. -/
def Hw.onBoot (h : Hw) (f : BootState → BootState) : Hw := { h with boot := f h.boot }
/-- PT_LATCH.LATCHED. -/
def Hw.latched (h : Hw) : Bool := h.bit (pgPower + Reg.powerGlobal.ptLatch) 1
/-- All power goes: everything is as before power-on but what flash, fuses, pins and the clock of the model keep (R369, R383). -/
def State.powerOff (s : State) : State :=
  let h := s.hw
  { s with mem := [], hw := { Hw.initial with
      clk := { Hw.initial.clk with now := h.clk.now }, freeCtr := h.freeCtr, out := h.out, fac := h.fac, flash := h.flash,
      boot := { BootState.empty with pwrEn := h.boot.pwrEn, openLinks := h.boot.openLinks } } }
/-- The input lies within 720 to 860 V (0.1 V). -/
def inputOk (v : Nat) : Bool := decide (7200 ≤ v) && decide (v ≤ 8600)
/-- Budgets of the stages, in ns (R386). -/
def stageBudget (n : Nat) : Nat :=
  1000000 * [0, 2000, 500, 2000, 1000, 15000, 80000, 1000, 500, 18000].getD n 0

/-- A unit failed in a stage: FAIL_STAGE keeps the first, BOOT_FAIL, DEGRADED (R387). -/
def Hw.bootFail (h : Hw) (n : Nat) : Hw :=
  let k := pgSecurity + Reg.security.secBoot
  let h := if h.fld k 4 4 = 0 then h.setFld k 4 4 n else h
  (h.raise pgSecurity 8).setGlb 1 true
/-- The module stops short of READY: ALERT_N (R387). -/
def Hw.bootStop (h : Hw) (n : Nat) : Hw := ((h.bootFail n).onBoot fun b => { b with stopped := true }).showAlert
/-- BLK_STATE of the security block: BUSY while a command runs, else RECOVERY, ACTIVE or BOOTING by the stage (R401). -/
def Hw.showSec (h : Hw) : Hw :=
  h.setBlkState pgSecurity (if h.sec.cmd.isSome then 2 else if h.bit (pgSecurity + Reg.security.secBoot) 9 then 3 else if h.stage = 10 then 1 else 0)
/-- A stage begins (R386, R388, R390). -/
def Hw.stageEnter (h : Hw) (n : Nat) : Hw :=
  let h := (h.setFld (pgSecurity + Reg.security.secBoot) 0 4 n).onBoot fun b => { b with stageAt := h.clk.now, waiting := false }
  if n = 4 then
    if h.latched then h.onBoot fun b => { b with waiting := true }
    else (List.finRange 48).foldl (fun h f =>
      if h.bit (pgFieldPower f + Reg.fieldPower.ptFuse) 0 || h.outFields.contains f.val then h else h.fieldPowerUp f 1) h
  else if n = 9 then
    let h := (h.setBlkState pgTimebase 1).onTb fun t => { t with stageAt := some h.clk.now }
    ((List.finRange 48).foldl Hw.portEnable h).startElection
  else if n = 10 then
    let h := h.setRegN (pgSecurity + Reg.security.secBootTime) ((h.clk.now - h.boot.pwrAt) / 1000000)
    h.showSec.setGlb 0 true
  else h
/-- Power-on: stage 1 begins; OP_BOOT_COUNT counts (R386, R433). -/
def State.powerOn (s : State) (v : Nat) : State :=
  s.onHw fun h =>
    let h := h.onBoot fun b => { b with on := true, pwrAt := h.clk.now }
    let h := { h with flash := { h.flash with bootCount := h.flash.bootCount + 1 } }
    let h := (h.setRegN (pgPower + Reg.powerGlobal.ptInputV) v).setBit (pgPower + Reg.powerGlobal.ptLatch) 0 true
    let h := h.boot.openLinks.foldl (fun h f =>
      (h.setRegN (pgFieldPower (fieldOf f) + Reg.fieldPower.ptFuse) 11).setBlkState (pgFieldPower (fieldOf f)) 4) h
    (h.showAlert.onPw fun p => { p with slotAt := h.clk.now }).stageEnter 1
/-- PWR_EN_ASSERT: with the module unpowered and the input in range, bring-up starts (R433). -/
def execPwrEnAssert (v : Nat) (s : State) : Res :=
  .next <|
    let s := s.onHw fun h => h.onBoot fun b => { b with pwrEn := true }
    if !s.hw.boot.on && inputOk v then s.powerOn v else s
/-- PWR_EN_DEASSERT: every domain goes, HB last (R383). -/
def execPwrEnDeassert (s : State) : Res := .next (s.onHw (fun h => h.onBoot fun b => { b with pwrEn := false })).powerOff
/-- HB_POWER_LOSS: below 500 V, or the HB fuse trips (R369, R371). -/
def execHbPowerLoss (s : State) : Res := .next s.powerOff
/-- INPUT_RETURN: with PWR_EN asserted bring-up starts again by itself (R369, R433). -/
def execInputReturn (v : Nat) (s : State) : Res :=
  .next (if s.hw.boot.pwrEn && !s.hw.boot.on && inputOk v then s.powerOn v else s)

/-- Every paddock halted, every field domain at REST, the contents of T0 and T1 lost (R383, R388, R400). -/
def State.allRest (s : State) : State :=
  let s := s.onHw fun h =>
    let h := (List.finRange 4).foldl (fun h n => if h.planRunning n then (h.abortPaddock n).commitHalt n false else if h.slotState n = 2 then h.takeUpEnd n 14 0 0 else h.onSc n fun x => { x with held := false }) h
    let h := (List.finRange 48).foldl (fun h f =>
      let h := (h.fieldDark f).setRegN (pgFieldPower f + Reg.fieldPower.ptGait) (4 <<< 12)
      if h.blkState (pgFieldPower f) = 4 then h else h.setBlkState (pgFieldPower f) 0) h
    let h := h.outFields.foldl (fun h f => (h.setBlkState (pgPort (fieldOf f)) 2)) h
    let h : Hw := { h with objs := [], plq := [], fills := [], resp := [], pads := h.pads.map fun p => (p.1, { p.2 with pinned := [], placed := [] }) }
    let h := h.onHp fun y => { y with aps := [], binding := [], submit := [] }
    let h := (List.finRange 4).foldl (fun h n => (List.range 3).foldl (fun h t => h.setReg64 (quotaReg n t + 8) 0) h) h
    h.onPw fun p => { p with gov := [], wakes := [], ramps := [], thermUp := [], powerDown := [], powerUp := [] }
  { s with mem := [] }
/-- The power latch is set: every field domain at REST, contents of T0 and T1 lost, paddocks halted, READY clear; bring-up waits at stage 4 (R369, R383, R388). -/
def State.latch (s : State) (cause : Nat) : State :=
  let s := s.onHw fun h => ((h.setFld (pgPower + Reg.powerGlobal.ptLatch) 1 3 (1 + 2 * cause)).setGlb 3 true).raise pgPower 13
  s.allRest.onHw fun h =>
    let h := (h.setGlb 0 false).showAlert
    if 4 ≤ h.stage then (h.stageEnter 4).showSec else h
/-- ESTOP_ASSERT: a low level of ESTOP_N of more than 1 µs sets the latch with cause ESTOP (R383, R433). -/
def execEstopAssert (s : State) : Res :=
  .next <|
    if !s.hw.boot.on then s
    else
      let s := s.onHw fun h => h.setBit (pgPower + Reg.powerGlobal.ptLatch) 0 false
      if s.hw.latched then s else s.latch 1
/-- INPUT_FAULT: the input below 700 V, or above 880 V, for 100 µs (R369). -/
def execInputFault (b : Bool) (s : State) : Res :=
  .next <|
    if !s.hw.boot.on || s.hw.latched then s
    else
      let s := match s.hw.pw.inputBad with | some t => s.onHw fun h => h.atLeast (t + 100000) | none => s
      s.latch (if b then 3 else 2)
/-- ESTOP_CLEAR: from the holder of the ADMIN lease, with the input in range; bring-up runs again from stage 4 (R383, R385, R388). -/
def execEstopClear (p : Path) (s : State) : Res :=
  .next (runCmd s p pgPower 0x01 (match p.host with | some x => s.hw.holds x 4 | none => false) [0] fun s =>
    if !s.hw.latched || !inputOk (s.hw.fld (pgPower + Reg.powerGlobal.ptInputV) 0 16) then (.illegal, s)
    else (.ok, s.onHw fun h =>
      let h := ((h.setRegN (pgPower + Reg.powerGlobal.ptLatch) 1).setGlb 3 false).showAlert
      if h.boot.waiting then h.stageEnter 4 else h))
/-- TEMP_SAMPLE: a field that trips is lost; a Ringmaster die that trips takes HB with it (R380). -/
def execTempSample (f : Field) (t : FieldTemps) (u : HarnessTemps) (s : State) : Res :=
  .next <|
    let (h, tripped, off) := s.hw.tempsIn f t u
    let s : State := { s with hw := h }
    if off then s.powerOff else if tripped then s.trip f 3 else s

/-- A chunk of 8 KiB of a firmware slot: as written, or as shipped. -/
def Hw.fwChunk (h : Hw) (slot c : Nat) : List Byte :=
  sliceD (match Tab.find h.flash.fw (2048 * slot + c) with | some b => b | none => Tab.get h.fac.fw (2048 * slot + c) []) 0 8192 255
/-- The first 16 KiB of a slot: the image's header. -/
def Hw.fwHead (h : Hw) (slot : Nat) : List Byte := h.fwChunk slot 0 ++ h.fwChunk slot 1
/-- The bytes of a number as SHA-256 gives it, the most significant first. -/
def digestBytes32 (d : BitVec 256) : List Byte := (leBytes 32 d.toNat).reverse
/-- An owner slot holds the key with this hash and is not revoked (R395). -/
def Fuses.ownerOk (f : Fuses) (slot : Nat) (key : List Byte) : Bool :=
  Tab.find f.owners slot = some (sha256 key) && !f.revoked.contains slot
/-- The boot ROM accepts the image in a slot (R393). -/
def State.fwOk (s : State) (slot : Nat) : Bool :=
  let h := s.hw
  let b := h.fwHead slot
  let n := leAt b 8 4
  let body := ((List.range ((n + 8191) / 8192)).flatMap fun c => h.fwChunk slot (2 + c)).take n
  let key := sliceD b 0x30 56 0
  let msg := b.take 0x30
  leAt b 0 4 = 0x57524D52 && leAt b 4 2 = 1 && decide (leAt b 6 1 ≤ 64) && decide (leAt b 7 1 ≤ 1) && decide (n ≤ 16 * 2 ^ 20 - 16384) &&
  digestBytes32 (sha256 body) = sliceD b 0x10 32 0 && h.fac.vendorKeys.contains (sha256 key) &&
  lmsTypes key = (7, 3) && lmsVerify key msg (sliceD b 0x68 2668 0) && decide (leAt b 6 1 ≥ s.fuses.svn) &&
  (!h.bit (pgSecurity + Reg.security.secPolicy) 1 ||
    (let okey := sliceD b 0xAD8 56 0
     leAt b 7 1 = 1 && s.fuses.ownerOk (leAt b 0xAD4 4) okey && lmsVerify okey msg ((sliceD b 0xB10 13552 0).take (lmsSigBytes okey))))
/-- The next signature index (R397). -/
def Hw.sigNext (h : Hw) : Nat := 1024 * h.sec.tree + h.sec.leaf
/-- SIG_LOW once fewer than 2^20 indices remain (R397). -/
def Hw.sigLow (h : Hw) : Hw := if 2 ^ 30 - h.sigNext < 2 ^ 20 then h.raise pgSecurity 10 else h
/-- Where signing resumes at power-on, with B the highest burned bucket: after the recorded tree if it is valid and not below bucket B, else at the next bucket, which is burned at once (R397). -/
def State.signResume (s : State) : State :=
  let next := s.fuses.buckets.foldl (fun m b => max m (b + 1)) 0
  let base := 4096 * (next - 1)
  match s.hw.flash.sigTree with
  | some t => if t ≥ base then s.onHw fun h => { h with sec := { h.sec with tree := t + 1, leaf := 0, started := false } }
      else { s with fuses := { s.fuses with buckets := if next < 256 then s.fuses.buckets ++ [next] else s.fuses.buckets },
                    hw := { s.hw with sec := { s.hw.sec with tree := 4096 * next, leaf := 0, started := false } } }
  | none => { s with fuses := { s.fuses with buckets := if next < 256 then s.fuses.buckets ++ [next] else s.fuses.buckets },
                     hw := { s.hw with sec := { s.hw.sec with tree := 4096 * next, leaf := 0, started := false } } }
/-- Stage FABRIC: maps applied, planes trained but those that fail, routers but those that fail; each cluster's spare slot (R18, R47, R180, R182, R312, R386, R387). -/
def Hw.fabric (h : Hw) (k : StageReport) : Hw :=
  let rtr := fun (i : Nat) => if i % 8 < 6 then RtrLoc.cluster (clOf (i / 8) (i % 8)) else RtrLoc.hub (fieldOf (i / 8))
  let bad := k.routers.map rtr
  let h := allRouters.foldl (fun h r => if h.inService r.field.val then h.setBlkState r.page (if bad.contains r then 3 else 2) else h) h
  let h := (List.finRange 48).foldl (fun h f => if h.inService f.val then h.trainField f else h) h
  let h := bad.foldl (fun h r => (List.range 7).foldl (fun h p => [Plane.a, Plane.b].foldl (fun h v =>
    if h.linkState r p v = 7 then h else h.bothEnds r p fun h n q => h.setLinkState n q v 6) h) h) h
  let h := k.planes.foldl (fun h x => h.bothEnds (rtr x.1) x.2.1 fun h n q => h.setLinkState n q x.2.2 6) h
  let h := h.onBoot fun b => { b with out := b.out ++ h.flash.service.filter fun u => !b.out.contains u }
  let h := h.boot.out.foldl (fun h u => h.fenceUnit u true) h
  allClusters.foldl (fun h l =>
    match ((clSlots l).filter h.isSpare).getLast? with
    | some m => if ((clSlots l).filter h.isSpare).length = 5 then h.setBlkState m.page 4 else h
    | none => h) h
/-- Stage CALIBRATE: calibration takes effect, stacks train but those that fail, failed lanes of links (R184, R330, R386, R387, R392). -/
def Hw.calibrate (h : Hw) (k : StageReport) : Hw :=
  let h := h.calApply fun _ => true
  let h := (List.finRange 96).foldl (fun h (i : Site) =>
    if h.inService (siteField i).val then h.setBlkState (sitePage i) (if k.sites.contains i || h.retired (unitOfPage (sitePage i)) then 5 else 2) else h) h
  k.lanes.foldl (fun h x => h.setOpLink x.1 { h.opLink x.1 with failed := (h.opLink x.1).failed ||| x.2.toNat }) h
/-- BLK_CTRL.ENABLE is implemented on a page (R413). -/
def enableAt (page : Nat) : Bool :=
  match blockAt page with
  | some (.mcore, _) | some (.vcore, _) | some (.score, _) | some (.clmem, _) | some (.router, _) | some (.msite, _) | some (.uengine, _) | some (.port, _) => true
  | _ => false
/-- BLK_CTRL words of the blocks that are not enabled. -/
def Hw.notEnabled (h : Hw) : List Nat := (h.rf.words.filter fun x => x.1 % 4096 = 0x008 && enableAt (x.1 - 0x008) && !wbit x.2 0).map (·.1)
/-- Every RWL field and its value: SEC_POLICY, PT_FUSE_LIMIT of every field, BLK_CTRL.ENABLE where it is 0 (R389, R398). -/
def Hw.rwlWords (h : Hw) : List (Nat × Word) :=
  (pgSecurity + Reg.security.secPolicy, h.reg (pgSecurity + Reg.security.secPolicy)) ::
    ((List.finRange 48).map fun f => (pgFieldPower f + Reg.fieldPower.ptFuseLimit, h.reg (pgFieldPower f + Reg.fieldPower.ptFuseLimit))) ++
    h.notEnabled.map fun k => (k, 0)
/-- Blocks not enabled at boot lock go out of service until the next power-on, as retired units are (R413). -/
def Hw.lockOut (h : Hw) : Hw :=
  let us := (h.notEnabled.map fun k => let u := unitOfPage (k - 0x008); if unitUnit u = 6 ∨ unitUnit u = 7 then unitWhole u else if unitEngine u = 7 then unitWhole u else u).eraseDups
  let h := us.foldl (fun h u => ({ h with boot := { h.boot with out := if h.boot.out.contains u then h.boot.out else h.boot.out ++ [u] } } : Hw).fenceUnit u true) h
  if h.degraded then h.setGlb 1 true else h
/-- The values that attestation measures at stage LOCK (R398). -/
def Hw.measure (h : Hw) : Hw :=
  let mes : List MeLoc := allClusters.flatMap fun l => (clSlots l).flatMap fun m => (List.finRange 4).map fun e => ⟨m, e⟩
  let rep := sha256 (Config.repairBytes (mes.map fun m => softAdd (h.fusedMap m) (h.softMap m)) h.flash.softLane h.flash.service)
  let locked := h.rwlWords
  let cfg := sha256 (Config.configBytes locked h.flash.calUser)
  h.onBoot fun b => { b with meas := Tab.set (Tab.set b.meas 2 rep) 3 cfg }
/-- What a stage that ends leaves (R386, R387, R389, R393, R397). -/
def State.stageWork (s : State) (n : Nat) (k : StageReport) : State :=
  match n with
  | 1 => if k.base then s else s.onHw fun h => h.bootStop 1
  | 2 =>
    if !k.base then s.onHw fun h => h.bootStop 2
    else (s.onHw fun h => h.flash.config.foldl (fun h x => h.setReg x.1 x.2) h).signResume.onHw fun h => h.sigLow
  | 3 =>
    let a := b2n s.hw.flash.bootSlot
    let run := fun (s : State) (slot : Nat) (fall : Bool) => s.onHw fun h =>
      let h := (h.setBit (pgSecurity + Reg.security.secBoot) 8 (decide (slot = 1))).onBoot fun b => { b with fwHead := (h.fwHead slot).take 48, fallback := fall }
      if fall then h.raise pgSecurity 9 else h
    if k.base && s.fwOk a then run s a false
    else if k.base && s.fwOk (1 - a) then run s (1 - a) true
    else s.onHw fun h =>
      (((h.bootFail 3).setBit (pgSecurity + Reg.security.secBoot) 9 true).showSec).setGlb 4 true
  | 4 => s.onHw fun h =>
    (List.finRange 48).foldl (fun h f =>
      if h.blkState (pgFieldPower f) ≠ 1 then h
      else
        let h := h.setBlkState (pgFieldPower f) 2
        let h := (fieldClusters f).foldl (fun h l => if h.clusterGait l = 4 && decide (h.gaitFld f 0 ≤ 3) then h.setClusterGait l 3 else h) h
        (h.onPw fun p => { p with gov := p.gov.filter (fun q => q.field ≠ f.val), wakes := p.wakes.filter fun w => w.1 / 6 ≠ f.val }).showEff f) h
  | 5 => s.onHw fun h => h.fabric k
  | 6 => s.onHw fun h => h.calibrate k
  | 7 =>
    let s : State := { s with mem := [] }
    s.onHw fun h =>
      let h := (List.finRange 96).foldl (fun h (i : Site) => if h.blkState (sitePage i) = 2 then h.setBlkState (sitePage i) 3 else h) h
      (List.finRange 48).foldl (fun h f =>
        if h.inService f.val then (if h.retired (unitOfPage (pgPort f)) then h.setBlkState (pgPort f) 2 else h) else h) h
  | 8 => s.onHw fun h =>
    if (List.finRange 48).all fun f => !h.inService f.val || h.blkState (pgFieldPower f) = 4 then h.bootStop 8
    else (h.measure.lockOut.onBoot fun b => { b with locked := true }).setBit (pgSecurity + Reg.security.secBoot) 10 true
  | _ => s
/-- The present stage ends with what failed in it, and the next begins; LOCK waits while HOLD_LOCK is set, and is not repeated once boot lock holds (R387 to R389). -/
def State.stageEnd (s : State) (k : StageReport) : State :=
  let h := s.hw
  let n := h.stage
  if !h.boot.on || h.boot.stopped || h.boot.waiting || decide (n = 0) || decide (n ≥ 10) || h.bit (pgSecurity + Reg.security.secBoot) 9 || (n = 8 && h.bit (pgSecurity + Reg.security.secCtrl) 0) then s
  else
    let s := s.stageWork n k
    if s.hw.boot.stopped || s.hw.blkState pgSecurity = 3 then s
    else
      let lost := k.fields.filter fun f => decide (4 ≤ n) && decide (n ≤ 6) && s.hw.inService f.val
      let s := lost.foldl (fun s f => (s.fieldOut f).onHw fun h => h.setBlkState (pgFieldPower f) 0) s
      let any := !lost.isEmpty || (n = 5 && (!k.planes.isEmpty || !k.routers.isEmpty)) || (n = 6 && (!k.sites.isEmpty || !k.lanes.isEmpty))
      s.onHw fun h =>
        let h := if any then h.bootFail n else h
        let h := if n = 7 && h.degraded then h.setGlb 1 true else h
        h.stageEnter (if n = 7 && h.boot.locked then 9 else n + 1)
/-- STAGE_DONE (R386). -/
def execStageDone (k : StageReport) (s : State) : Res := .next (s.stageEnd k)
/-- STAGE_BUDGET_EXPIRE: the units still at work, which k lists, are marked failed (R387). -/
def execStageBudgetExpire (k : StageReport) (s : State) : Res :=
  .next ((s.onHw fun h => if h.boot.on && !h.boot.waiting then h.atLeast (h.boot.stageAt + stageBudget h.stage) else h).stageEnd k)
/-- HOLD_LOCK_WRITE: SEC_CTRL.HOLD_LOCK; LOCK's budget runs from its clearing (R389). -/
def execHoldLockWrite (p : Path) (v : Word) (s : State) : Res :=
  .next (s.onHw fun h => h.pathWrite p pgSecurity Reg.security.secCtrl fun h =>
    let h := h.setRegN (pgSecurity + Reg.security.secCtrl) (v.toNat % 2)
    if h.stage = 8 then h.onBoot fun b => { b with stageAt := h.clk.now } else h)

end Sys2Proof.Machine
end

