-- ==== Sys2Proof/Machine/Security.lean ====
section
/-! DEFINITION. The security engine (R389, R394 to R401): attestation, minimum SVN, owner keys, debug, firmware and configuration writes. -/
namespace Sys2Proof.Machine

/-- The device address of SEC_BUF: pages 0x121 to 0x124 (R401). -/
def pgSecBuf : Nat := globalPage 0x121
/-- n bytes of SEC_BUF from a byte on. -/
def Hw.secBytes (h : Hw) (off n : Nat) : List Byte :=
  sliceD ((List.range ((off % 4 + n + 3) / 4)).flatMap fun i => leBytes 4 (h.regN (pgSecBuf + 4 * (off / 4 + i)))) (off % 4) n 0
/-- Write whole words of SEC_BUF from byte 0 on. -/
def Hw.secPut (h : Hw) (bytes : List Byte) : Hw :=
  (List.range (bytes.length / 4)).foldl (fun h i => h.setRegN (pgSecBuf + 4 * i) (leAt bytes (4 * i) 4)) h
/-- The security part changed. -/
def Hw.onSec (h : Hw) (f : SecState → SecState) : Hw := { h with sec := f h.sec }
/-- SEC_SERIAL as 8 bytes. -/
def Hw.serialBytes (h : Hw) : List Byte := leBytes 8 h.fac.serial
/-- The first 16 bytes of MODULE_ID (R419). -/
def Hw.moduleIdBytes (h : Hw) : List Byte := (List.range 4).flatMap fun i => leBytes 4 (h.regN (pgModule + Reg.module.moduleId0 + 4 * i))
/-- SEC_ARG. -/
def Hw.secArg (h : Hw) : Nat := h.regN (pgSecurity + Reg.security.secArg)
/-- SVN of the running firmware (R393). -/
def Hw.fwSvn (h : Hw) : Nat := leAt h.boot.fwHead 6 1
/-- Debug scopes unlocked: SEC_DEBUG[3:0]. -/
def Hw.scopes (h : Hw) : Nat := h.fld (pgSecurity + Reg.security.secDebug) 0 4
/-- A digest's number from its bytes, the most significant first. -/
def digestOf (b : List Byte) : BitVec 256 := BitVec.ofNat 256 (ofLeBytes b.reverse)
/-- A measurement: 0 FW, 1 FUSE, 2 REPAIR, 3 CONFIG (R398). -/
def State.measOf (s : State) (i : Nat) : BitVec 256 :=
  match i with
  | 0 => sha256 s.hw.boot.fwHead
  | 1 => sha256 (Config.fuseBytes s.fuses.svn s.fuses.owners s.fuses.revoked)
  | i => Tab.get s.hw.boot.meas i 0
/-- A command of a path gets past the tests before its own: it may command the page, the page is not fenced, no command runs, the state is legal, and a host finds the module READY, save for READ_CERT and for FW_WRITE in RECOVERY (R401, R415). -/
def Hw.secOpen (h : Hw) (p : Path) (legal : List Nat) (needReady : Bool) : Bool :=
  h.mayCommand p pgSecurity none && !h.fencedPage pgSecurity && h.sec.cmd.isNone && legal.contains (h.blkState pgSecurity) &&
  (!needReady || p.host.isNone || h.ready)
/-- A security command: one that passes its checks takes effect, reads BUSY, and ends with CMD_DONE (R401, R415). -/
def secRun (p : Path) (code : Nat) (legal : List Nat) (needReady : Bool) (body : State → CmdRes × State) (s : State) : State :=
  if s.hw.mayCommand p pgSecurity none && !s.hw.fencedPage pgSecurity && s.hw.sec.cmd.isSome then s.onHw fun h => h.cmdResult p pgSecurity code .busy
  else runCmd s p pgSecurity code (s.hw.mayCommand p pgSecurity none) legal fun s =>
    if needReady && p.host.isSome && !s.hw.ready then (.illegal, s)
    else match body s with
      | (.ok, t) => (.busy, t.onHw fun h => (h.onSec fun x => { x with cmd := some (code, p) }).showSec)
      | r => r
/-- CMD_DONE: the result replaces BUSY, event CMD_DONE, the block leaves BUSY (R401). -/
def execCmdDone (s : State) : Res :=
  .next (s.onHw fun h =>
    match h.sec.cmd with
    | some (code, p) => (((h.onSec fun x => { x with cmd := none }).cmdResult p pgSecurity code .ok).raise pgSecurity 12).showSec
    | none => h)

/-- The signed bytes 0x000 to 0x0FF of an attestation report (R398). -/
def State.report (s : State) (nonce : List Byte) (q : Nat) : List Byte :=
  let h := s.hw
  let flags := b2n (h.scopes ≠ 0) + b2n (h.bit (pgModule + Reg.module.glbStatus) 1) <<< 1 + b2n h.boot.fallback <<< 2 +
    b2n (h.bit (pgSecurity + Reg.security.secBoot) 8) <<< 3
  leBytes 4 0x54545441 ++ leBytes 2 1 ++ leBytes 2 flags ++ h.moduleIdBytes ++ h.serialBytes ++ nonce ++ leBytes 8 h.flash.bootCount ++ leBytes 4 q ++
    leBytes 1 h.fwSvn ++ leBytes 1 s.fuses.svn ++ leBytes 2 0 ++ ((List.range 4).flatMap fun i => digestBytes32 (s.measOf i)) ++ List.replicate 48 0
/-- Before the first signature of a tree is released, the record names it, and its bucket bit is burned; then the index moves on (R397). -/
def State.signStep (s : State) : State :=
  let x := s.hw.sec
  let b := x.tree / 4096
  let s : State := if x.started then s else
    { s with fuses := { s.fuses with buckets := if s.fuses.buckets.contains b then s.fuses.buckets else s.fuses.buckets ++ [b] },
             hw := { s.hw with flash := { s.hw.flash with sigTree := some x.tree } } }
  s.onHw fun h => h.onSec fun y => if x.leaf < 1023 then { y with leaf := x.leaf + 1, started := true } else { y with tree := x.tree + 1, leaf := 0, started := false }
/-- ATTEST (R396 to R398); ILLEGAL_IN_STATE while scope RINGMASTER is unlocked (R400). -/
def execAttest (p : Path) (s : State) : Res :=
  .next (secRun p 0x01 [1] true (fun s =>
    if bitOf s.hw.scopes 0 then (.illegal, s)
    else if s.hw.sigNext ≥ 2 ^ 30 then (.limit, s)
    else
      let q := s.hw.sigNext
      let rep := s.report (s.hw.secBytes 0 32) q
      (.ok, s.signStep.onHw fun h => (h.secPut (rep ++ sliceD (Config.hssSign q rep) 0 5396 0)).sigLow)) s)
/-- ADVANCE_SVN: the minimum rises to the running SVN (R394). -/
def execAdvanceSvn (p : Path) (s : State) : Res :=
  .next (secRun p 0x02 [1] true (fun s => (.ok, { s with fuses := { s.fuses with svn := max s.fuses.svn s.hw.fwSvn } })) s)
/-- SEC_BUF holds, from byte 32, a key that matches an unrevoked slot and that key's signature of a message (R395). -/
def State.ownerSigned (s : State) (msg : List Byte) : Bool :=
  let key := s.hw.secBytes 32 56
  (List.range 4).any (fun i => s.fuses.ownerOk i key) && lmsVerify key msg ((s.hw.secBytes 88 (16384 - 88)).take (lmsSigBytes key))
/-- OWNER_ENROLL: the hash goes into the lowest blank slot (R395). -/
def execOwnerEnroll (p : Path) (s : State) : Res :=
  .next (secRun p 0x03 [1] true (fun s =>
    let hash := s.hw.secBytes 0 32
    let held := (List.range 4).any fun i => (Tab.find s.fuses.owners i).isSome && !s.fuses.revoked.contains i
    match (List.range 4).find? fun i => (Tab.find s.fuses.owners i).isNone with
    | none => (.badArg, s)
    | some i =>
      if held && !s.ownerSigned (hash ++ s.hw.serialBytes) then (.badArg, s)
      else (.ok, { s with fuses := { s.fuses with owners := Tab.set s.fuses.owners i (digestOf hash) } })) s)
/-- OWNER_REVOKE: the slot's revocation bit (R395); the slot number is signed as 4 bytes (notes/assumptions/53.md). -/
def execOwnerRevoke (p : Path) (s : State) : Res :=
  .next (secRun p 0x04 [1] true (fun s =>
    let i := s.hw.secArg % 4
    if (Tab.find s.fuses.owners i).isNone || !s.ownerSigned (leBytes 4 i ++ s.hw.serialBytes) then (.badArg, s)
    else (.ok, { s with fuses := { s.fuses with revoked := if s.fuses.revoked.contains i then s.fuses.revoked else s.fuses.revoked ++ [i] } })) s)

/-- No challenge is valid any more. -/
def Hw.challengeEnd (h : Hw) : Hw := (h.onSec fun x => { x with challenge := none }).setBit (pgSecurity + Reg.security.secDebug) 4 false
/-- DEBUG_CHALLENGE: 32 random bytes (R400). -/
def execDebugChallenge (p : Path) (s : State) : Res :=
  .next (secRun p 0x05 [0, 1] true (fun s => (.ok, s.onHw fun h =>
    let (b, h) := (List.range 32).foldl (fun (x : List Byte × Hw) _ => let (v, h) := x.2.free 8; (x.1 ++ [BitVec.ofNat 8 v], h)) ([], h)
    ((h.secPut b).onSec fun x => { x with challenge := some (b, h.clk.now) }).setBit (pgSecurity + Reg.security.secDebug) 4 true)) s)
/-- CHALLENGE_EXPIRE: 60 s after the challenge (R400). -/
def execChallengeExpire (s : State) : Res :=
  .next (s.onHw fun h =>
    match h.sec.challenge with
    | some (_, t) => (h.atLeast (t + 60000000000)).challengeEnd
    | none => h)
/-- A debug response is good: its key is the class's, the class allows the scopes, and the signature verifies (R400). -/
def State.responseOk (s : State) : Bool :=
  let h := s.hw
  let scope := leAt (h.secBytes 0 4) 0 4
  let cls := leAt (h.secBytes 4 4) 0 4
  let key := h.secBytes 8 56
  match h.sec.challenge with
  | none => false
  | some (c, _) =>
    (if cls = 0 then sha256 key = h.fac.debugKey && decide (scope < 16)
     else decide (cls ≤ 4) && s.fuses.ownerOk (cls - 1) key && decide (scope &&& 6 = scope)) &&
    lmsVerify key (c ++ h.serialBytes ++ leBytes 4 scope ++ leBytes 8 h.flash.bootCount) ((h.secBytes 64 (16384 - 64)).take (lmsSigBytes key))
/-- DEBUG_RESPONSE: the scopes are unlocked, SCAN after every paddock is halted and every field at REST; a failure consumes the challenge (R400). -/
def execDebugResponse (p : Path) (s : State) : Res :=
  .next <|
    if s.hw.secOpen p [0, 1] true && !s.responseOk then s.onHw fun h => h.challengeEnd.cmdResult p pgSecurity 0x06 .badArg
    else secRun p 0x06 [0, 1] true (fun s =>
      let scope := leAt (s.hw.secBytes 0 4) 0 4
      let s := if bitOf scope 3 then s.allRest else s
      (.ok, s.onHw fun h => ((h.challengeEnd).setFld (pgSecurity + Reg.security.secDebug) 0 4 (h.scopes ||| scope)).raise pgSecurity 11)) s

/-- FW_WRITE: SEC_BUF bytes 0 to 8,191 to the chunk and slot of SEC_ARG (R401). -/
def execFwWrite (p : Path) (s : State) : Res :=
  .next (secRun p 0x07 [1, 3] (decide (s.hw.blkState pgSecurity ≠ 3)) (fun s => (.ok, s.onHw fun h =>
    { h with flash := { h.flash with fw := Tab.set h.flash.fw (2048 * bitsOf h.secArg 16 1 + bitsOf h.secArg 0 11) (h.secBytes 0 8192) } })) s)
/-- The fields of the configuration record with their present values (R389). -/
def Hw.recordWords (h : Hw) : List (Nat × Word) :=
  h.rwlWords ++ ([pgOptGlobal + Reg.optGlobal.opNodeId, pgOptGlobal + Reg.optGlobal.tbPrio, pgSecurity + Reg.security.secCtrl] ++
    (List.finRange 48).map fun f => pgPort f + Reg.port.opLinkEn).map fun k => (k, h.reg k)
/-- SAVE_CONFIG (R389). -/
def execSaveConfig (p : Path) (s : State) : Res :=
  .next (secRun p 0x08 [0, 1] true (fun s => (.ok, s.onHw fun h =>
    { h with flash := { h.flash with config := h.recordWords.foldl (fun t x => Tab.set t x.1 x.2) [] } })) s)
/-- READ_CERT: the device certificate, 2,972 bytes (R396). -/
def execReadCert (p : Path) (s : State) : Res :=
  .next (secRun p 0x09 [0, 1, 3] false (fun s => (.ok, s.onHw fun h =>
    h.secPut (leBytes 4 0x54524543 ++ h.serialBytes ++ h.moduleIdBytes ++ sliceD h.fac.cert 0 2944 0))) s)
/-- SET_BOOT_SLOT (R401). -/
def execSetBootSlot (p : Path) (s : State) : Res :=
  .next (secRun p 0x0A [1] true (fun s => (.ok, s.onHw fun h => { h with flash := { h.flash with bootSlot := bitOf h.secArg 0 } })) s)

end Sys2Proof.Machine
end

