-- ==== Sys2Proof/Machine/PlanTakeUp.lean ====
section
/-! DEFINITION. The take-up of a plan (R33 to R35, R145, R208, R209, R238, R253, R360, R399, R441). -/
namespace Sys2Proof.Machine

/-- n bytes of an object's highest resident copy, T0 or T1, from an offset on (R359). -/
def State.objRead (s : State) (o : Obj) (off n : Nat) : Option (List Byte) :=
  if off + n > o.size then none
  else if o.inT0 && o.state ≠ .promT0 then some (memBytes s.mem (o.t0Da + off) n)
  else if o.inT1 && o.state ≠ .promT1 then
    (if o.comp then (objT1Bytes s.mem o).map fun b => sliceD b off n 0 else some (memBytes s.mem (o.t1Da + off) n))
  else none
/-- The image of a slot's plan: of a PLAN object of the paddock, within SIZE; none is BAD_IMAGE_OBJECT (R360). -/
def State.planImage (s : State) (n : Paddock) : Option (List Byte) :=
  match Tab.find s.hw.hp.image n.val with
  | none => none
  | some (hd, off) =>
    match s.hw.obj hd with
    | none => none
    | some o =>
      if o.cls ≠ 5 || o.owner ≠ n.val then none
      else match s.objRead o off 0x40 with
        | none => none
        | some b => s.objRead o off (max 0x40 (leAt b 0x08 4))
/-- An entry of the segment table: LCLUSTER, OFFSET, LENGTH, CRC-32 (R33). -/
def planSeg (b : List Byte) (i : Nat) : Nat × Nat × Nat × Nat :=
  let k := leAt b 0x20 4 + 16 * i
  (leAt b k 2, leAt b (k + 4) 4, leAt b (k + 8) 4, leAt b (k + 12) 4)
/-- Zeros in place of the CRC-32 field at an offset. -/
def zeroCrc (b : List Byte) (off : Nat) : List Byte := b.take off ++ [0, 0, 0, 0] ++ b.drop (off + 4)
/-- HAS_SIG. -/
def planSigned (b : List Byte) : Bool := bitOf (leAt b 0x07 1) 0
/-- The header's CRC-32 and those of the segments that lie within the image match (R33, R34). -/
def planCrcOk (b : List Byte) : Bool :=
  let len := leAt b 0x08 4
  let body := b.take (if planSigned b then min len (leAt b 0x2C 4) else len)
  crc32 (zeroCrc body 0x38) = leAt b 0x38 4 &&
  (List.range (leAt b 0x1E 2)).all fun i =>
    let (_, off, n, c) := planSeg b i
    decide (leAt b 0x20 4 + 16 * i + 16 > len) || decide (off + n > len) || crc32 (sliceD b off n 0) = c
/-- A table of entries of a size, after COUNT and 4 reserved bytes, lies within the image. -/
def tableIn (b : List Byte) (off size : Nat) : Bool :=
  decide (off + 8 ≤ leAt b 0x08 4) && decide (off + 8 + size * leAt b off 4 ≤ leAt b 0x08 4)
/-- The layout tests of R34, code 13. -/
def planLayoutOk (b : List Byte) : Bool :=
  let len := leAt b 0x08 4
  let lc := leAt b 0x1C 2
  let segs := (List.range lc).map (planSeg b)
  leAt b 0x1E 2 = lc && decide (1 ≤ lc) && decide (lc ≤ 288) && decide (0x40 ≤ len) && decide (leAt b 0x20 4 + 16 * lc ≤ len) &&
  (List.range lc).all (fun c => segs.countP (fun g => g.1 = c) = 1) && segs.all (fun g => decide (g.2.1 + g.2.2.1 ≤ len)) &&
  tableIn b (leAt b 0x24 4) 32 && tableIn b (leAt b 0x28 4) 16 &&
  (List.range (leAt b (leAt b 0x28 4) 4)).all (fun i =>
    let k := leAt b 0x28 4 + 8 + 16 * i
    decide (leAt b (k + 4) 4 + 112 * leAt b (k + 8) 4 ≤ len)) &&
  decide (1 ≤ leAt b 0x16 2) && decide (2 * leAt b 0x10 4 ≤ leAt b 0x0C 4) &&
  leAt b 0x07 1 < 2 && leAt b 0x14 1 < 16 && leAt b 0x15 1 = 0 && leAt b 0x3C 4 = 0
/-- The owner's signature of a plan verifies (R399). -/
def State.planSigOk (s : State) (b : List Byte) : Bool :=
  let k := leAt b 0x2C 4
  let key := sliceD b (k + 4) 56 0
  decide (k + 60 ≤ leAt b 0x08 4) && decide (leAt b k 4 < 4) && s.fuses.ownerOk (leAt b k 4) key && lmsVerify key (b.take k) ((b.take (leAt b 0x08 4)).drop (k + 60))

/-- A cluster may host a logical cluster of a paddock: in service, its parts but M-cores neither fenced nor retired. -/
def Hw.clusterFit (h : Hw) (n : Paddock) (l : ClLoc) : Bool :=
  h.inService l.f.val && h.paddockOfField l.f = some n && h.blkState (RtrLoc.cluster l).page ≠ 3 &&
  [0, 6, 7, 8].all fun u => !h.retired (unitKey l.f.val l.c.val u 0) && !h.fencedPage (pageBase l.f.val l.c.val u 0)
/-- The map of a plan of lc logical clusters: clusters with four good slots in increasing order first; a logical M-core without a slot in its cluster takes the nearest spare of the ring where FR_CFG allows it; none is NO_FIT (R18, R34, R35, R308, notes/assumptions/57.md). -/
def Hw.mapPlan (h : Hw) (n : Paddock) (lc : Nat) : Option Hw :=
  let h := (h.hosts n).foldl (fun h l => (List.range 5).foldl (fun h i => h.setRegN (l.page + Reg.score.l2pCluster + 4 * i) 0) h) h
  let fit := allClusters.filter (h.clusterFit n)
  let good := fun (l : ClLoc) => (clSlots l).filter h.isSpare
  let order := fit.filter (fun l => decide ((good l).length ≥ 4)) ++ fit.filter (fun l => decide ((good l).length < 4))
  let chosen := order.take lc
  if chosen.length < lc then none
  else
    let own := chosen.map fun l => (l, (good l).take 4)
    let h := (List.range lc).foldl (fun h i =>
      match own[i]? with
      | some (l, ms) =>
        let h := h.setRegN (l.page + Reg.score.l2pCluster) (i + n.val <<< 12 + 1 <<< 31)
        (List.range 4).foldl (fun h m => match ms[m]? with
          | some x => (h.setRegN (l.page + Reg.score.l2pMcore0 + 4 * m) (l2pWord x)).setBlkState x.page 0
          | none => h) h
      | none => h) h
    let r := own.foldl (fun (r : Option Hw) p => (List.range 4).foldl (fun (r : Option Hw) m =>
      match r with
      | none => none
      | some h =>
        if (h.mcoreSlot p.1 m).isSome then some h
        else if !h.bit (pgFarrier + Reg.farrier.frCfg) 1 then none
        else match nearest p.1 (allClusters.filter fun x => h.paddockOfField x.f = some n && ringOf x.f = ringOf p.1.f && (clSlots x).any h.isSpare) with
          | some x => (match (clSlots x).find? h.isSpare with
            | some y => some ((h.setRegN (p.1.page + Reg.score.l2pMcore0 + 4 * m) (l2pWord y)).setBlkState y.page 0)
            | none => none)
          | none => none) r) (some h)
    r.map fun h =>
      let h := chosen.foldl (fun h l => ((clSlots l).filter h.isSpare).foldl (fun h m => h.setBlkState m.page 4) h) h
      h.epochNext n

/-- The checks of R34 in table order: the code of the first that fails, or the state with the plan's map. -/
def State.planCheck (s : State) (n : Paddock) (b : List Byte) : Nat ⊕ Hw :=
  let h := s.hw
  if leAt b 0x00 4 ≠ 0x4C505747 || leAt b 0x04 2 ≠ 1 then .inl 1
  else if leAt b 0x06 1 ≠ h.fld (pgModule + Reg.module.moduleId0) 0 8 then .inl 2
  else if !planCrcOk b then .inl 3
  else if !planLayoutOk b then .inl 13
  else if leAt b 0x0C 4 ≠ h.period then .inl 4
  else if (h.paddockRings n).isEmpty || leAt b 0x14 1 ≠ ((h.paddockRings n).map fun r => 1 <<< r.val).sum then .inl 5
  else match h.mapPlan n (leAt b 0x1C 2) with
    | none => .inl 6
    | some h' =>
      if h.bit (pgSecurity + Reg.security.secPolicy) 0 && !planSigned b then .inl 7
      else if planSigned b && !s.planSigOk b then .inl 8
      else .inr h'

/-- Bytes of an entry of the object table (R208). -/
def objEntry (b : List Byte) (i : Nat) : List Byte := sliceD b (leAt b 0x24 4 + 8 + 32 * i) 32 0
/-- Where an entry's T0 location lies: field services of the home field, or a unit of a logical cluster (R208, R209). -/
def Hw.entryT0 (h : Hw) (n : Paddock) (e : List Byte) : Option Nat :=
  if leAt e 24 2 = 0xFFFF then some (t0Addr (h.homeOf (leAt e 0 6)).val 6 0 (leAt e 28 4))
  else h.bindT0 n (leAt e 24 2) (leAt e 26 1) (leAt e 28 4)
/-- The argument record of an entry's PLACE or PROMOTE. What the table does not give, the T2 node of a T2 object and the sector budget of a compressed one, is free (notes/assumptions/58.md). -/
def Hw.entryRecord (h : Hw) (e : List Byte) (loc : Nat) : Nat × Hw :=
  let (node, h) := if leAt e 7 1 = 2 then h.free 16 else (0, h)
  let (budget, h) := if bitOf (leAt e 21 1) 0 then h.free 64 else (0, h)
  (leAt e 0 6 + leAt e 7 1 <<< 48 + (leAt e 21 1 % 2) <<< 57 + leAt e 6 1 <<< (8 * 0x1D) + leAt e 20 1 <<< (8 * 0x1E) + leAt e 22 1 <<< (8 * 0x1F) +
    leAt e 8 8 <<< (8 * 0x20) + leAt e 16 4 <<< (8 * 0x28) + node <<< (8 * 0x2C) + loc <<< (8 * 0x30) + budget <<< (8 * 0x38), h)
/-- An entry whose command has ended: it is pinned for the plan, or the take-up fails (R204, R208). -/
def State.entryEnd (s : State) (n : Paddock) (e : List Byte) (i st : Nat) (placed : Bool) : State :=
  let hd := leAt e 0 6
  let p := s.hw.pad n
  let s := if placed && st = 0 then s.onHw fun h => h.setPad n { p with placed := p.placed ++ [hd] } else s
  let p := s.hw.pad n
  let next := { p with loadAt := i + 1, loadCmd := none, loadSt := none }
  if st ≠ 0 then s.onHw fun h => h.takeUpEnd n 10 st i
  else match s.hw.obj hd with
    | none => s.onHw fun h => h.takeUpEnd n 10 2 i
    | some o =>
      if p.pinned.tail.contains hd then s.onHw fun h => h.setPad n next
      else if o.pins ≥ 255 then s.onHw fun h => h.takeUpEnd n 10 5 i
      else s.onHw fun h => (h.setObj hd { o with pins := o.pins + 1 }).setPad n { next with pinned := p.pinned ++ [hd] }
/-- The Ringmaster carries out an entry: an object the paddock owns is promoted to TIER, any other entry is placed (R208). It waits while the home's queue is full. -/
def State.entryBegin (s : State) (n : Paddock) (e : List Byte) (i : Nat) : State :=
  let hd := leAt e 0 6
  let tier := leAt e 7 1
  let owned := match s.hw.obj hd with | some o => o.owner = n.val | none => false
  let loc := if tier = 0 then s.hw.entryT0 n e else some 0
  if decide (leAt e 21 1 > 1) || decide (leAt e 23 1 ≠ 0) || decide (leAt e 27 1 ≠ 0) || decide (tier > 2) then s.entryEnd n e i 6 false
  else if owned && tier = 2 then s.entryEnd n e i 0 false
  else match loc with
    | none => s.entryEnd n e i 6 false
    | some loc =>
      if (s.hw.plQueue (s.hw.homeOf hd)).length ≥ 64 then s
      else
        let (r, h) := s.hw.entryRecord e loc
        let h := h.setPad n { h.pad n with loadCmd := some (h.plNext, !owned), loadSt := none }
        (({ s with hw := h } : State).plIssue (if owned then 2 else 1) r n).2

/-- An arrival range of the sweep image is well formed (R246, R253). -/
def arrRangeOk (f : Nat) (a : List Byte) : Bool :=
  let da := leAt a 0 8
  let len := leAt a 8 4
  daRegion da = 1 && decide (da < 2 ^ 56) && bitsOf da 47 1 = 0 && bitsOf da 36 4 = 0 && siteOf da / 2 = f && decide (siteOf da < 96) && da % 64 = 0 && len % 64 = 0 &&
  decide (da % 2 ^ 36 + len ≤ 2 ^ 36) && decide (leAt a 12 1 ≤ 2) && leAt a 13 1 = 0 && leAt a 20 4 = 0 && leAt a 24 8 = 0
/-- A sweep entry is well formed (R253). -/
def Hw.sweepEntryOk (h : Hw) (e : List Byte) (kinds : List Nat) (code : Nat) : Bool :=
  (match h.obj (leAt e 0 6) with | some o => o.cls = 3 | none => false) && decide (leAt e 6 1 ≤ 3) && decide (leAt e 7 1 ≤ 63) &&
  (if leAt e 6 1 = 3 then leAt e 8 4 = leAt e 12 2 * leAt e 14 2 else leAt e 12 2 = 0 && leAt e 14 2 = 0 && leAt e 40 8 = 0) &&
  nfwOk (leAt e 16 4) && decide (leAt e 20 1 ≤ 1) && decide (leAt e 21 1 ≤ 3) && kinds[leAt e 22 2]? = some 0 && kinds[leAt e 24 2]? = some 1 &&
  leAt e 26 2 = 0 && decide (leAt e 28 4 < code) && leAt e 48 8 = 0 && leAt e 56 8 = 0
/-- A field's part of the sweep image, checked; none where it fails (R253). -/
def Hw.sweepField (h : Hw) (b : List Byte) (len f : Nat) : Option UcState :=
  let d := 0x40 + 32 * f
  let co := leAt b d 4
  let cb := leAt b (d + 4) 4
  let eo := leAt b (d + 8) 4
  let ec := leAt b (d + 12) 2
  let ac := leAt b (d + 14) 2
  let ao := leAt b (d + 16) 4
  if decide (cb > 256 * 1024) || decide (ec > 4096) || decide (ac > 4096) || leAt b (d + 20) 4 ≠ 0 || leAt b (d + 24) 8 ≠ 0 ||
     (cb ≠ 0 && decide (co + cb > len)) || (ec ≠ 0 && decide (eo + 64 * ec > len)) || (ac ≠ 0 && decide (ao + 32 * ac > len)) then none
  else
    let as := (List.range ac).map fun i => sliceD b (ao + 32 * i) 32 0
    let es := (List.range ec).map fun i => sliceD b (eo + 64 * i) 64 0
    let kinds := as.map fun a => leAt a 12 1
    let apart := (List.range ac).all fun i => (List.range i).all fun j =>
      let x := as.getD i []
      let y := as.getD j []
      decide (leAt x 0 8 + leAt x 8 4 ≤ leAt y 0 8) || decide (leAt y 0 8 + leAt y 8 4 ≤ leAt x 0 8)
    if as.all (arrRangeOk f) && apart && es.all fun e => h.sweepEntryOk e kinds cb then
      some { UcState.empty with
        entries := es.map fun e => leAt e 0 64
        ranges := as.map fun a => { da := leAt a 0 8, len := leAt a 8 4, kind := leAt a 12 1, fwd := leAt a 14 2, token := leAt a 16 4, count := 0, arrived := false }
        code := sliceD b co cb 0
        window := leAt b 0x08 4 }
    else none
/-- The sweep image of an object, checked: each field's part (R253). -/
def State.sweepImage (s : State) (o : Obj) : Option (List (Nat × UcState)) :=
  match s.objRead o 0 0x40 with
  | none => none
  | some hd =>
    let len := leAt hd 0x0C 4
    if decide (len < 0x640) then none
    else match s.objRead o 0 len with
      | none => none
      | some b =>
        let w := leAt b 0x08 4
        if leAt b 0 4 ≠ 0x50455753 || leAt b 4 2 ≠ 1 || leAt b 6 2 ≠ 0 || decide (w < 1) || decide (w > 65535) || crc32 (zeroCrc b 0x10) ≠ leAt b 0x10 4 ||
           leAt b 0x14 44 ≠ 0 then none
        else (List.range 48).foldr (fun f r => match r, s.hw.sweepField b len f with
          | some l, some u => some ((f, u) :: l)
          | _, _ => none) (some [])

/-- An entry of an item table or slack list (R33). -/
def itemAt (b : List Byte) (k : Nat) : ItemEntry :=
  { rel := leAt b k 4, leid := leAt b (k + 4) 2, kind := leAt b (k + 6) 1, flags := leAt b (k + 7) 1, tokIn := leAt b (k + 8) 1, tokCount := leAt b (k + 10) 2, code := leAt b (k + 12) 4 }
/-- A segment is loaded into the S-core of its logical cluster (R33). -/
def Hw.loadSegment (h : Hw) (n : Paddock) (b : List Byte) (i : Nat) : Hw :=
  let (lc, off, len, _) := planSeg b i
  match h.hostOf n lc with
  | none => h
  | some l =>
    let g := sliceD b off len 0
    let list := fun (p : Nat × Nat) => (List.range p.2).map fun j => itemAt g (p.1 + 16 * j)
    let tok := (List.range 256).foldl (fun (t : Tab Nat) j =>
      let v := leAt g (Config.segTokens g + 2 * j) 2
      if v = 0 then t else Tab.set t j v) []
    let h := h.setSq l { ScoreState.empty with x := (h.sqAt l).x, items := list (Config.segItems g), slack := list (Config.segSlack g), tok := tok }
    h.setRegN (l.page + Reg.score.slackNs) (leAt b 0x10 4)
/-- The channel that an entry of the mover table names: of a site of a ring, or of the port of one of its fields (R186, R238). -/
def moverAt (e : List Byte) : Option MvLoc :=
  let site := leAt e 1 1
  let ch := leAt e 2 1
  if hr : leAt e 0 1 < 4 then
    let r : Ring := ⟨leAt e 0 1, hr⟩
    if site < 24 then
      (if hc : ch < 14 then
        let f := (ringFields r).getD (site / 2) 0
        some (.site ⟨(f.val * 2 + site % 2) % 96, Nat.mod_lt _ (by decide)⟩ ⟨ch, by omega⟩) else none)
    else if 0x80 ≤ site ∧ site < 0x8C then
      (if hc : ch < 8 then some (.port ((ringFields r).getD (site - 0x80) 0) ⟨ch, hc⟩) else none)
    else none
  else none
/-- A plan mover list is loaded into its channel, which works for the plan's paddock (R221, R238). -/
def Hw.loadList (h : Hw) (n : Paddock) (b : List Byte) (i : Nat) : Hw :=
  let e := sliceD b (leAt b 0x28 4 + 8 + 16 * i) 16 0
  match moverAt e with
  | none => h
  | some m =>
    if h.paddockOfField m.field ≠ some n then h
    else
      let off := leAt e 4 4
      let k := leAt e 8 4
      let h := h.setMv m { h.mvAt m with list := (List.range k).map fun j => leAt b (off + 112 * j) 112, listNext := 0, listGo := false }
      (h.setRegN (m.page + Reg.mover.mvrList) ((k % 2 ^ 16) <<< 16)).setFld (m.page + Reg.mover.mvrCtrl) 4 2 n.val
/-- The watch range and slot of an object of the plan, loaded where its format word asks for them (R137, R145, R441). -/
def Hw.watchObject (h : Hw) (hd tier : Nat) : Hw :=
  match h.obj hd with
  | none => h
  | some o =>
    let da := if tier = 0 then o.t0Da else o.t1Da
    let has := if tier = 0 then o.inT0 else tier = 1 && o.inT1
    match physAddr da with
    | none => h
    | some q =>
      if !bitOf o.nfw 8 || !has then h
      else
        let r := if daRegion da = 0 then (⟨bitsOf da 41 2 % 4, Nat.mod_lt _ (by decide)⟩ : Ring) else ringOf (fieldOf (fieldOfPhys q))
        let w := h.nwAt r
        let slot := bitsOf o.nfw 12 12
        match (List.range (w.ranges.length + 1)).find? fun i => match Tab.find w.ranges i with | some x => !x.valid | none => true with
        | none => h
        | some i =>
          if i ≥ 8192 then h
          else h.setNw r { w with ranges := Tab.set w.ranges i ⟨da, (o.size + 63) / 64, BitVec.ofNat 32 (slot + (o.nfw % 16) <<< 12 + 1 <<< 31)⟩
                                  slots := Tab.set w.slots slot (BitVec.ofNat 32 (1 + bitsOf o.nfw 9 1 <<< 1)) }

/-- Once the object table is carried out: the sweep image is checked, code, entries, segments, lists, watch ranges and registers are loaded, the slot is RUNNING, and the boundary of the take-up begins the first step (R39, R253, R271, R360). -/
def State.takeFinish (s : State) (n : Paddock) (b : List Byte) : State :=
  let cnt := leAt b (leAt b 0x24 4) 4
  let cls := fun (i : Nat) => match s.hw.obj (leAt (objEntry b i) 0 6) with | some o => o.cls | none => 0
  let k := (List.range cnt).find? fun i => cls i = 5
  let img := match k with
    | some i => (match s.hw.obj (leAt (objEntry b i) 0 6) with | some o => s.sweepImage o | none => none)
    | none => some []
  match img with
  | none => s.onHw fun h => h.takeUpEnd n 10 6 (k.getD 0)
  | some fs => s.onHw fun h =>
    let h := h.watchClear n
    let h := (List.range cnt).foldl (fun h i => h.watchObject (leAt (objEntry b i) 0 6) (leAt (objEntry b i) 7 1)) h
    let h := (h.paddockFields n).foldl (fun h f =>
      let u : UcState := { (Tab.get fs f.val UcState.empty) with records := (h.ucAt f).records, nrStep := (h.ucAt f).nrStep }
      let h := h.setUc f u
      let pg := pgUpdate f
      let h := ((h.setBit (pg + Reg.ucomplex.ucStatus) 1 false).setBit (pg + Reg.ucomplex.ucStatus) 2 false).setRegN (pg + Reg.ucomplex.ucFirstNf) 0
      if h.blkState pg = 4 then h else h.setBlkState pg (if u.entries.isEmpty && u.ranges.isEmpty then 0 else 1)) h
    let h := (List.range (leAt b 0x1C 2)).foldl (fun h i => h.loadSegment n b i) h
    let h := (List.range (leAt b (leAt b 0x28 4) 4)).foldl (fun h i => h.loadList n b i) h
    let p := h.pad n
    let h := h.setPad n { PadState.empty with
      stepGap := leAt b 0x16 2, stepStrides := leAt b 0x18 4, seed := h.reg64 (pgHostGlobal + Reg.hostGlobal.paddock0SeedLo + 8 * n.val), pinned := p.pinned }
    let h := (h.setReg64 (psReg n Reg.hostGlobal.ps0PlanIdLo) (leAt b 0x30 8)).setSlotResult n 3 0 0 0
    let st := pgFarrier + Reg.farrier.frStatus
    let h := (h.setBit st 1 false).setBit st (8 + n.val) false
    let h := if h.blkState pgFarrier = 2 then h.frIdle else h
    h.commitTakeUp n
/-- The object table, entry after entry, until one has to wait (R208). -/
def State.takeRun (s : State) (n : Paddock) (b : List Byte) : Nat → State
  | 0 => s
  | fuel + 1 =>
    if s.hw.slotState n ≠ 2 then s
    else
      let p := s.hw.pad n
      let i := p.loadAt
      if i ≥ leAt b (leAt b 0x24 4) 4 then s.takeFinish n b
      else match p.loadCmd, p.loadSt with
        | none, _ =>
          let t := s.entryBegin n (objEntry b i) i
          if t.hw.slotState n = 2 && (t.hw.pad n).loadAt = i && (t.hw.pad n).loadCmd.isNone then t else State.takeRun t n b fuel
        | some _, none => s
        | some (_, placed), some st => State.takeRun (s.entryEnd n (objEntry b i) i st placed) n b fuel
/-- PLAN_TAKE_UP: at the tick after SUBMIT a PENDING plan is checked and LOADING begins; while LOADING it goes on as placement commands of its object table end (R360). -/
def execPlanTakeUp (n : Paddock) (s : State) : Res :=
  .next <|
    let st := s.hw.slotState n
    let fail := fun (r : Nat) => s.onHw fun h => h.takeUpEnd n r 0 0
    if st = 1 && decide (s.hw.stride ≠ (s.hw.pad n).pendAt) then
      match s.planImage n with
      | none => fail 11
      | some b =>
        match s.planCheck n b with
        | .inl r => fail r
        | .inr h =>
          let h := (h.setSlot n 2).setPad n { h.pad n with loadAt := 0, loadCmd := none, loadSt := none }
          ({ s with hw := h } : State).takeRun n b (2 * leAt b (leAt b 0x24 4) 4 + 2)
    else if st = 2 then
      match s.planImage n with
      | none => fail 11
      | some b => s.takeRun n b (2 * leAt b (leAt b 0x24 4) 4 + 2)
    else s

end Sys2Proof.Machine
end

