-- ==== Sys2Proof/Machine/Views.lean ====
section
/-! DEFINITION. What a register word reads as (R9, R12): the word stored, or the value that a page computes from the rest of the state. -/
namespace Sys2Proof

open Machine

/-- The cluster a page lies in. -/
def pageCl (k : Nat) : ClLoc := clOf (daField k) (daCluster k)
/-- The M-core slot a page lies in. -/
def pageMc (k : Nat) : McLoc := ⟨pageCl k, ⟨(daUnit k - 1) % 5, Nat.mod_lt _ (by decide)⟩⟩
/-- The ME a page is of. -/
def pageMe (k : Nat) : MeLoc := ⟨pageMc k, ⟨(daPage k - 1) % 4, Nat.mod_lt _ (by decide)⟩⟩
/-- The V-core a page lies in. -/
def pageVc (k : Nat) : VcLoc := ⟨pageCl k, ⟨daUnit k % 2, Nat.mod_lt _ (by decide)⟩⟩
/-- The VE a page is of. -/
def pageVe (k : Nat) : VeLoc :=
  if daCluster k = 6 then .update (fieldOf (daField k)) ⟨(daPage k - 1) % 4, Nat.mod_lt _ (by decide)⟩
  else if daUnit k ≤ 5 then .epilogue (pageMc k)
  else .vcore (pageVc k) ⟨(daPage k - 1) % 4, Nat.mod_lt _ (by decide)⟩
/-- The router or hub a page is of. -/
def pageRtr (k : Nat) : RtrLoc := if daCluster k < 6 then .cluster (pageCl k) else .hub (fieldOf (daField k))
/-- The memory site a page lies in. -/
def pageSite (k : Nat) : Site := ⟨(2 * daField k + (daUnit k - 1)) % 96, Nat.mod_lt _ (by decide)⟩
/-- The mover channel a page is of. -/
def pageMv (k : Nat) : MvLoc :=
  if daCluster k < 6 then .cluster (pageCl k) ⟨daPage k % 4, Nat.mod_lt _ (by decide)⟩
  else if daUnit k ≤ 2 then .site (pageSite k) ⟨(daPage k - 1) % 16, Nat.mod_lt _ (by decide)⟩
  else if daUnit k = 3 then .port (fieldOf (daField k)) ⟨daPage k % 8, Nat.mod_lt _ (by decide)⟩
  else .host (if daField k = 19 then 0 else 1) ⟨daPage k % 8, Nat.mod_lt _ (by decide)⟩
/-- The cluster memory or field services SRAM a page is of. -/
def pageCm (k : Nat) : CmLoc := if daCluster k < 6 then .cluster (pageCl k) else .services (fieldOf (daField k))

namespace Machine

/-- Paddock, or ring, of a number. -/
def padOf (n : Nat) : Paddock := ⟨n % 4, Nat.mod_lt _ (by decide)⟩

/-- The repair registers of an ME: fused map, soft map, both together (R47, R66). -/
def Hw.meView (h : Hw) (page off : Nat) : Option Nat :=
  let l := pageMe page
  if off = Reg.me.meRepairFused then some (h.fusedMap l)
  else if off = Reg.me.meRepairSoft then some (h.softMap l)
  else if off = Reg.me.meRepairEff then some (softAdd (h.fusedMap l) (h.softMap l))
  else none
/-- Entries of each transcendental table (R116). -/
def ttEntries (fn : Nat) : Nat := if fn < 4 then 128 else if fn = 4 then 256 else 0
/-- TT_DATA0 to TT_DATA2: the selected coefficients, 0 beyond the table (R118). -/
def Hw.veView (h : Hw) (page off : Nat) : Option Nat :=
  if Reg.ve.ttData0 ≤ off ∧ off ≤ Reg.ve.ttData2 then
    let sel := h.regN (page + Reg.ve.ttSelect)
    let fn := bitsOf sel 0 3
    let i := bitsOf sel 8 8
    some (if i < ttEntries fn then (Config.ttCoeff fn i ((off - Reg.ve.ttData0) / 4)).toNat else 0)
  else none
/-- NW_WRITTEN to NW_INF: live counts of the slot last selected; 0 beyond slot 4,095 (R149). -/
def Hw.watchView (h : Hw) (r : Ring) (off : Nat) : Option Nat :=
  if Reg.watch.nwWrittenLo ≤ off ∧ off ≤ Reg.watch.nwInfHi then
    let w := h.nwAt r
    let c := Tab.get w.counts w.selSlot NwCounts.none
    let v := match (off - Reg.watch.nwWrittenLo) / 8 with
      | 0 => c.written | 1 => c.zero | 2 => c.sat | 3 => c.under | 4 => c.nan | _ => c.inf
    some (if w.selSlot < 4096 then nwCounterReg v >>> (32 * (off / 4 % 2)) else 0)
  else none
/-- The registers of a router that its selectors choose: counters, lane map and test of a plane, a table entry (R165, R171, R180, R183); RTR_TICK_COMP is measured (notes/assumptions/56.md). -/
def Hw.rtrView (h : Hw) (page off : Nat) : Option Nat :=
  let r := pageRtr page
  let (port, v) := h.selPort r
  let l := h.link r port v
  let t := h.regN (page + Reg.router.rtrTblSel)
  let i := bitsOf t 2 10
  if off = Reg.router.rtrCrcErr then some l.crcErr
  else if off = Reg.router.rtrReplay then some l.replays
  else if off = Reg.router.rtrLaneMap then
    let g := h.fld (page + Reg.router.rtrLaneSel) 0 7
    let fused := fusedLane r port v g
    let soft := Tab.get l.soft g 31
    some ((if fused ≠ 31 then fused else soft) + fused <<< 8 + soft <<< 16 + b2n (l.failing.any fun x => x.1 = g) <<< 24)
  else if off = Reg.router.rtrLaneTest then some (bitsOf l.test 0 15)
  else if Reg.router.rtrTblData0 ≤ off ∧ off ≤ Reg.router.rtrTblData2 then
    let x := h.rtrAt r
    let entry := fun (t : Tab Nat) => match Tab.find t i with | some p => p + 8 | none => 0
    let first := off = Reg.router.rtrTblData0
    match bitsOf t 0 2 with
    | 0 => some (if first then entry x.override else 0)
    | 1 => some (if first then entry x.escape else 0)
    | 2 =>
      let d := x.slot i
      some (if first then d.1 else if off = Reg.router.rtrTblData1 then d.2.1 else d.2.2).toNat
    | _ => some 0
  else if off = Reg.router.rtrTickComp then some (Config.sensed r.idx 0 2).toNat
  else none
/-- Reads in flight at a memory site (R217). -/
def Hw.readsOut (h : Hw) (i : Nat) : Nat :=
  (h.mv.map fun m => (m.2.active.map fun x => x.reads.countP fun r => !r.alt && (match physAddr r.src with | some q => daRegion q = 1 && siteOf q = i | none => false)).getD 0).sum
/-- The queue registers of a placement controller (R218). -/
def Hw.placeView (h : Hw) (f : Field) (off : Nat) : Option Nat :=
  if off = Reg.placement.pcQueue then some ((h.plQueue f).length + h.transits f <<< 8)
  else if off = Reg.placement.pcObjects then some (h.objs.countP fun o => h.homeOf o.1 = f)
  else if off = Reg.placement.pcDeferred then some (h.objs.countP fun o => h.homeOf o.1 = f && o.2.deferred.isSome)
  else none
/-- The registers that show a channel's ACTIVE: descriptor, place in the source, destination bytes written, rows and units to do (R239). -/
def Hw.mvView (h : Hw) (m : MvLoc) (off : Nat) : Option Nat :=
  if Reg.mover.mvrActive0 ≤ off ∧ off < Reg.mover.mvrActive0 + 96 then
    some (((h.mvAt m).active.map fun x => bitsOf x.desc (8 * (off - Reg.mover.mvrActive0)) 32).getD 0)
  else if Reg.mover.mvrActSrcLo ≤ off ∧ off ≤ Reg.mover.mvrActUnit then
    match (h.mvAt m).active with
    | none => some 0
    | some x =>
      let d := x.desc
      let len := max 1 (dLen d)
      let src := rowAddr (dSrc d + x.slotAdd) (dSrcStride d) len x.pos
      let dst := if dFormat d = 0 then rowAddr (dDst d) (dDstStride d) len x.written else dDst d + x.written
      if off = Reg.mover.mvrActSrcLo then some src
      else if off = Reg.mover.mvrActSrcHi then some (src >>> 32)
      else if off = Reg.mover.mvrActDstLo then some dst
      else if off = Reg.mover.mvrActDstHi then some (dst >>> 32)
      else if off = Reg.mover.mvrActRemain then some (if x.pos ≥ len * dRows d then 0 else len - x.pos % len)
      else if off = Reg.mover.mvrActRows then some (dRows d - x.pos / len)
      else if off = Reg.mover.mvrActUnit then some (x.units % 2 ^ 18 + (if dFormat d = 5 then x.phase else 0) <<< 18)
      else none
  else none
/-- The table registers of an update complex (R269). -/
def Hw.ucView (h : Hw) (f : Field) (off : Nat) : Option Nat :=
  let u := h.ucAt f
  let c := match u.ranges[h.fld (pgUpdate f + Reg.ucomplex.ucArrSel) 0 12]? with | some x => x.count | none => 0
  if off = Reg.ucomplex.ucTables then some (u.entries.length + u.ranges.length <<< 16)
  else if off = Reg.ucomplex.ucArrCountLo then some c
  else if off = Reg.ucomplex.ucArrCountHi then some (c >>> 32)
  else none
/-- The registers of the group in CAL_SEL: its staging, and its products and η (R270). -/
def Hw.calGroupView (h : Hw) (n : Paddock) (off : Nat) : Option Nat :=
  let g := h.calGroup n (h.calSel n)
  let hi := 32 * (off / 4 % 2)
  if Reg.calliope.calGCfg ≤ off ∧ off < Reg.calliope.calGProd1Lo then some (calWord g.stag off)
  else if Reg.calliope.calGProd1Lo ≤ off ∧ off < Reg.calliope.calGEtaLo + 8 then
    some ((if off < Reg.calliope.calGProd1Lo + 8 then g.p1 else if off < Reg.calliope.calGEtaLo then g.p2 else g.eta) >>> hi)
  else none
/-- State of the unit in FR_SEL: ABSENT, OFF, RETIRED, TESTING, FENCED, SPARE or IN_SERVICE; reports in the window; persistent classifications (R319). -/
def Hw.unitView (h : Hw) : Nat :=
  let k := h.frSel
  let f := unitField k
  let recent := (Tab.get h.fr.reports k []).countP fun t => decide (h.stride < t + h.fld (pgFarrier + Reg.farrier.frCfg) 16 16)
  let st :=
    if !unitOk k || (unitCluster k = 6 && unitUnit k = 4 && f ≠ 19 && f ≠ 28) then 6
    else if h.unpowered f then 5
    else if h.retired k then 4
    else if (match h.fr.test with | some (pg, _) => unitIsMc k && (pg = (unitMe k).page) | none => false) then 3
    else if (if unitCluster k = 7 then h.bit (pageBase f 6 15 0 + Reg.router.rtrFenceMask) 16 else (unitPages k).any fun x => h.fencedPage x.1) then 1
    else if unitIsMc k && h.isSpare (unitMc k) then 2
    else 0
  st + min recent 255 <<< 8 + Tab.get h.fr.persistent k 0 <<< 16
/-- The registers of a port that OP_SEL chooses; sensor readings are open (R321, R330, R347, notes/assumptions/56.md). -/
def Hw.portView (h : Hw) (f : Field) (off : Nat) : Option Nat :=
  let link := h.fld (pgPort f + Reg.port.opSel) 0 3
  let lane := h.fld (pgPort f + Reg.port.opSel) 3 3
  let k : LinkLoc := ⟨f, ⟨link % 8, Nat.mod_lt _ (by decide)⟩⟩
  let l := h.opLink k
  if off = Reg.port.opLinkState then some (l.state + b2n l.half <<< 4 + b2n l.upper <<< 5 + l.peerNode <<< 16)
  else if off = Reg.port.opLinkPeer then some (l.peerPort + l.peerLink <<< 8 + (l.peerBoot % 2 ^ 16) <<< 16)
  else if off = Reg.port.opLinkDelay then some (l.delay % 2 ^ 28)
  else if off = Reg.port.opLanePower then
    some (Tab.get (h.opPort f).laser (8 * (link / 4) + lane) 0 + (Config.sensed f.val (8 * link + lane) 0).toNat <<< 16)
  else if off = Reg.port.opLaneRing then
    let heater := (Config.sensed f.val (8 * link + lane) 1).toNat % 2 ^ 12
    let dark := l.state = 0 || l.state = 1
    let bad := bitOf l.failed lane
    some (heater + b2n (!dark && !bad) <<< 12 + b2n bad <<< 13 + b2n (l.up && !bad) <<< 14 + b2n bad <<< 15)
  else if off = Reg.port.opFecCorr then some (Tab.get l.fecCorr lane 0)
  else if off = Reg.port.opFecUncorr then some (Tab.get l.fecUncorr lane 0)
  else if off = Reg.port.opCrcErr then some l.crcErr
  else if off = Reg.port.opReplay then some l.replays
  else if off = Reg.port.opInbound then some ((h.opPort f).ctxs.length + (h.fld (pgPort f + Reg.port.opInbound) 16 16) <<< 16)
  else none
/-- Registers of the module-global optical page: the selected route, the resets since manufacture (R333, R347). -/
def Hw.optView (h : Hw) (off : Nat) : Option Nat :=
  if off = Reg.optGlobal.opRtData then some (Tab.get h.routes (h.fld (pgOptGlobal + Reg.optGlobal.opRtSel) 0 12) 0).toNat
  else if off = Reg.optGlobal.opBootCount then some h.flash.bootCount
  else none
/-- BOUND of the selected aperture, the selected event route (R366). -/
def Hw.hostView (h : Hw) (x : HostId) (off : Nat) : Option Nat :=
  if off = Reg.hostPort.hpApCfg then
    some (h.fld (pgHostPort x + off) 0 31 + b2n (Tab.find h.hp.aps (apKey x (h.fld (pgHostPort x + Reg.hostPort.hpApSel) 0 4))).isSome <<< 31)
  else if off = Reg.hostPort.hpEvtRoute then some (h.evtRoute x (h.fld (pgHostPort x + Reg.hostPort.hpEvtSel) 0 11)).toNat
  else none
/-- HP_LEASE_i with the ms that remain; PS_n_PLAN_ID is stored (R367). -/
def Hw.leaseView (h : Hw) (off : Nat) : Option Nat :=
  if Reg.hostGlobal.hpLease0 ≤ off ∧ off < Reg.hostGlobal.hpLease0 + 20 then
    let i := (off - Reg.hostGlobal.hpLease0) / 4
    let left := match Tab.find h.hp.leases i with | some x => (x.at_ + x.period - h.clk.now) / 1000000 | none => 0
    some (h.fld (pgHostGlobal + off) 0 3 + (if h.holder i = 0 then 0 else min left (2 ^ 16 - 1)) <<< 16)
  else none
/-- The registers of the security page that fuses, flash and the running image give (R401). -/
def State.secView (s : State) (off : Nat) : Option Nat :=
  let h := s.hw
  if off = Reg.security.secFwSvn then some (h.fwSvn + (s.fuses.svn % 256) <<< 8)
  else if off = Reg.security.secOwner then
    some ((List.range 4).foldl (fun v i => v + b2n (Tab.find s.fuses.owners i).isSome <<< i + b2n (s.fuses.revoked.contains i) <<< (4 + i)) 0)
  else if off = Reg.security.secSigNext then some (h.sigNext % 2 ^ 30)
  else if off = Reg.security.secSigBucket then some (s.fuses.buckets.foldl (fun m b => max m (b + 1)) 0 % 2 ^ 9)
  else if off = Reg.security.secSerialLo then some h.fac.serial
  else if off = Reg.security.secSerialHi then some (h.fac.serial >>> 32)
  else if Reg.security.secMeas0 ≤ off ∧ off < Reg.security.secMeas0 + 32 then
    some (leAt (digestBytes32 (s.measOf (h.fld (pgSecurity + Reg.security.secMeasSel) 0 2))) (off - Reg.security.secMeas0) 4)
  else none
/-- BLK_STATE of the module page (R419). -/
def Hw.moduleState (h : Hw) : Nat :=
  if h.boot.stopped then 2 else if h.bit (pgSecurity + Reg.security.secBoot) 9 then 3 else if h.bit (pgModule + Reg.module.glbStatus) 0 then 1 else 0
/-- The common header (R412): ENABLE where it is implemented, GAIT of a core-clocked block, BLK_STATE, and on the host pages the reading path's own result. -/
def Hw.headView (h : Hw) (p : Path) (kind : PageKind) (page off : Nat) : Nat :=
  if off = 0x008 then
    let w := h.regN (page + 0x008)
    (if enableAt page then w % 2 else 1) + bitsOf w 1 1 <<< 1 + (if coreClocked kind page then h.gaitOf (daField page) (daCluster page) else 0) <<< 4
  else if off = 0x00C then (if kind = .module then h.moduleState else h.stateCode page)
  else if off = 0x018 ∨ off = 0x01C then 0
  else if off = 0x020 ∧ (kind = .hostPort ∨ kind = .hostGlobal) then (Tab.get h.rf.pathResult (pathKey p page) 0).toNat
  else if off < 0x030 then h.regN (page + off)
  else 0
/-- A register that each path stages or latches for itself (R218, R222, R367, R421). -/
def perPath (kind : PageKind) (off : Nat) : Bool :=
  match kind with
  | .mover => decide (Reg.mover.mvrShadow0 ≤ off) && decide (off < Reg.mover.mvrShadow0 + 96)
  | .placement => decide (Reg.placement.pcArg0 ≤ off) && decide (off < Reg.placement.pcArg0 + 64)
  | .hostGlobal => off = Reg.hostGlobal.hpArgG
  | .evlog => decide (Reg.evlog.evlogData0 ≤ off) && decide (off < Reg.evlog.evlogData0 + 32)
  | _ => false
/-- What a block register computes rather than holds. -/
def State.computed (s : State) (kind : PageKind) (inst page off : Nat) : Option Nat :=
  let h := s.hw
  match kind with
  | .timebase => if off = Reg.timebase.strideOffset then some (min h.strideOffset (2 ^ 21 - 1)) else none
  | .score => if off = Reg.score.sqSyncTaint then some (h.syncTaintReg (pageCl page)) else none
  | .me => h.meView page off
  | .mcore => if off = Reg.mcore.mcStatus then some (h.fld (page + off) 0 5 + b2n (h.blkState page = 4) <<< 5) else none
  | .ve | .uengine => h.veView page off
  | .watch => h.watchView (padOf inst) off
  | .router => h.rtrView page off
  | .msite => if off = Reg.msite.msReadsOut then some (min (h.readsOut (pageSite page).val) 8192) else none
  | .placement => h.placeView (fieldOf (daField page)) off
  | .mover => h.mvView (pageMv page) off
  | .ucomplex => h.ucView (fieldOf (daField page)) off
  | .calliope => h.calGroupView (padOf inst) off
  | .farrier => if off = Reg.farrier.frUnitState then some h.unitView else none
  | .port => h.portView (fieldOf (daField page)) off
  | .optGlobal => h.optView off
  | .hostPort => h.hostView (if inst = 0 then 0 else 1) off
  | .hostGlobal => h.leaseView off
  | .fieldPower => if off = Reg.fieldPower.ptVcore then some (h.railOf (fieldOf (daField page)) (h.gaitFld (fieldOf (daField page)) 12)) else none
  | .security => s.secView off
  | .calib => h.calView off
  | .vcore | .placeGlobal | .stepCommit | .powerGlobal | .monitor | .module | .evlog | .clmem => none
/-- The value of a register word of a page that answers: 0 at an offset the page does not implement, and in WO registers (R9, R12). -/
def State.word (s : State) (p : Path) (page off : Nat) : Word :=
  BitVec.ofNat 32 <|
    if secBufPage page then s.hw.regN (page + off)
    else match blockAt page with
    | none => 2 ^ 32 - 1
    | some (kind, inst) =>
      if off < 0x100 then s.hw.headView p kind page off
      else match (regRows kind).find? fun r => r.off = off with
      | none => 0
      | some r =>
        if r.typ = .wo then 0
        else if perPath kind off then (s.hw.argOf p (page + off)).toNat
        else match s.computed kind inst page off with
        | some v => v
        | none => s.hw.regN (page + off)

end Machine
end Sys2Proof
end

