-- ==== Sys2Proof/Machine/RegisterAccess.lean ====
section
/-! DEFINITION. Register reads and writes by every access path (R9 to R15, R350, R351, R412 to R417), RESET_REQ, the module page and the event log (R419 to R421), the cluster memory page (R422), register access over the mesh (R165), SMBus (R435), queue samples of the monitors (R403). -/
namespace Sys2Proof.Machine

/-- What a register address names, with the word's byte offset taken off: a word of a page, a word of a port's MSI-X area, a vendor page, or nothing. -/
inductive Target where
  | reg (page off : Nat)
  | msix (x : HostId) (o : Nat)
  | vendor
  | none
  deriving DecidableEq, Repr

/-- The word of a device address (R411); field 0x3E holds vendor pages. -/
def daTarget (a : Nat) : Target :=
  if daRegion a ≠ 3 then .none
  else if daField a = 62 then .vendor
  else .reg (a / 4096 * 4096) (daOff a / 4 * 4)
/-- The word of a BAR0 offset of a port (R350). -/
def Hw.barTarget (h : Hw) (x : HostId) (o : Nat) : Target :=
  let off := o % 4096 / 4 * 4
  if 0xF00000 ≤ o ∧ o < 0xF08100 then .msix x ((o - 0xF00000) / 4 * 4)
  else if 0xF09000 ≤ o ∧ o < 0xF0A000 then .reg (pgHostPort x) off
  else if o < 0x1000000 then .reg (globalPage (bitsOf o 12 12)) off
  else
    let f := h.fld (pgHostPort x + Reg.hostPort.hpFieldWin) 0 6
    if f = 62 then .vendor else .reg (pageBase f (bitsOf o 21 3) (bitsOf o 17 4) (bitsOf o 12 5)) off
/-- The byte address within its space. -/
def regAddrNat : RegAddr → Nat
  | .da a => a.toNat
  | .bar0 o => o.toNat
/-- The word at byte n of the space an address lies in; BAR0 offsets belong to the host paths. -/
def Hw.target (h : Hw) (p : Path) (a : RegAddr) (n : Nat) : Target :=
  match a with
  | .da _ => daTarget n
  | .bar0 _ => match p.host with
    | some x => h.barTarget x n
    | none => .none

/-- One 32-bit read: a LO half latches its HI for the path, a HI half gives the latched word once (R12, R14); pages that do not answer read all ones. -/
def State.readWord (s : State) (p : Path) : Target → Word × State
  | .none => (BitVec.allOnes 32, s)
  | .vendor =>
    if bitOf s.hw.scopes 0 then
      let (v, h) := s.hw.free 32
      (BitVec.ofNat 32 v, { s with hw := h })
    else (BitVec.allOnes 32, s)
  | .msix x o => (s.hw.msixWord x o, s)
  | .reg page off =>
    if s.hw.deadFor p page then (BitVec.allOnes 32, s)
    else
      let v := s.word p page off
      match blockAt page with
      | none => (v, s)
      | some (kind, _) =>
        let lo := pathKey p (page + off - 4)
        if (regPairs kind).contains off then
          (v, s.onHw fun h => { h with rf := { h.rf with hiLatch := Tab.set h.rf.hiLatch (pathKey p (page + off)) (s.word p page (off + 4)) } })
        else if 4 ≤ off && (regPairs kind).contains (off - 4) then
          match Tab.find s.hw.rf.hiLatch lo with
          | some w => (w, s.onHw fun h => { h with rf := { h.rf with hiLatch := Tab.erase h.rf.hiLatch lo } })
          | none => (v, s)
        else (v, s)
/-- A read of n bytes: the words that hold them, in increasing address order, each with its effects (R12). -/
def State.readBytes (s : State) (p : Path) (a : RegAddr) (n : Nat) : List Byte × State :=
  let b := regAddrNat a
  let first := b / 4
  let words := if n = 0 then 0 else (b + n - 1) / 4 - first + 1
  let (bytes, s) := times words (([] : List Byte), s) fun i acc =>
    let (w, t) := acc.2.readWord p (acc.2.hw.target p a (4 * (first + i)))
    (acc.1 ++ leBytes 4 w.toNat, t)
  ((bytes.drop (b % 4)).take n, s)
/-- A read that returns its bytes to the path. -/
def State.readOut (s : State) (p : Path) (a : RegAddr) (n : Nat) : State :=
  let (bytes, t) := s.readBytes p a n
  t.onHw fun h => h.emit (.readData p bytes)
/-- SUBWORD_READ: a read of n bytes (R12). -/
def execSubwordRead (p : Path) (a : RegAddr) (n : Nat) (s : State) : Res := .next (s.readOut p a n)
/-- LO_READ: 32 bits of a LO half; HI is latched for the path (R14). -/
def execLoRead (p : Path) (a : RegAddr) (s : State) : Res := .next (s.readOut p a 4)
/-- HI_READ: 32 bits of a HI half: the latched word, or the current one (R14). -/
def execHiRead (p : Path) (a : RegAddr) (s : State) : Res := .next (s.readOut p a 4)

/-- The registers of a page that are counters and nothing more (R413, notes/assumptions/59.md). -/
def counterRegs (kind : PageKind) : List Nat :=
  match kind with
  | .timebase => [Reg.timebase.stretchCountLo, Reg.timebase.stretchCountHi, Reg.timebase.stretchWithheld, Reg.timebase.overrunTotal]
  | .score => [Reg.score.overrunCount, Reg.score.stretchReqCount, Reg.score.tokenEvents, Reg.score.sqErrCount]
  | .me => [Reg.me.mePassCountLo, Reg.me.mePassCountHi, Reg.me.meRowCountLo, Reg.me.meRowCountHi, Reg.me.meStallTile, Reg.me.meStallLoad,
      Reg.me.meStallAcc, Reg.me.meStallFeed, Reg.me.meParityCount]
  | .mcore => [Reg.mcore.mcStartOvf, Reg.mcore.mcLmemCrc, Reg.mcore.mcChainStallIn, Reg.mcore.mcChainStallOut, Reg.mcore.mcChainTagErr]
  | .vcore => [Reg.vcore.vcStartOvf, Reg.vcore.vcAccbusWait]
  | .ve => [Reg.ve.veInstrLo, Reg.ve.veInstrHi, Reg.ve.veStallDep, Reg.ve.veStallMem, Reg.ve.veStallSync, Reg.ve.veParityCount, Reg.ve.veLmemCrc]
  | .uengine => [Reg.ve.veInstrLo, Reg.ve.veInstrHi, Reg.ve.veStallDep, Reg.ve.veStallMem, Reg.ve.veStallSync, Reg.ve.veParityCount, Reg.ve.veLmemCrc,
      Reg.uengine.ueDone, Reg.uengine.ueMvGuard]
  | .router => [Reg.router.rtrEscCount, Reg.router.rtrFencedRet, Reg.router.rtrDiscard, Reg.router.rtrCtrlWaitMax, Reg.router.rtrAifOvf, Reg.router.rtrChainTail]
  | .msite => [Reg.msite.msCrcErr, Reg.msite.msDecompErr, Reg.msite.msBytesRdLo, Reg.msite.msBytesRdHi, Reg.msite.msBytesWrLo, Reg.msite.msBytesWrHi]
  | .placement => [Reg.placement.pcForwarded, Reg.placement.pcRejected]
  | .placeGlobal => ((List.range 4).map fun n => Reg.placeGlobal.paddock0QuotaFail + 0x40 * n) ++ ((List.range 32).map fun i => Reg.placeGlobal.paddock0Late + 4 * i)
  | .mover => [Reg.mover.mvrDone, Reg.mover.mvrErr, Reg.mover.mvrLateCount, Reg.mover.mvrCurbWait, Reg.mover.mvrBytesLo, Reg.mover.mvrBytesHi]
  | .ucomplex => [Reg.ucomplex.ucFallback, Reg.ucomplex.ucNotReadyCount, Reg.ucomplex.ucMirror]
  | .stepCommit => [Reg.stepCommit.scSkips, Reg.stepCommit.scAborts, Reg.stepCommit.scDigestEvents, Reg.stepCommit.scWalkPos, Reg.stepCommit.scWalkMismatch]
  | .farrier => [Reg.farrier.frCountsA, Reg.farrier.frCountsB, Reg.farrier.frTransients, Reg.farrier.frTickMissed]
  | .port => [Reg.port.opReject, Reg.port.opTransit, Reg.port.opTbMissed]
  | .optGlobal => [Reg.optGlobal.opUnreach]
  | .hostPort => [Reg.hostPort.hpDenied, Reg.hostPort.hpApFault, Reg.hostPort.hpEvtSent]
  | .fieldPower => [Reg.fieldPower.ptTempPeak, Reg.fieldPower.ptThrottleCount, Reg.fieldPower.ptWakeSpacing]
  | .powerGlobal => [Reg.powerGlobal.ptInputPeak, Reg.powerGlobal.ptGov]
  | .monitor => monSnapRegs
  | .clmem => [Reg.clmem.cmCrc]
  | .watch | .calliope | .hostGlobal | .security | .calib | .module | .evlog => []
/-- A page's counters at their reset values, those in its tables with them (R413). -/
def Hw.clearPageCounters (h : Hw) (kind : PageKind) (inst page : Nat) : Hw :=
  let h := h.clearRegs page (counterRegs kind)
  match kind with
  | .score => h.setFld (page + Reg.score.sqReplays) 0 16 0
  | .watch => h.watchZero (padOf inst)
  | .router => let x := h.rtrAt (pageRtr page)
               h.setRtr (pageRtr page) { x with links := x.links.map fun (k, l) => (k, { l with crcErr := 0, replays := 0 }) }
  | .ucomplex => let u := h.ucAt (fieldOf (daField page))
                 { h with uc := Tab.set h.uc (daField page) { u with ranges := u.ranges.map fun x => { x with count := 0 } } }
  | .port => ((portLinks (fieldOf (daField page))).foldl (fun h k => h.setOpLink k { h.opLink k with crcErr := 0, replays := 0, fecCorr := [], fecUncorr := [] }) h).setFld
      (page + Reg.port.opInbound) 16 16 0
  | .fieldPower => h.setFld (page + Reg.fieldPower.ptPower) 16 16 0
  | .monitor => h.monClearLive page
  | _ => h
/-- RESET_REQ may take effect: the block is fenced, or no plan runs in the paddock of its ring; a module-global page while no plan runs (R413). -/
def Hw.resetAllowed (h : Hw) (page : Nat) : Bool :=
  h.fencedPage page ||
  (if hf : daField page < 48 then !((h.paddockOfField ⟨daField page, hf⟩).map h.planRunning).getD false else !(List.finRange 4).any h.planRunning)
/-- RESET_REQ of a page: counters, BLK_EVENT and error log, then RESET_DONE; else CMD_REJECT (R413). -/
def Hw.resetPage (h : Hw) (kind : PageKind) (inst page : Nat) : Hw :=
  if h.resetAllowed page then
    ((h.clearPageCounters kind inst page).clearRegs page [0x010, 0x024, 0x028, 0x02C]).raise page 3
  else h.raise page 0

/-- W1C of BLK_EVENT by a path, and the bits that hardware sets in the same cycle, which stay set (R10, R417); an error logged then has free ADDR and INFO (notes/assumptions/1.md). -/
def Hw.eventClear (h : Hw) (page : Nat) (v hw : Word) : Hw :=
  let h := h.setReg (page + 0x010) (h.reg (page + 0x010) &&& ~~~v)
  times 32 h fun i h =>
    if !wbit hw i then h
    else if i = 1 then
      let (a, h) := h.free 64
      let (x, h) := h.free 16
      h.logError page a x
    else h.raise page i
/-- BLK_EVENT_FORCE: each bit is set as if its condition had occurred (R414). -/
def Hw.eventForce (h : Hw) (page : Nat) (v : Word) : Hw :=
  times 32 h fun i h => if wbit v i then h.raise page i else h

/-- A write of a register that a path stages or latches, within its bits. -/
def Hw.storeReg (h : Hw) (kind : PageKind) (p : Path) (k : Nat) (mask : Nat) (v : Word) : Hw :=
  if perPath kind (daOff k) then h.setArg p k (v &&& BitVec.ofNat 32 mask) else h.setReg k (v &&& BitVec.ofNat 32 mask)
/-- A monitor's configuration takes writes in IDLE only; HOLD in every state (R407, R408). -/
def Hw.monWrite (h : Hw) (page off : Nat) (r : RegRow) (v : Word) : Hw :=
  if h.blkState page = 0 then h.setReg (page + off) (v &&& BitVec.ofNat 32 r.mask)
  else if off = Reg.monitor.monCtrl then
    let old := h.regN (page + off)
    let h := h.setBit (page + off) 0 (wbit v 0)
    if bitsOf old 1 8 = wbits v 1 8 then h else h.raise page 0
  else h.raise page 0
/-- PT_THRESH: THROTTLE within 80 to 95 °C, WARN within 70 °C to THROTTLE; LIMIT and TRIP are fixed (R381). -/
def clampThresh (v : Word) (old : Word) : Nat :=
  let thr := max 80 (min 95 (wbits v 8 8))
  max 70 (min thr (wbits v 0 8)) + thr <<< 8 + wbits old 16 16 <<< 16
/-- HP_LEASE_CFG: PERIOD within 100 to 60,000 ms (R357). -/
def clampLease (v : Word) : Nat := max 100 (min 60000 (wbits v 0 16)) + wbits v 16 1 <<< 16

/-- A write to a plain register by its type (R9), with what its page adds. -/
def Hw.rowWrite (h : Hw) (p : Path) (kind : PageKind) (inst page : Nat) (r : RegRow) (v : Word) : Hw :=
  let k := page + r.off
  match r.typ with
  | .ro | .wo => h
  | .w1c => h.setReg k (h.reg k &&& ~~~v)
  | .rwl => if h.boot.locked || !(p = .rm || p.host.any fun x => h.holds x 4) then h else h.setReg k (v &&& BitVec.ofNat 32 r.mask)
  | .rw =>
    match kind with
    | .monitor => h.monWrite page r.off r v
    | .powerGlobal =>
      if r.off = Reg.powerGlobal.ptThresh then h.setRegN k (clampThresh v (h.reg k))
      else if 0x130 ≤ r.off ∧ r.off < 0x140 then (if wbits v 0 2 = 3 then h else h.setRegN k (wbits v 0 2))
      else h.storeReg kind p k r.mask v
    | .hostGlobal => if r.off = Reg.hostGlobal.hpLeaseCfg then h.setRegN k (clampLease v) else h.storeReg kind p k r.mask v
    | .hostPort =>
      if r.off = Reg.hostPort.hpEvtRoute then
        let x : HostId := if inst = 0 then 0 else 1
        { h with rf := { h.rf with evtRoute := Tab.set h.rf.evtRoute (x.val <<< 20 + h.fld (page + Reg.hostPort.hpEvtSel) 0 11) (v &&& BitVec.ofNat 32 r.mask) } }
      else h.storeReg kind p k r.mask v
    | .calliope =>
      if Reg.calliope.calGCfg ≤ r.off ∧ r.off < Reg.calliope.calGProd1Lo then
        let n := padOf inst
        let g := h.calSel n
        h.setCal n g { h.calGroup n g with stag := Tab.set (h.calGroup n g).stag r.off (v.toNat % (r.mask + 1)) }
      else h.storeReg kind p k r.mask v
    | .calib => if r.off = Reg.calib.calUser then h.calUserWrite v.toNat else h.storeReg kind p k r.mask v
    | _ => h.storeReg kind p k r.mask v
/-- The register row at an offset of a page. -/
def rowAt (kind : PageKind) (off : Nat) : Option RegRow := (regRows kind).find? fun r => r.off = off
/-- A write of LO of a writable pair is staged for its path; a write of HI commits both halves, keeping LO where the path staged none (R15). -/
def Hw.blockWrite (h : Hw) (p : Path) (kind : PageKind) (inst page off : Nat) (v : Word) : Hw :=
  match rowAt kind off with
  | none => h
  | some r =>
    if r.typ = .rw && (regPairs kind).contains off then
      { h with rf := { h.rf with loStage := Tab.set h.rf.loStage (pathKey p (page + off)) v } }
    else if r.typ = .rw && decide (4 ≤ off) && (regPairs kind).contains (off - 4) then
      let lo := pathKey p (page + off - 4)
      let h := match Tab.find h.rf.loStage lo, rowAt kind (off - 4) with
        | some w, some q => ({ h with rf := { h.rf with loStage := Tab.erase h.rf.loStage lo } } : Hw).rowWrite p kind inst page q w
        | _, _ => h
      h.rowWrite p kind inst page r v
    else h.rowWrite p kind inst page r v

/-- Bytes of an event log entry (R421). -/
def EvEntry.bytes (e : EvEntry) : List Byte :=
  leBytes 4 e.seq ++ leBytes 6 e.stride ++ leBytes 1 e.cls ++ leBytes 1 e.bit ++ leBytes 4 e.loc ++ leBytes 8 e.planId ++ leBytes 4 e.info ++
    leBytes 1 e.paddock ++ leBytes 1 e.kind ++ leBytes 2 0
/-- The entry with a sequence number, all zero where the log no longer or not yet holds it (R421). -/
def Hw.evEntry (h : Hw) (n : Nat) : List Byte := ((h.evlog.find? fun e => e.seq % 2 ^ 32 = n).map EvEntry.bytes).getD (List.replicate 32 0)
/-- EVLOG_SEL_WRITE: the entry is latched in the path's EVLOG_DATA (R421). -/
def execEvlogSelWrite (p : Path) (v : Word) (s : State) : Res :=
  .next (s.onHw fun h => h.pathWrite p pgEvlog Reg.evlog.evlogSel fun h =>
    let e := h.evEntry v.toNat
    times 8 (h.setReg (pgEvlog + Reg.evlog.evlogSel) v) fun i h => h.setArg p (pgEvlog + Reg.evlog.evlogData0 + 4 * i) (BitVec.ofNat 32 (leAt e (4 * i) 4)))

/-- The owner of a ring in a PADDOCK_RINGS word. -/
def ringOwner (w : Word) (r : Ring) : Option Paddock :=
  if wbit w (4 * r.val + 3) then some ⟨wbits w (4 * r.val) 2 % 4, Nat.mod_lt _ (by decide)⟩ else none
/-- Rings whose two fields differ (R420). -/
def ringsChanged (w v : Word) : List Ring :=
  (List.finRange 4).filter fun r => wbits w (4 * r.val) 2 ≠ wbits v (4 * r.val) 2 || wbit w (4 * r.val + 3) ≠ wbit v (4 * r.val + 3)
/-- The ring a span lies in. -/
def spanRing (x : Span) : Nat :=
  if daRegion x.base = 2 then (ringOf ⟨daField x.base % 48, Nat.mod_lt _ (by decide)⟩).val else x.ring
/-- The T0 and T1 space of a ring. -/
def ringSpans (r : Ring) : List Span :=
  ⟨r.val <<< 41, 0x18000000000⟩ ::
    ((ringFields r).flatMap fun f =>
      (⟨t0Addr f.val 6 0 0, t0Bytes 6 0⟩ : Span) :: ((fieldClusters f).flatMap fun l => (List.range 9).map fun u => (⟨t0Addr f.val l.c.val u 0, t0Bytes l.c.val u⟩ : Span)))
/-- The rings of a new PADDOCK_RINGS take it up: gaits without a plan, released space to zero-fill, no cluster mapped (R420, R187, R374, notes/assumptions/60.md). -/
def Hw.ringsTake (h : Hw) (old new : Word) : Hw :=
  let rs := ringsChanged old new
  let h := h.setReg (pgModule + Reg.module.paddockRings) new
  let h := rs.foldl (fun h r =>
    let h := if (ringOwner old r).isSome then (ringSpans r).foldl Hw.fill h else h
    (ringFields r).foldl (fun h f =>
      let h := (fieldClusters f).foldl (fun h l => if h.l2pValid l then (List.range 5).foldl (fun h i => h.setRegN (l.page + Reg.score.l2pCluster + 4 * i) 0) h else h) h
      (h.setGaitFld f 0 (h.gaitRequest f)).gaitApply f) h) h
  if rs.isEmpty then h else h.raise pgModule 11
/-- PADDOCK_RINGS may change: every changed ring's old and new paddocks have EMPTY slots, and no object lies in it (R420). -/
def Hw.ringsMay (h : Hw) (old new : Word) : Bool :=
  (ringsChanged old new).all fun r =>
    (ringOwner old r).all (fun n => h.slotState n = 0) && (ringOwner new r).all (fun n => h.slotState n = 0) && h.usedSpans.all fun x => spanRing x ≠ r.val
/-- PADDOCK_RINGS_WRITE: as a whole, or discarded with CMD_REJECT (R420). -/
def execPaddockRingsWrite (p : Path) (v : Word) (s : State) : Res :=
  .next (s.onHw fun h => h.pathWrite p pgModule Reg.module.paddockRings fun h =>
    let old := h.reg (pgModule + Reg.module.paddockRings)
    let new := v &&& 0xBBBB
    if h.ringsMay old new then h.ringsTake old new else h.raise pgModule 0)

/-- CM_CLEAR_COUNTERS (R422). -/
def execCmClearCounters (p : Path) (m : CmLoc) (s : State) : Res :=
  .next <| plainCmd s p m.page 0x02 (s.hw.mayCommand p m.page none) [0, 1] fun h => h.clearRegs m.page [Reg.clmem.cmCrc]

/-- What a meaning that never stops leaves. -/
def stateOf (d : State) : Res → State
  | .next t => t
  | _ => d
/-- A monitor's index on its page. -/
def monOf (inst : Nat) : Fin 16 := ⟨inst % 16, Nat.mod_lt _ (by decide)⟩

/-- The command that a code names on a page (BLK_CMD). -/
def command (p : Path) (kind : PageKind) (inst page code : Nat) : Option (State → Res) :=
  let f := fieldOf (daField page)
  let n := padOf inst
  match kind, code with
  | .timebase, 0x01 => some (execSetPeriod p)
  | .score, 0x10 => some (execErrClear p (pageCl page))
  | .score, 0x11 => some (execAbortReq p (pageCl page))
  | .me, 0x01 => some (execMeClearSets p (pageMe page))
  | .me, 0x02 => some (execMeClearCounters p (pageMe page))
  | .mcore, 0x01 => some (execMcClearSync p (pageMc page))
  | .mcore, 0x02 => some (execMcClearCounters p (pageMc page))
  | .vcore, 0x01 => some (execVcClearSync p (pageVc page))
  | .vcore, 0x02 => some (execVcClearCounters p (pageVc page))
  | .ve, 0x02 | .uengine, 0x02 => some (execVeClearCounters p (pageVe page))
  | .watch, 0x01 => some (execWriteRange p n)
  | .watch, 0x02 => some (execWriteSlot p n)
  | .watch, 0x03 => some (execNwSnapshot p n)
  | .watch, 0x04 => some (execClearCounts p n)
  | .router, 0x01 => some (execRtrClearCounters p (pageRtr page))
  | .router, 0x10 => some (execDrainLink p (pageRtr page))
  | .router, 0x11 => some (execLaneTest p (pageRtr page))
  | .router, 0x12 => some (execApplyLaneMap p (pageRtr page))
  | .router, 0x13 => some (execReleaseLink p (pageRtr page))
  | .router, 0x14 => some (execExcludeLink p (pageRtr page))
  | .msite, 0x01 => some (execMsClearCounters p (pageSite page))
  | .placement, 0x01 => some (execPlace p f)
  | .placement, 0x02 => some (execPromote p f)
  | .placement, 0x03 => some (execDemote p f)
  | .placement, 0x04 => some (execEvict p f)
  | .placement, 0x05 => some (execPin p f)
  | .placement, 0x06 => some (execUnpin p f)
  | .placement, 0x07 => some (execFree p f)
  | .placement, 0x08 => some (execQuery p f)
  | .placement, 0x09 => some (execSetPolicy p f)
  | .placement, 0x0A => some (execSetAlt p f)
  | .placement, 0x0B => some (execMakeDraft p f)
  | .placement, 0x0C => some (execDropDraft p f)
  | .placement, 0x0D => some (execBindWindow p f)
  | .mover, 0x01 => some (execMvrLoad p (pageMv page))
  | .mover, 0x02 => some (execMvrStop p (pageMv page))
  | .mover, 0x03 => some (execDropShadow p (pageMv page))
  | .mover, 0x04 => some (execCollect p (pageMv page))
  | .mover, 0x05 => some (execMvrClearCounters p (pageMv page))
  | .ucomplex, 0x02 => some (execUcClearCounters p f)
  | .calliope, 0x01 => some (execStageLoad p n)
  | .calliope, 0x02 => some (execApply p n)
  | .calliope, 0x03 => some (execSetCount p n)
  | .stepCommit, 0x01 => some (execResume p n)
  | .stepCommit, 0x02 => some (execSetLossExp p n)
  | .stepCommit, 0x03 => some (execResetLoss p n)
  | .stepCommit, 0x04 => some (execScClearCounters p n)
  | .farrier, 0x01 => some (execFarrierFence p)
  | .farrier, 0x02 => some (execUnfence p)
  | .farrier, 0x03 => some (execArrayTest p)
  | .farrier, 0x04 => some (execSoftRepair p)
  | .farrier, 0x05 => some (execSwapSpare p)
  | .farrier, 0x06 => some (execRetire p)
  | .farrier, 0x07 => some (execRequestHold p)
  | .farrier, 0x08 => some (execReadmitField p)
  | .farrier, 0x09 => some (execUnretire p)
  | .farrier, 0x0A => some (execFrClearCounters p)
  | .port, 0x01 => some (execOpClearCounters p f)
  | .port, 0x02 => some (execRetrain p f)
  | .port, 0x03 => some (execWriteTree p f)
  | .hostPort, 0x01 => some (execBindAp p (if inst = 0 then 0 else 1))
  | .hostPort, 0x02 => some (execUnbindAp p (if inst = 0 then 0 else 1))
  | .hostPort, 0x03 => some (execAssignChannel p (if inst = 0 then 0 else 1))
  | .hostPort, 0x04 => some (execHpClearCounters p (if inst = 0 then 0 else 1))
  | .hostGlobal, 0x01 => some (execClaim p)
  | .hostGlobal, 0x02 => some (execRenew p)
  | .hostGlobal, 0x03 => some (execRelease p)
  | .hostGlobal, 0x10 => some (execSubmit p)
  | .hostGlobal, 0x11 => some (execWithdraw p)
  | .hostGlobal, 0x12 => some (execPsStop p)
  | .fieldPower, 0x02 => some (execPtClearCounters p f)
  | .powerGlobal, 0x01 => some (execEstopClear p)
  | .powerGlobal, 0x02 => some (execPgClearCounters p)
  | .security, 0x01 => some (execAttest p)
  | .security, 0x02 => some (execAdvanceSvn p)
  | .security, 0x03 => some (execOwnerEnroll p)
  | .security, 0x04 => some (execOwnerRevoke p)
  | .security, 0x05 => some (execDebugChallenge p)
  | .security, 0x06 => some (execDebugResponse p)
  | .security, 0x07 => some (execFwWrite p)
  | .security, 0x08 => some (execSaveConfig p)
  | .security, 0x09 => some (execReadCert p)
  | .security, 0x0A => some (execSetBootSlot p)
  | .calib, 0x01 => some (execWriteUser p)
  | .calib, 0x02 => some (execClearUser p)
  | .monitor, 0x01 => some (execMonStart p f (monOf inst))
  | .monitor, 0x02 => some (execMonStop p f (monOf inst))
  | .monitor, 0x03 => some (execMonSnapshot p f (monOf inst))
  | .monitor, 0x04 => some (execClearSnap p f (monOf inst))
  | .clmem, 0x02 => some (execCmClearCounters p (pageCm page))
  | _, _ => none
/-- A write of BLK_CMD: the command its code names; BAD_ARG for an unknown code or a 1 in bits 31:8 (R415). -/
def State.blkCmd (s : State) (p : Path) (kind : PageKind) (inst page : Nat) (v : Word) : State :=
  let bad := s.onHw fun h =>
    let may := h.mayCommand p page none
    (if may then h else h.denied p).cmdResult p page (wbits v 0 8) .badArg
  if wbits v 8 24 ≠ 0 then bad
  else match command p kind inst page (wbits v 0 8) with
    | some m => stateOf s (m s)
    | none => bad

/-- MVR_CTRL: PAUSE as PAUSE_SET and PAUSE_CLEAR, PADDOCK from the Ringmaster's path only (R221, R235). -/
def Hw.mvCtrlWrite (h : Hw) (p : Path) (m : MvLoc) (v : Word) : Hw :=
  if h.mvCtrlMay p m then
    let h := if p = .rm then h.setFld (m.page + Reg.mover.mvrCtrl) 4 2 (wbits v 4 2) else h
    if wbit v 0 then h.pauseSet m else h.pauseClear m
  else h.denied p

/-- A write to a register whose row of the table has a meaning of its own. -/
def ownWrite (p : Path) (kind : PageKind) (inst page off : Nat) (v : Word) : Option (State → State) :=
  let call := fun (m : State → Res) => some fun (s : State) => stateOf s (m s)
  let f := fieldOf (daField page)
  match kind with
  | .watch => if off = Reg.watch.nwSel then call (execNwSelWrite p (padOf inst) v) else none
  | .mcore =>
    if he : Reg.mcore.mcStart0 ≤ off ∧ off < Reg.mcore.mcStart0 + 20 then
      call (execMcStartWrite p (pageMc page) ⟨(off - Reg.mcore.mcStart0) / 4, by omega⟩ v) else none
  | .vcore =>
    if he : Reg.vcore.vcStart0 ≤ off ∧ off < Reg.vcore.vcStart0 + 16 then
      call (execVcStartWrite p (pageVc page) ⟨(off - Reg.vcore.vcStart0) / 4, by omega⟩ v) else none
  | .mover => if off = Reg.mover.mvrCtrl then some fun s => s.onHw fun h => h.mvCtrlWrite p (pageMv page) v else none
  | .stepCommit => if off = Reg.stepCommit.lossIn then call (execLossInWrite p (padOf inst) v) else none
  | .port => if off = Reg.port.opLinkEn then call (execOpLinkEnWrite p f v) else none
  | .optGlobal =>
    if off = Reg.optGlobal.opNodeId then call (execOpNodeIdWrite p v) else if off = Reg.optGlobal.opRtData then call (execOpRtDataWrite p v) else none
  | .hostPort => if off = Reg.hostPort.hpFieldWin then call (execHpFieldWinWrite p (if inst = 0 then 0 else 1) v) else none
  | .powerGlobal => if off = Reg.powerGlobal.ptRingRest then call (execPtRingRestWrite p v) else none
  | .security => if off = Reg.security.secCtrl then call (execHoldLockWrite p v) else none
  | .calib => if off = Reg.calib.calSel then call (execCalSelWrite p v) else none
  | .module => if off = Reg.module.paddockRings then call (execPaddockRingsWrite p v) else none
  | .evlog => if off = Reg.evlog.evlogSel then call (execEvlogSelWrite p v) else none
  | _ => none

/-- A write to a header register other than BLK_CMD (R412 to R414, R417). -/
def Hw.headWrite (h : Hw) (p : Path) (kind : PageKind) (inst page off : Nat) (v : Word) : Hw :=
  if off = 0x008 then
    let h := if enableAt page && !h.boot.locked && (p = .rm || p.host.any fun x => h.holds x 4) then h.setBit (page + 0x008) 0 (wbit v 0) else h
    if wbit v 2 then h.resetPage kind inst page else h
  else if off = 0x010 then h.eventClear page v 0
  else if off = 0x014 then h.setReg (page + 0x014) v
  else if off = 0x018 then h.eventForce page v
  else h

/-- A 32-bit write of a path to a word of a page (R9 to R15, R351). -/
def State.writeReg (s : State) (p : Path) (page off : Nat) (v : Word) : State :=
  if s.hw.deadFor p page then s
  else match blockAt page with
    | none => s.onHw fun h => h.pathWrite p page off fun h => h.setReg (page + off) v
    | some (kind, inst) =>
      if off = 0x01C then s.blkCmd p kind inst page v
      else if off < 0x100 then s.onHw fun h => h.pathWrite p page off fun h => h.headWrite p kind inst page off v
      else match ownWrite p kind inst page off v with
        | some m => m s
        | none => s.onHw fun h => h.pathWrite p page off fun h => h.blockWrite p kind inst page off v
/-- A write to a port's MSI-X table; the pending-bit array is read-only. A vector unmasked while pending is sent. -/
def Hw.msixWrite (h : Hw) (x : HostId) (o : Nat) (v : Word) : Hw :=
  if o ≥ 0x8000 then h
  else
    let was := wbit (h.msixWord x o) 0
    let h := h.setMsix x o v
    let n := o / 16
    let pk := 0x8000 + 4 * (n / 32)
    if o % 16 = 12 && was && !wbit v 0 && wbit (h.msixWord x pk) (n % 32) then
      (h.setMsix x pk (wput (h.msixWord x pk) (n % 32) 1 0)).sendVector x n
    else h
/-- A 32-bit write to a target. -/
def State.writeTarget (s : State) (p : Path) (t : Target) (v : Word) : State :=
  match t with
  | .reg page off => s.writeReg p page off v
  | .msix x o => s.onHw fun h => h.msixWrite x o v
  | .vendor | .none => s
/-- A write of n bytes: any width or alignment but an aligned 32-bit word is discarded (R12). -/
def State.write (s : State) (p : Path) (a : RegAddr) (n : Nat) (v : Word) : State :=
  if n = 4 ∧ regAddrNat a % 4 = 0 then s.writeTarget p (s.hw.target p a (regAddrNat a)) v else s
/-- REGISTER_WRITE (R9 to R12). -/
def execRegisterWrite (p : Path) (a : RegAddr) (n : Nat) (v : Word) (s : State) : Res := .next (s.write p a n v)
/-- LO_WRITE: a write to the LO half of a writable pair (R15). -/
def execLoWrite (p : Path) (a : RegAddr) (v : Word) (s : State) : Res := .next (s.write p a 4 v)
/-- HI_WRITE: a write to the HI half (R15). -/
def execHiWrite (p : Path) (a : RegAddr) (v : Word) (s : State) : Res := .next (s.write p a 4 v)

/-- A write to one header register of a page, where the address names it. -/
def State.atHeader (s : State) (p : Path) (a : RegAddr) (off : Nat) (f : PageKind → Nat → Nat → Hw → Hw) : State :=
  match s.hw.target p a (regAddrNat a) with
  | .reg page o =>
    (match blockAt page with
     | some (kind, inst) => if o = off then s.onHw fun h => h.pathWrite p page off (f kind inst page) else s
     | none => s)
  | _ => s
/-- BLK_EVENT_CLEAR: hw are the bits hardware sets in the same cycle (R10, R417). -/
def execBlkEventClear (p : Path) (a : RegAddr) (v hw : Word) (s : State) : Res :=
  .next (s.atHeader p a 0x010 fun _ _ page h => h.eventClear page v hw)
/-- BLK_EVENT_FORCE (R414). -/
def execBlkEventForce (p : Path) (a : RegAddr) (v : Word) (s : State) : Res :=
  .next (s.atHeader p a 0x018 fun _ _ page h => h.eventForce page v)
/-- RESET_REQ: a write of 1 to BLK_CTRL.RESET_REQ (R413). -/
def execResetReq (p : Path) (a : RegAddr) (s : State) : Res :=
  .next (s.atHeader p a 0x008 fun kind inst page h => h.resetPage kind inst page)

/-- A paddock whose plan runs crosses a node (R165). -/
def Hw.nodeBusy (h : Hw) (r : RtrLoc) : Bool :=
  (List.finRange 4).any fun n => h.planRunning n &&
    (match r with
     | .cluster l => h.crossedBy n l || h.paddockOfCluster l = some n
     | .hub f => h.paddockOfField f = some n || (h.rtrAt r).slots.any fun p => wbit p.2.1 0 && wbits p.2.1 28 2 = n.val)
/-- A valid table entry, or none. -/
def tabPut (t : Tab Nat) (i : Nat) (v : Option (Fin 7)) : Tab Nat :=
  match v with
  | some q => Tab.set t i q.val
  | none => Tab.erase t i
/-- A table write by MGMT, at a time when R165 or R35 allows it; else ILLEGAL_IN_STATE. -/
def Hw.mgmtPut (h : Hw) (page : Nat) (busy : Bool) (f : Hw → Hw) : Hw :=
  if busy then (h.cmdResult .rm page 0 .illegal).raise page 0 else f h
/-- A word of a cluster's map is written, and every S-core of the paddock reads the next epoch (R35). -/
def Hw.l2pWrite (h : Hw) (l : ClLoc) (k : Nat) (v : Word) : Hw :=
  let h := h.setReg (l.page + Reg.score.l2pCluster + 4 * k) v
  let ls := l :: (match h.paddockOfCluster l with | some n => (h.hosts n).filter (· ≠ l) | none => [])
  let e := ls.foldl (fun m x => max m (h.regN (x.page + Reg.score.l2pEpoch))) 0
  ls.foldl (fun h x => h.setRegN (x.page + Reg.score.l2pEpoch) (e + 1)) h
/-- What a MGMT flit does at its node (R35, R165, R171, R272); it comes on the Ringmaster's path. -/
def State.mgmt (s : State) (r : RtrLoc) : MgmtOp → State
  | .read off => s.readOut .rm (.da (BitVec.ofNat 56 (r.page + off % 4096))) 4
  | .write off v => s.write .rm (.da (BitVec.ofNat 56 (r.page + off % 4096))) 4 v
  | .override i port => s.onHw fun h => h.mgmtPut r.page (h.nodeBusy r) fun h => let x := h.rtrAt r; h.setRtr r { x with override := tabPut x.override i.val port }
  | .escape i port => s.onHw fun h => h.mgmtPut r.page (h.nodeBusy r) fun h => let x := h.rtrAt r; h.setRtr r { x with escape := tabPut x.escape i.val port }
  | .slot i d0 d1 d2 => s.onHw fun h => h.mgmtPut r.page (h.nodeBusy r) fun h => let x := h.rtrAt r; h.setRtr r { x with slots := Tab.set x.slots i.val (d0, d1, d2) }
  | .tick ports => s.onHw fun h => h.mgmtPut r.page (h.nodeBusy r) fun h => h.setRtr r { h.rtrAt r with tickOut := ports.map (·.val) }
  | .l2p k v =>
    match r with
    | .cluster l => s.onHw fun h => h.mgmtPut l.page (((h.paddockOfCluster l).map h.planRunning).getD false) fun h => h.l2pWrite l k.val v
    | .hub _ => s
/-- FLIT_MGMT: what it asks is done at its destination node (R165). -/
def execFlitMgmt (r : RtrLoc) (q : Fin 7) (k : Flit) (m : MgmtOp) (s : State) : Res :=
  .next (flitArrive s r q.val k 0xD fun s => s.mgmt r m)

/-- The register an SMBus command byte selects (R435). -/
def smbusReg (c : Nat) : Option (Nat × Nat) :=
  match c with
  | 0x01 => some (pgModule, Reg.module.glbStatus)
  | 0x02 => some (pgModule, Reg.module.moduleId0)
  | 0x03 => some (pgModule, Reg.module.moduleId0 + 4)
  | 0x04 => some (pgModule, Reg.module.moduleId0 + 8)
  | 0x05 => some (pgModule, Reg.module.moduleId0 + 12)
  | 0x10 => some (pgPower, Reg.powerGlobal.ptInputV)
  | 0x11 => some (pgPower, Reg.powerGlobal.ptInputP)
  | 0x12 => some (pgPower, Reg.powerGlobal.ptLatch)
  | 0x13 => some (pgPower, Reg.powerGlobal.ptHarnessMax)
  | 0x14 => some (pgPower, Reg.powerGlobal.ptCoolantTop)
  | 0x15 => some (pgPower, Reg.powerGlobal.ptCoolantBot)
  | 0x20 => some (pgSecurity, Reg.security.secBoot)
  | _ => none
/-- SMBUS_BLOCK_READ: a byte count of 4 and the register's value; other addresses and commands are not acknowledged, nor is a module without HB (R435). -/
def execSmbusBlockRead (a : BitVec 7) (c : Byte) (s : State) : Res :=
  .next <|
    match smbusReg c.toNat with
    | some (page, off) =>
      if a = 0x5A ∧ s.hw.boot.on = true then s.onHw fun h => h.emit (.smbus (leBytes 1 4 ++ leBytes 4 (s.word .rm page off).toNat)) else s
    | none => s

/-- The device page of a channel named by a monitor's group, channel and cluster (R403). -/
def groupPage (f : Field) (g ch cl : Nat) : Nat :=
  if g ≤ 1 then pageBase f.val 6 (1 + g) (1 + ch) else if g = 2 then pageBase f.val 6 3 (0x10 + ch)
  else if g = 3 then pageBase f.val 6 4 (0x10 + ch) else pageBase f.val cl 8 (0x10 + ch)
/-- MON_QUEUE_SAMPLE: the depth of the queue the monitor selects, unless its unit is fenced (R403). -/
def execMonQueueSample (f : Field) (m : Fin 16) (s : State) : Res :=
  .next <|
    let h := s.hw
    let pg := pgMonitor f m
    let src := h.reg (pg + Reg.monitor.monSrc)
    let sel := wbits src 8 16
    if h.blkState pg = 2 && wbits src 0 4 = 2 && monSrcOk f src then
      let k := match sel % 16 with
        | 0 | 1 => pageBase f.val 6 (1 + sel % 16) 0
        | 2 => pgPlace f
        | 3 => pgPort f
        | _ => groupPage f (bitsOf sel 4 3) (bitsOf sel 7 4) (bitsOf sel 11 3)
      let v := match sel % 16 with
        | 0 | 1 => wbits (s.word .rm k Reg.msite.msReadsOut) 0 14
        | 2 => wbits (s.word .rm k Reg.placement.pcQueue) 0 7
        | 3 => wbits (s.word .rm k Reg.port.opInbound) 0 7
        | _ => wbits (s.word .rm k Reg.mover.mvrStatus) 5 10
      if h.fencedPage k then s else { s with hw := h.monApply pg v }
    else s

end Sys2Proof.Machine
end

