-- ==== Sys2Proof/Machine/VeMem.lean ====
section
/-! DEFINITION. Memory, accumulator and update-engine instructions of the vector engines (R84, R85, R101 to R105, R113, R131 to R134, R251, R252). -/
namespace Sys2Proof.Machine

/-- Byte address of element i of a VLD, VST or VSTD within its space, modulo 2^64 (R101). -/
def VeIn.addr (c : VeIn) (i : Nat) : Nat :=
  let base : Int := (c.st.xr (veImm c.w 0 4) : Int) + signOf 18 (veImm c.w 11 18)
  let step : Int := match veImm c.w 5 2 with
    | 0 => (i : Int) * ((c.sew / 8 : Nat) : Int)
    | 1 => (i : Int) * signOf 64 (c.st.xr (veImm c.w 7 4))
    | _ => ((c.st.elem c.lanes 32 c.vs2 i : Nat) : Int)
  twos 64 (base + step)
/-- n bytes at an address lie in the space (R102). -/
def VeIn.inSpace (c : VeIn) (sp a n : Nat) : Bool := decide (a + n ≤ (veSpace c.l sp).2)
/-- The space a load or store names. -/
def VeIn.space (c : VeIn) : Nat := veImm c.w 4 1
/-- Device address of an offset in the space named. -/
def VeIn.da (c : VeIn) (a : Nat) : Nat := (veSpace c.l c.space).1 + a
/-- The exceptions of a load or store, over its active elements (R102). -/
def VeIn.addrFault (c : VeIn) : Option Nat :=
  if c.active.any fun i => !c.inSpace c.space (c.addr i) (c.sew / 8) then some 6
  else if c.active.any fun i => decide (c.addr i % (c.sew / 8) ≠ 0) then some 7
  else none
/-- Bits that VLD and VST use beside the register they load or store, by mode. -/
def ldUsed (w : VeWord) : Nat :=
  uPR + uIM 0 7 + uIM 11 18 + (if veImm w 5 2 = 1 then uIM 7 4 else 0) + (if veImm w 5 2 = 2 then uVS2 else 0)
/-- The registers a load or store names: VD or VS3, and the index vector. -/
def VeIn.memRegs (c : VeIn) (r : Nat) : List Nat := if veImm c.w 5 2 = 2 then [r, c.vs2] else [r]

/-- VLD (R101 to R103). -/
def execVld (l : VeLoc) (w : VeWord) (x : VeCheck) (s : State) : Res :=
  .next (veInstr l w x (fun c =>
    { elemRule c 0x20 (uVD + ldUsed c.w) [0, 1, 2, 3, 4, 5] (c.memRegs c.vd)
        (match c.addrFault with
         | some e => .error e
         | none => .ok (c.mapElems fun i => (memNat c.mem (c.da (c.addr i)) (c.sew / 8), 0))) with
      resv := decide (c.et ≥ 6) || decide (veImm c.w 5 2 = 3), reads := true }) s)
/-- The stores of VST and VSTD. -/
def VeIn.storeElems (c : VeIn) : List (Nat × List Byte × (Nat → WriteInfo)) :=
  c.active.map fun i => (c.da (c.addr i), leBytes (c.sew / 8) (c.get c.vs3 i), plainInfo)
/-- VST (R101, R102). -/
def execVst (l : VeLoc) (w : VeWord) (x : VeCheck) (s : State) : Res :=
  .next (veInstr l w x (fun c =>
    { elemRule c 0x21 (uVS3 + ldUsed c.w) [0, 1, 2, 3, 4, 5] (c.memRegs c.vs3)
        (match c.addrFault with
         | some e => .error e
         | none => .ok { VeOut.regs c.st 0 with stores := c.storeElems }) with
      resv := decide (c.et ≥ 6) || decide (veImm c.w 5 2 = 3) }) s)

/-- The digest fold of stored bytes, by 8-byte words (R283). -/
def digestFold (d : BitVec 64 × BitVec 64) (bytes : List Byte) : BitVec 64 × BitVec 64 :=
  (List.range ((bytes.length + 7) / 8)).foldl (fun d i =>
    let x := BitVec.ofNat 64 (leAt bytes (8 * i) 8)
    (rngMix (d.1 ^^^ x), rngMix (d.2 + x))) d
/-- Opcodes of update engines raise BAD_OPCODE elsewhere, and VLDACC and VSTACC there (R250, R251). -/
def onlyUe (c : VeIn) (r : VeRule) : VeRule := if veIsU c.l then r else { r with op := 256 }
/-- VSTD: a VST in unit mode that folds its bytes into the entry digest (R251, R283). -/
def execVstd (l : VeLoc) (w : VeWord) (x : VeCheck) (s : State) : Res :=
  .next (veInstr l w x (fun c => onlyUe c
    { elemRule c 0xF3 (uVS3 + ldUsed c.w) [0, 1, 2, 3, 4, 5] (c.memRegs c.vs3)
        (match c.addrFault, c.l with
         | some e, _ => .error e
         | none, .update f e => .ok (⟨c.st, 0, c.storeElems, none, fun h =>
             let q := h.ueAt f e
             h.setUe f e { q with digest := digestFold q.digest (c.storeElems.flatMap fun z => z.2.1) }⟩)
         | none, _ => .ok (VeOut.regs c.st 0)) with
      resv := decide (c.et ≥ 6) || decide (veImm c.w 5 2 ≠ 0) }) s)

/-- Narrow format, block size, scale format of VLDN and VSTN (R73, R104). -/
def VeIn.nFmt (c : VeIn) : FpFmt := meFmt (veImm c.w 5 3)
/-- Block size. -/
def VeIn.nBlock (c : VeIn) : Nat := blockSize (veImm c.w 8 2)
/-- E5M3 scales. -/
def VeIn.nE5 (c : VeIn) : Bool := veImm c.w 10 1 = 1
/-- A format code that names no narrow format. -/
def VeIn.nResv (c : VeIn) : Bool := decide (c.et ≥ 6) || decide (veImm c.w 5 3 < 2) || decide (veImm c.w 5 3 = 7)
/-- Address of the data, and of the scales. -/
def VeIn.nData (c : VeIn) : Nat := c.st.xr (veImm c.w 0 4)
/-- XSCL. -/
def VeIn.nScale (c : VeIn) : Nat := c.st.xr (veImm c.w 11 4)
/-- VLDN: value × block scale as FP32 (R105, R131). -/
def execVldn (l : VeLoc) (w : VeWord) (x : VeCheck) (s : State) : Res :=
  .next (veInstr l w x (fun c =>
    let f := c.nFmt
    let b := f.bits
    let lo := fun (i : Nat) => c.nData + i * b / 8
    let hi := fun (i : Nat) => c.nData + ((i + 1) * b + 7) / 8
    let bad := c.active.any fun i => decide (hi i > (veSpace c.l c.space).2) || !c.inSpace c.space (c.nScale + i / c.nBlock) 1
    { elemRule c 0x22 (uVD + uPR + uIM 0 15) [0] [c.vd]
        (if bad then .error 6
         else .ok (c.mapElems fun i =>
           let raw := bitsOf (memNat c.mem (c.da (lo i)) 2) (i * b % 8) b
           let v := narrowVal f c.nE5 (memNat c.mem (c.da (c.nScale + i / c.nBlock)) 1) raw
           fp32.ofVal v true)) with
      resv := c.nResv, reads := true }) s)
/-- The stores of VSTN and VSTNT, under a tensor scale: blocks in full, and the scales (R105, R132, R133). -/
def VeIn.nStores (c : VeIn) (t : Nat × Int) : List (Nat × List Byte × (Nat → WriteInfo)) × Nat :=
  let f := c.nFmt
  let bl := c.nBlock
  let nb := (c.vl + bl - 1) / bl
  let vals := (List.range c.vl).map fun i => fp32.decode (c.get c.vs3 i)
  let blocks := (List.range nb).map fun j =>
    let vs := (vals.drop (j * bl)).take bl
    let (sc, outs) := writeBlock f c.nE5 t vs
    (sc, outs ++ List.replicate (bl - outs.length) ⟨0, false, false, 0⟩)
  let outs := blocks.flatMap (·.2)
  ([(c.da c.nData, packBytes f.bits (outs.map (·.code)), fun i =>
      let o := outs.getD i ⟨0, false, false, 0⟩
      ⟨o.sat, o.under, some (c.nE5, (blocks.getD (i / bl) (0, [])).1)⟩),
    (c.da c.nScale, blocks.map (fun b => BitVec.ofNat 8 b.1), plainInfo)], outs.foldl (fun a o => a ||| o.flags) 0)
/-- VSTN and VSTNT leave their space. -/
def VeIn.nOut (c : VeIn) : Bool :=
  let nb := (c.vl + c.nBlock - 1) / c.nBlock
  c.vl ≠ 0 && (!c.inSpace c.space c.nData (nb * c.nBlock * c.nFmt.bits / 8) || !c.inSpace c.space c.nScale nb)
/-- VSTN: every element below VL, whatever the predicate (R105). -/
def execVstn (l : VeLoc) (w : VeWord) (x : VeCheck) (s : State) : Res :=
  .next (veInstr l w x (fun c =>
    { elemRule c 0x23 (uVS3 + uPR + uIM 0 15) [0] [c.vs3]
        (if c.nOut then .error 6
         else if c.vl = 0 then .ok (VeOut.regs c.st 0)
         else (let (z, fl) := c.nStores (1, 0); .ok { VeOut.regs c.st fl with stores := z })) with
      resv := c.nResv }) s)
/-- VSTNT: quotients x ÷ (T × s), T the FP32 value in x[XT] (R134, R251). A T that is no positive number leaves the stored bytes open: free values (notes/assumptions/1.md). -/
def execVstnt (l : VeLoc) (w : VeWord) (x : VeCheck) (s : State) : Res :=
  .next (veInstr l w x (fun c => onlyUe c
    { elemRule c 0xF5 (uVS3 + uPR + uIM 0 19) [0] [c.vs3]
        (if c.nOut then .error 6
         else if c.vl = 0 then .ok (VeOut.regs c.st 0)
         else match fp32.decode (c.st.xr (veImm c.w 15 4) % 2 ^ 32) with
           | .fin false (m + 1) e => (let (z, fl) := c.nStores (m + 1, e); .ok { VeOut.regs c.st fl with stores := z })
           | _ =>
             let z := (c.nStores (1, 0)).1.map fun p => (p.1, (List.range p.2.1.length).map (fun i => BitVec.ofNat 8 (Config.freeValue (c.h.freeCtr + i)).toNat), p.2.2)
             .ok ⟨c.st, 0, z, none, fun h => { h with freeCtr := h.freeCtr + c.vl }⟩) with
      resv := c.nResv }) s)

/-- VLDP and VSTP: predicate bits 0 to VL − 1, packed, in unit mode (R119). -/
def VeIn.pOut (c : VeIn) : Bool := c.vl ≠ 0 && !c.inSpace c.space (c.addr 0) ((c.vl + 7) / 8)
/-- VLDP. -/
def execVldp (l : VeLoc) (w : VeWord) (x : VeCheck) (s : State) : Res :=
  .next (veInstr l w x (fun c =>
    { ctlRule 0x24 (uPD + uIM 0 7 + uIM 11 18)
        (if c.pOut then .error 6
         else
           let v := memNat c.mem (c.da (c.addr 0)) ((c.vl + 7) / 8)
           .ok (VeOut.regs ((List.range c.vl).foldl (fun st i => st.setPb (veF c.w 8 3) i (bitOf v i)) c.st) 0)) with
      resv := decide (veImm c.w 5 2 ≠ 0), reads := true }) s)
/-- VSTP: the predicate register that VS3 names; bits of the last byte at or above VL stay. -/
def execVstp (l : VeLoc) (w : VeWord) (x : VeCheck) (s : State) : Res :=
  .next (veInstr l w x (fun c =>
    { ctlRule 0x25 (0x7 <<< 23 + uIM 0 7 + uIM 11 18)
        (if c.pOut then .error 6
         else if c.vl = 0 then .ok (VeOut.regs c.st 0)
         else
           let n := (c.vl + 7) / 8
           let old := memNat c.mem (c.da (c.addr 0)) n
           let v := (List.range c.vl).foldl (fun v i => withBits v i 1 (b2n (c.st.pb (veF c.w 23 3) i))) old
           .ok { VeOut.regs c.st 0 with stores := [(c.da (c.addr 0), leBytes n v, plainInfo)] }) with
      resv := decide (veImm c.w 5 2 ≠ 0) }) s)

/-- The first row of VLDACC and VSTACC. -/
def VeIn.accRow (c : VeIn) : Nat := (c.st.xr (veImm c.w 4 4) + veImm c.w 8 11) % 2 ^ 64
/-- Row and column of element i: two rows to a register in a V-core VE (R84, R113). -/
def VeIn.accAt (c : VeIn) (i : Nat) : Nat × Nat := (c.accRow + i / 64, i % 64)
/-- An accumulator row past 2,047 is touched. -/
def VeIn.accOut (c : VeIn) : Bool := c.active.any fun i => decide ((c.accAt i).1 > 2047)
/-- The matrix engine that VLDACC and VSTACC name: of the M-core, or of a logical M-core of the cluster; none where its map entry is not valid (R84, R113). -/
def VeIn.accMe (c : VeIn) : Option MeLoc :=
  let e : Fin 4 := ⟨veImm c.w 0 2, Nat.mod_lt _ (by decide)⟩
  match c.l with
  | .epilogue mc => some ⟨mc, e⟩
  | .vcore vc _ => (c.h.mcoreSlot vc.cl (veImm c.w 2 2)).map fun mc => ⟨mc, e⟩
  | .update _ _ => none
/-- The fields VLDACC and VSTACC use: the logical M-core in V-core VEs only (R113). -/
def accUsed (l : VeLoc) : Nat := uPR + uIM 0 2 + uIM 4 15 + (if veIsV l then uIM 2 2 else 0)
/-- VLDACC (R84, R85, R113); a parity error of a row is marked at its ME (R65). Where no M-core hosts the logical one, the rows' values are free (notes/assumptions/1.md). -/
def execVldacc (l : VeLoc) (w : VeWord) (x : VeCheck) (s : State) : Res :=
  .next (veInstr l w x (fun c =>
    { elemRule c (if veIsU c.l then 256 else 0xE0) (uVD + accUsed c.l) [0] [c.vd]
        (if c.accOut then .error 8
         else match c.accMe with
           | some me =>
             let acc := (c.h.meAt me).acc
             let o := c.mapElems fun i => (Tab.get acc ((c.accAt i).1 * 64 + (c.accAt i).2) 0, 0)
             .ok (VeOut.also o.st fun h => if x = .accParity ∧ c.active ≠ [] then
               (match h.veOwner c.l with
                | some cl => ((h.count (me.page + Reg.me.meParityCount) 16 16 1).raise me.page 9).reportItem cl c.l.page 2
                | none => h) else h)
           | none =>
             let o := c.mapElems fun i => ((Config.freeValue (c.h.freeCtr + i)).toNat % 2 ^ 32, 0)
             .ok (VeOut.also o.st fun h => { h with freeCtr := h.freeCtr + c.vl })) with
      reads := false }) s)
/-- VSTACC: registers to accumulator rows, by the epilogue VE alone (R84, R113). -/
def execVstacc (l : VeLoc) (w : VeWord) (x : VeCheck) (s : State) : Res :=
  .next (veInstr l w x (fun c =>
    elemRule c (if veIsU c.l then 256 else 0xE1) (uVS3 + accUsed c.l) [0] [c.vs3]
        (if veIsV c.l then .error 9
         else if c.accOut then .error 8
         else match c.accMe with
           | some me => .ok (VeOut.also c.st fun h =>
               h.setMe me { h.meAt me with
                 acc := c.active.foldl (fun t i => Tab.set t ((c.accAt i).1 * 64 + (c.accAt i).2) (c.get c.vs3 i)) (h.meAt me).acc })
           | none => .ok (VeOut.regs c.st 0))) s)

/-- VLDAIF: elements of AIF blocks decoded with their exponent bytes (R142, R251). -/
def execVldaif (l : VeLoc) (w : VeWord) (x : VeCheck) (s : State) : Res :=
  .next (veInstr l w x (fun c => onlyUe c
    (let w48 := veImm c.w 8 1 = 0
     let wd := if w48 then 6 else 4
     let bb := if w48 then 384 else 256
     let a := c.st.xr (veImm c.w 0 4)
     let ex := c.st.xr (veImm c.w 4 4)
     let bad := c.active.any fun i => !c.inSpace 0 (a + i * wd) wd || !c.inSpace 0 (ex + i / 64) 1
     { elemRule c 0xF2 (uVD + uPR + uIM 0 9) [0] [c.vd]
         (if bad then .error 6
          else if c.active ≠ [] ∧ a % bb ≠ 0 then .error 7
          else
            let at0 := fun (o : Nat) => (veSpace c.l 0).1 + o
            .ok (c.mapElems fun i =>
              let o := aifDecode w48 (memNat c.mem (at0 (ex + i / 64)) 1) (memNat c.mem (at0 (a + i * wd)) wd)
              (o.code, o.flags))) with
       reads := true })) s)

/-- A channel of the field's sites by an update engine's IMM: 16 × site + channel. -/
def ueChannel (f : Field) (k : Nat) : MvLoc := .site ⟨(2 * f.val + k / 16) % 96, Nat.mod_lt _ (by decide)⟩ ⟨k % 16, Nat.mod_lt _ (by decide)⟩
/-- A descriptor writes into the G slot of an object (R252). -/
def Hw.hitsG (h : Hw) (f : Field) (d hd : Nat) : Bool :=
  match h.obj hd with
  | some o =>
    let slot := (h.paddockOfField f).elim 0 h.genSlot
    (descRanges d).any fun r => r.wr && r.rowAddrs.any fun a => bytesMeet ⟨a.toNat, r.len⟩ ⟨o.t1Da + slot * (o.size / 2), o.size / 2⟩
  | none => false
/-- UMVKICK: a descriptor from space 0 into SHADOW of a site's channel; xd gets the result (R251, R252). -/
def execUmvkick (l : VeLoc) (w : VeWord) (x : VeCheck) (s : State) : Res :=
  .next (veInstr l w x (fun c => onlyUe c
    { ctlRule 0xF0 (uXD + uXS1 + uIM 0 5)
        (match c.l with
         | .update f e =>
           let a := c.x1
           if !c.inSpace 0 a 96 then .error 6
           else if a % 32 ≠ 0 then .error 7
           else
             let d := memNat c.mem ((veSpace c.l 0).1 + a) 96
             let m := ueChannel f (veImm c.w 0 5)
             let guard := (c.h.ueAt f e).running.elim false fun i => c.h.hitsG f d (eF ((c.h.ucAt f).entries.getD i 0) 0 6)
             let (r, h') := if guard then (CmdRes.limit, c.h.count (c.l.page + Reg.uengine.ueMvGuard) 0 32 1) else c.h.mvLoad m d true
             .ok (VeOut.also (c.st.setXr (veF c.w 8 4) r.code) fun h =>
               ((({ h with mv := h'.mv } : Hw).setRegN (c.l.page + Reg.uengine.ueMvGuard) (h'.regN (c.l.page + Reg.uengine.ueMvGuard))).mvShow m).cmdResult (.ue f e) m.page 0x01 r)
         | _ => .ok (VeOut.regs c.st 0)) with
      resv := decide (veImm c.w 0 4 ≥ 14), reads := true }) s)
/-- UMVWAIT: xd gets the status byte of a channel's oldest record, when there is one (R228, R251). -/
def execUmvwait (l : VeLoc) (w : VeWord) (x : VeCheck) (s : State) : Res :=
  .next (veInstr l w x (fun c => onlyUe c
    { ctlRule 0xF1 (uXD + uIM 0 5)
        (match c.l with
         | .update f _ =>
           let k := veImm c.w 0 5
           .ok (VeOut.also c.st fun h => match h.mvTake (ueChannel f k) with
             | some (r, h) => h.setVe c.l ((h.veAt c.l).setXr (veF c.w 8 4) r.status)
             | none => (h.setVe c.l { h.veAt c.l with umWait := some (k, veF c.w 8 4) }).veShow c.l true)
         | _ => .ok (VeOut.regs c.st 0)) with
      resv := decide (veImm c.w 0 4 ≥ 14) }) s)
/-- UCALRD: a word of a group's hyperparameter record (R251, R256). -/
def execUcalrd (l : VeLoc) (w : VeWord) (x : VeCheck) (s : State) : Res :=
  .next (veInstr l w x (fun c => onlyUe c
    (ctlRule 0xF4 (uXD + uIM 0 10) (c.setX (match c.l with
      | .update f _ => Tab.get (c.h.ucAt f).records (veImm c.w 4 6 * 16 + veImm c.w 0 4) 0
      | _ => 0)))) s)

end Sys2Proof.Machine
end

