-- ==== Sys2Proof/Machine/VeAlu.lean ====
section
/-! DEFINITION. Arithmetic, logic, comparison, predicate and permutation instructions of the vector engines (R98, R106 to R112). -/
namespace Sys2Proof.Machine

/-- The floating-point element types. -/
def fpTypes : List Nat := [0, 1, 2, 3]
/-- The integer element types. -/
def intTypes : List Nat := [4, 5]
/-- All element types. -/
def allTypes : List Nat := [0, 1, 2, 3, 4, 5]
/-- Registers of a two-source operation. -/
def VeIn.regs2 (c : VeIn) : List Nat := if c.vx then [c.vd, c.vs1] else [c.vd, c.vs1, c.vs2]

/-- vd ← f(vs1, vs2), for floating-point types. -/
def fp2 (op : Nat) (f : FpFmt → Nat → Nat → Nat × Nat) (c : VeIn) : VeRule :=
  elemRule c op (uVD + uVS1 + uPR + uVX c.w) fpTypes c.regs2 (.ok (c.mapElems fun i => f (etFmt c.et) (c.get c.vs1 i) (c.get2 i)))
/-- vd ← f(vs1), for floating-point types. -/
def fp1 (op : Nat) (f : FpFmt → Nat → Nat × Nat) (c : VeIn) : VeRule :=
  elemRule c op (uVD + uVS1 + uPR) fpTypes [c.vd, c.vs1] (.ok (c.mapElems fun i => f (etFmt c.et) (c.get c.vs1 i)))
/-- vd ← ± vs1 × vs2 ± vs3, rounded once. -/
def fp3 (op : Nat) (negP negC : Bool) (c : VeIn) : VeRule :=
  elemRule c op (uVD + uVS1 + uVS3 + uPR + uVX c.w) fpTypes (c.vs3 :: c.regs2)
    (.ok (c.mapElems fun i => (etFmt c.et).fma (c.get c.vs1 i) (c.get2 i) (c.get c.vs3 i) negP negC))
/-- VFADD. -/
def execVfadd (l : VeLoc) (w : VeWord) (x : VeCheck) (s : State) : Res := .next (veInstr l w x (fp2 0x40 fun f => f.add) s)
/-- VFSUB. -/
def execVfsub (l : VeLoc) (w : VeWord) (x : VeCheck) (s : State) : Res := .next (veInstr l w x (fp2 0x41 fun f => f.sub) s)
/-- VFMUL. -/
def execVfmul (l : VeLoc) (w : VeWord) (x : VeCheck) (s : State) : Res := .next (veInstr l w x (fp2 0x42 fun f => f.mul) s)
/-- VFMA. -/
def execVfma (l : VeLoc) (w : VeWord) (x : VeCheck) (s : State) : Res := .next (veInstr l w x (fp3 0x43 false false) s)
/-- VFMS. -/
def execVfms (l : VeLoc) (w : VeWord) (x : VeCheck) (s : State) : Res := .next (veInstr l w x (fp3 0x44 false true) s)
/-- VFNMA. -/
def execVfnma (l : VeLoc) (w : VeWord) (x : VeCheck) (s : State) : Res := .next (veInstr l w x (fp3 0x45 true false) s)
/-- VFMIN. -/
def execVfmin (l : VeLoc) (w : VeWord) (x : VeCheck) (s : State) : Res := .next (veInstr l w x (fp2 0x46 fun f => f.minc) s)
/-- VFMAX. -/
def execVfmax (l : VeLoc) (w : VeWord) (x : VeCheck) (s : State) : Res := .next (veInstr l w x (fp2 0x47 fun f => f.maxc) s)
/-- VFABS. -/
def execVfabs (l : VeLoc) (w : VeWord) (x : VeCheck) (s : State) : Res :=
  .next (veInstr l w x (fp1 0x48 fun f a => (if f.isNan a then f.nanCode else a % 2 ^ (f.bits - 1), 0)) s)
/-- VFNEG. -/
def execVfneg (l : VeLoc) (w : VeWord) (x : VeCheck) (s : State) : Res :=
  .next (veInstr l w x (fp1 0x49 fun f a => (if f.isNan a then f.nanCode else a ^^^ 2 ^ (f.bits - 1), 0)) s)
/-- VFDIV. -/
def execVfdiv (l : VeLoc) (w : VeWord) (x : VeCheck) (s : State) : Res := .next (veInstr l w x (fp2 0x4A fun f => f.div) s)
/-- VFSQRT. -/
def execVfsqrt (l : VeLoc) (w : VeWord) (x : VeCheck) (s : State) : Res := .next (veInstr l w x (fp1 0x4B fun f => f.sqrt) s)

/-- vd ← f(vs1, vs2) on 32-bit integers (R98). -/
def int2 (op : Nat) (f : Bool → Nat → Nat → Nat) (c : VeIn) : VeRule :=
  elemRule c op (uVD + uVS1 + uPR + uVX c.w) intTypes c.regs2 (.ok (c.mapElems fun i => (f (decide (c.et = 4)) (c.get c.vs1 i) (c.get2 i), 0)))
/-- VADD. -/
def execVadd (l : VeLoc) (w : VeWord) (x : VeCheck) (s : State) : Res := .next (veInstr l w x (int2 0x60 fun _ a b => a + b) s)
/-- VSUB. -/
def execVsub (l : VeLoc) (w : VeWord) (x : VeCheck) (s : State) : Res := .next (veInstr l w x (int2 0x61 fun _ a b => a + 2 ^ 32 - b) s)
/-- VMUL. -/
def execVmul (l : VeLoc) (w : VeWord) (x : VeCheck) (s : State) : Res := .next (veInstr l w x (int2 0x62 fun _ a b => a * b) s)
/-- VAND. -/
def execVand (l : VeLoc) (w : VeWord) (x : VeCheck) (s : State) : Res := .next (veInstr l w x (int2 0x63 fun _ a b => a &&& b) s)
/-- VOR. -/
def execVor (l : VeLoc) (w : VeWord) (x : VeCheck) (s : State) : Res := .next (veInstr l w x (int2 0x64 fun _ a b => a ||| b) s)
/-- VXOR. -/
def execVxor (l : VeLoc) (w : VeWord) (x : VeCheck) (s : State) : Res := .next (veInstr l w x (int2 0x65 fun _ a b => a ^^^ b) s)
/-- A shift; the manual gives no result for an amount of 32 or more: a free value for each such element (notes/assumptions/1.md). -/
def shiftRule (op : Nat) (f : Nat → Nat → Nat) (c : VeIn) : VeRule :=
  elemRule c op (uVD + uVS1 + uPR + uVX c.w) intTypes c.regs2
    (let o := c.mapElems fun i => (if c.get2 i < 32 then f (c.get c.vs1 i) (c.get2 i) else (Config.freeValue (c.h.freeCtr + i)).toNat % 2 ^ 32, 0)
     .ok (VeOut.also o.st fun h => if c.active.any fun i => decide (c.get2 i ≥ 32) then { h with freeCtr := h.freeCtr + c.vl } else h))
/-- VSLL. -/
def execVsll (l : VeLoc) (w : VeWord) (x : VeCheck) (s : State) : Res := .next (veInstr l w x (shiftRule 0x66 fun a n => a <<< n) s)
/-- VSRL. -/
def execVsrl (l : VeLoc) (w : VeWord) (x : VeCheck) (s : State) : Res := .next (veInstr l w x (shiftRule 0x67 fun a n => a >>> n) s)
/-- VSRA. -/
def execVsra (l : VeLoc) (w : VeWord) (x : VeCheck) (s : State) : Res :=
  .next (veInstr l w x (shiftRule 0x68 fun a n => twos 32 (signOf 32 a / 2 ^ n)) s)
/-- The order of integers of a type. -/
def intLe (sgn : Bool) (a b : Nat) : Bool := if sgn then decide (signOf 32 a ≤ signOf 32 b) else decide (a ≤ b)
/-- VMIN. -/
def execVmin (l : VeLoc) (w : VeWord) (x : VeCheck) (s : State) : Res := .next (veInstr l w x (int2 0x69 fun g a b => if intLe g a b then a else b) s)
/-- VMAX. -/
def execVmax (l : VeLoc) (w : VeWord) (x : VeCheck) (s : State) : Res := .next (veInstr l w x (int2 0x6A fun g a b => if intLe g a b then b else a) s)
/-- VMERGE: for every element below VL, by the predicate's bit as it is (R120). -/
def execVmerge (l : VeLoc) (w : VeWord) (x : VeCheck) (s : State) : Res :=
  .next (veInstr l w x (fun c => elemRule c 0x6B (uVD + uVS1 + uPR + uVX c.w) allTypes c.regs2
    (.ok (VeOut.regs ((List.range c.vl).foldl (fun st i =>
      st.setElem c.lanes c.sew c.vd i (if c.st.pb (veF c.w 28 3) i then c.get c.vs1 i else c.get2 i)) c.st) 0))) s)
/-- VIOTA. -/
def execViota (l : VeLoc) (w : VeWord) (x : VeCheck) (s : State) : Res :=
  .next (veInstr l w x (fun c => elemRule c 0x6C (uVD + uPR) allTypes [c.vd] (.ok (c.mapElems fun i => (i, 0)))) s)
/-- VMV. -/
def execVmv (l : VeLoc) (w : VeWord) (x : VeCheck) (s : State) : Res :=
  .next (veInstr l w x (fun c => elemRule c 0x6D (uVD + uVS1 + uPR) allTypes [c.vd, c.vs1] (.ok (c.mapElems fun i => (c.get c.vs1 i, 0)))) s)

/-- A comparison of elements of a type: FP with NaN unordered, integers by sign (R98). -/
def cmpElem (t : Nat) (lt eq : Bool) (a b : Nat) : Bool :=
  if etInt t then (lt && intLe (decide (t = 4)) a b && decide (a ≠ b)) || (eq && decide (a = b))
  else
    let f := etFmt t
    !(f.isNan a || f.isNan b) && ((lt && decide (f.vkey a < f.vkey b)) || (eq && decide (f.vkey a = f.vkey b)))
/-- pd bit i ← comparison, for active elements. -/
def cmpRule (op : Nat) (f : Nat → Nat → Nat → Bool) (c : VeIn) : VeRule :=
  elemRule c op (uPD + uVS1 + uPR + uVX c.w) allTypes (if c.vx then [c.vs1] else [c.vs1, c.vs2])
    (.ok (VeOut.regs (c.active.foldl (fun st i => st.setPb (veF c.w 8 3) i (f c.et (c.get c.vs1 i) (c.get2 i))) c.st) 0))
/-- VCMPEQ. -/
def execVcmpeq (l : VeLoc) (w : VeWord) (x : VeCheck) (s : State) : Res := .next (veInstr l w x (cmpRule 0x80 fun t => cmpElem t false true) s)
/-- VCMPNE, true for NaN. -/
def execVcmpne (l : VeLoc) (w : VeWord) (x : VeCheck) (s : State) : Res := .next (veInstr l w x (cmpRule 0x81 fun t a b => !cmpElem t false true a b) s)
/-- VCMPLT. -/
def execVcmplt (l : VeLoc) (w : VeWord) (x : VeCheck) (s : State) : Res := .next (veInstr l w x (cmpRule 0x82 fun t => cmpElem t true false) s)
/-- VCMPLE. -/
def execVcmple (l : VeLoc) (w : VeWord) (x : VeCheck) (s : State) : Res := .next (veInstr l w x (cmpRule 0x83 fun t => cmpElem t true true) s)

/-- Predicate logic on bits below VL. -/
def predRule (op used : Nat) (f : Bool → Bool → Bool) (c : VeIn) : VeRule :=
  ctlRule op (uPD + uPS1 + used)
    (.ok (VeOut.regs ((List.range c.vl).foldl (fun st i => st.setPb (veF c.w 8 3) i (f (c.st.pb (veF c.w 13 3) i) (c.st.pb (veF c.w 18 3) i))) c.st) 0))
/-- PAND. -/
def execPand (l : VeLoc) (w : VeWord) (x : VeCheck) (s : State) : Res := .next (veInstr l w x (predRule 0x88 uPS2 fun a b => a && b) s)
/-- POR. -/
def execPor (l : VeLoc) (w : VeWord) (x : VeCheck) (s : State) : Res := .next (veInstr l w x (predRule 0x89 uPS2 fun a b => a || b) s)
/-- PXOR. -/
def execPxor (l : VeLoc) (w : VeWord) (x : VeCheck) (s : State) : Res := .next (veInstr l w x (predRule 0x8A uPS2 fun a b => a != b) s)
/-- PNOT. -/
def execPnot (l : VeLoc) (w : VeWord) (x : VeCheck) (s : State) : Res := .next (veInstr l w x (predRule 0x8B 0 fun a _ => !a) s)
/-- PPOPC: set bits below VL. -/
def execPpopc (l : VeLoc) (w : VeWord) (x : VeCheck) (s : State) : Res :=
  .next (veInstr l w x (fun c => ctlRule 0x8C (uXD + uPS1) (c.setX ((List.range c.vl).countP fun i => c.st.pb (veF c.w 13 3) i))) s)
/-- PFIRST: the first set bit below VL, or 0xFFFF_FFFF. -/
def execPfirst (l : VeLoc) (w : VeWord) (x : VeCheck) (s : State) : Res :=
  .next (veInstr l w x (fun c => ctlRule 0x8D (uXD + uPS1) (c.setX (((List.range c.vl).find? fun i => c.st.pb (veF c.w 13 3) i).getD 0xFFFFFFFF))) s)

/-- Two spans of g registers meet (R109). -/
def VeIn.meet (c : VeIn) (a b : Nat) : Bool := decide (a < b + c.g) && decide (b < a + c.g)
/-- A permutation: its destination overlaps no source (R109). -/
def permRule (c : VeIn) (op used : Nat) (srcs : List Nat) (body : VeOut) : VeRule :=
  { elemRule c op (uVD + uVS1 + uPR + used) allTypes (c.vd :: srcs) (.ok body) with overlap := srcs.any fun r => c.meet c.vd r }
/-- VCOMPRESS (R106); its count register is 0 at VL 0 (R95). -/
def execVcompress (l : VeLoc) (w : VeWord) (x : VeCheck) (s : State) : Res :=
  .next (veInstr l w x (fun c =>
    let a := c.active
    let st := (List.range a.length).foldl (fun st k => st.setElem c.lanes c.sew c.vd k (c.get c.vs1 (a.getD k 0))) c.st
    permRule c 0xA0 (uIM 0 4) [c.vs1] (VeOut.regs (st.setXr (veImm c.w 0 4) a.length) 0)) s)
/-- VEXPAND (R107). -/
def execVexpand (l : VeLoc) (w : VeWord) (x : VeCheck) (s : State) : Res :=
  .next (veInstr l w x (fun c =>
    let a := c.active
    permRule c 0xA1 0 [c.vs1] (VeOut.regs ((List.range a.length).foldl (fun st k => st.setElem c.lanes c.sew c.vd (a.getD k 0) (c.get c.vs1 k)) c.st) 0)) s)
/-- VSLIDEUP (R108). -/
def execVslideup (l : VeLoc) (w : VeWord) (x : VeCheck) (s : State) : Res :=
  .next (veInstr l w x (fun c =>
    let n := c.x2
    permRule c 0xA2 uXS2 [c.vs1] (VeOut.regs ((c.active.filter fun i => decide (n ≤ i)).foldl (fun st i => st.setElem c.lanes c.sew c.vd i (c.get c.vs1 (i - n))) c.st) 0)) s)
/-- VSLIDEDN (R108). -/
def execVslidedn (l : VeLoc) (w : VeWord) (x : VeCheck) (s : State) : Res :=
  .next (veInstr l w x (fun c =>
    let n := c.x2
    permRule c 0xA3 uXS2 [c.vs1] (c.mapElems fun i => (if i + n < c.vl then c.get c.vs1 (i + n) else 0, 0))) s)
/-- VRGATHER: an index at or above VL gives 0 and sets IDX_RANGE (R108). The index has the element's width. -/
def execVrgather (l : VeLoc) (w : VeWord) (x : VeCheck) (s : State) : Res :=
  .next (veInstr l w x (fun c =>
    permRule c 0xA4 uVS2 [c.vs1, c.vs2] (c.mapElems fun i =>
      if c.get c.vs2 i < c.vl then (c.get c.vs1 (c.get c.vs2 i), 0) else (0, 64))) s)

/-- One level of pairwise reduction (R110). -/
def pairLevel (f : Nat → Nat → Nat × Nat) : List Nat → List Nat × Nat
  | a :: b :: r => let (v, fl) := f a b; let (rs, fs) := pairLevel f r; (v :: rs, fl ||| fs)
  | r => (r, 0)
/-- Pairwise levels until one element is left; fuel is the length. -/
def pairReduce (f : Nat → Nat → Nat × Nat) : Nat → List Nat → Nat → Nat × Nat
  | _, [], fl => (0, fl)
  | _, [a], fl => (a, fl)
  | 0, a :: _, fl => (a, fl)
  | n + 1, l, fl => let (r, fs) := pairLevel f l; pairReduce f n r (fl ||| fs)
/-- A reduction: element 0 of vd; on no active element the identity and EMPTY (R110, R111). -/
def redRule (op : Nat) (ts : List Nat) (empty : Nat → Nat) (f : VeIn → List Nat → Nat × Nat) (c : VeIn) : VeRule :=
  elemRule c op (uVD + uVS1 + uPR) ts [c.vd, c.vs1]
    (let a := c.active
     let (v, fl) := if a.isEmpty then (empty c.et, 32) else f c a
     .ok (VeOut.regs (c.st.setElem c.lanes c.sew c.vd 0 v) fl))
/-- A sum or product: FP pairwise, 16-bit types in FP32 with one rounding at the end; integers wrap (R110). -/
def foldRed (ff : FpFmt → Nat → Nat → Nat × Nat) (fi : Nat → Nat → Nat) (c : VeIn) (a : List Nat) : Nat × Nat :=
  let vs := a.map fun i => c.get c.vs1 i
  if etInt c.et then pairReduce (fun x y => (fi x y % 2 ^ 32, 0)) vs.length vs 0
  else
    let t := etFmt c.et
    if c.sew = 16 then
      let (r, fl) := pairReduce (ff fp32) vs.length (vs.map fun v => (t.convert fp32 v).1) 0
      let (v, f2) := fp32.convert t r
      (v, fl ||| f2)
    else
      let (r, fl) := pairReduce (ff t) vs.length vs 0
      (if t.isNan r then t.nanCode else r, fl)
/-- VREDSUM. -/
def execVredsum (l : VeLoc) (w : VeWord) (x : VeCheck) (s : State) : Res :=
  .next (veInstr l w x (redRule 0xB0 allTypes (fun _ => 0) (foldRed (fun f => f.add) fun a b => a + b)) s)
/-- 1.0 of a floating-point type. -/
def fpOne (f : FpFmt) : Nat := f.bias * 2 ^ f.wf
/-- VREDPROD. -/
def execVredprod (l : VeLoc) (w : VeWord) (x : VeCheck) (s : State) : Res :=
  .next (veInstr l w x (redRule 0xB1 allTypes (fun t => if etInt t then 1 else fpOne (etFmt t)) (foldRed (fun f => f.mul) fun a b => a * b)) s)
/-- The largest or smallest active element, NaN first; its index (R112). -/
def extreme (big : Bool) (c : VeIn) (a : List Nat) : Nat × Nat :=
  let t := etFmt c.et
  let v := fun i => c.get c.vs1 i
  let better := fun i j => if etInt c.et then (if big then !intLe (decide (c.et = 4)) (v i) (v j) else !intLe (decide (c.et = 4)) (v j) (v i))
    else if big then decide (t.key (v i) > t.key (v j)) else decide (t.key (v i) < t.key (v j))
  match (if etInt c.et then none else a.find? fun i => t.isNan (v i)) with
  | some i => (t.nanCode, i)
  | none =>
    let i := a.foldl (fun b i => if better i b then i else b) (a.headD 0)
    (v i, i)
/-- VREDMAX. -/
def execVredmax (l : VeLoc) (w : VeWord) (x : VeCheck) (s : State) : Res :=
  .next (veInstr l w x (redRule 0xB2 allTypes (fun t => if t = 4 then 0x80000000 else if t = 5 then 0 else (etFmt t).signCode true + (etFmt t).infMag)
    fun c a => ((extreme true c a).1, 0)) s)
/-- VREDMIN. -/
def execVredmin (l : VeLoc) (w : VeWord) (x : VeCheck) (s : State) : Res :=
  .next (veInstr l w x (redRule 0xB3 allTypes (fun t => if t = 4 then 0x7FFFFFFF else if t = 5 then 0xFFFFFFFF else (etFmt t).infMag)
    fun c a => ((extreme false c a).1, 0)) s)
/-- VREDARGMAX: SEW 32 or 64 (R112). -/
def execVredargmax (l : VeLoc) (w : VeWord) (x : VeCheck) (s : State) : Res :=
  .next (veInstr l w x (redRule 0xB4 [0, 3, 4, 5] (fun _ => 0xFFFFFFFF) fun c a => ((extreme true c a).2, 0)) s)
/-- VREDARGMIN. -/
def execVredargmin (l : VeLoc) (w : VeWord) (x : VeCheck) (s : State) : Res :=
  .next (veInstr l w x (redRule 0xB5 [0, 3, 4, 5] (fun _ => 0xFFFFFFFF) fun c a => ((extreme false c a).2, 0)) s)
/-- VREDAND: integer types (R112). -/
def execVredand (l : VeLoc) (w : VeWord) (x : VeCheck) (s : State) : Res :=
  .next (veInstr l w x (redRule 0xB6 intTypes (fun _ => 0xFFFFFFFF) (foldRed (fun f => f.add) fun a b => a &&& b)) s)
/-- VREDOR. -/
def execVredor (l : VeLoc) (w : VeWord) (x : VeCheck) (s : State) : Res :=
  .next (veInstr l w x (redRule 0xB7 intTypes (fun _ => 0) (foldRed (fun f => f.add) fun a b => a ||| b)) s)

end Sys2Proof.Machine
end

