-- ==== Sys2Proof/Machine/VeConv.lean ====
section
/-! DEFINITION. Conversions, the split, random draws and the transcendental functions of the vector engines (R87, R99, R100, R116, R117). -/
namespace Sys2Proof.Machine

/-- Conversions that exist (R99, R136): source and destination type. -/
def cvtPairs : List (Nat × Nat) :=
  [(3, 0), (3, 1), (3, 2), (0, 1), (0, 2), (0, 0), (1, 0), (2, 0), (0, 3), (1, 3), (2, 3),
   (0, 4), (1, 4), (2, 4), (3, 4), (0, 5), (1, 5), (2, 5), (3, 5), (4, 0), (4, 1), (4, 2), (4, 3)]
/-- One element converted. -/
def cvtElem (src dst a : Nat) (rtz : Bool) : Nat × Nat :=
  if etInt dst then (etFmt src).toInt32 a rtz (decide (dst = 4))
  else if etInt src then (etFmt dst).ofInt (signOf 32 a)
  else (etFmt src).convert (etFmt dst) a
/-- VCVT: VTYPE describes the wider operand (R91, R99). -/
def execVcvt (l : VeLoc) (w : VeWord) (x : VeCheck) (s : State) : Res :=
  .next (veInstr l w x (fun c =>
    let src := veImm c.w 1 3
    let dst := c.et
    let sb := etBits src
    let db := etBits dst
    let st := c.active.foldl (fun (a : VeState × Nat) i =>
      let (v, fl) := cvtElem src dst (c.st.elem c.lanes sb c.vs1 i) (bitOf c.w.toNat 39)
      (a.1.setElem c.lanes db c.vd i v, a.2 ||| fl)) (c.st, 0)
    { op := 0xC0
      used := uVD + uVS1 + uPR + uET + uIM 1 3 + (if etInt dst then uIM 4 1 else 0)
      resv := decide (c.et ≥ 6) || decide (src ≥ 6)
      badType := !cvtPairs.contains (src, dst) || !etHere c.l src || !etHere c.l dst || decide (max sb db ≠ c.sew)
      badAlign := decide (c.vd % c.narrowSpan db ≠ 0) || decide (c.vs1 % c.narrowSpan sb ≠ 0)
      overlap := false
      reads := false
      body := .ok (VeOut.regs st.1 st.2) }) s)

/-- The hi and lo planes of an FP32 value (R87), with flags. -/
def splitElem (a : Nat) : Nat × Nat × Nat :=
  match fp32.decode a with
  | .nan => (bf16.nanCode, 0, 0)
  | .inf s => (bf16.signCode s + bf16.infMag, 0, 0)
  | .fin .. =>
    let (h0, f0) := fp32.convert bf16 a
    let exceeds := decide (h0 % 2 ^ 15 = bf16.infMag)
    let hi := if exceeds then a >>> 16 else h0
    let (lo, f1) := fp32.convert bf16 (fp32.sub a (hi <<< 16)).1
    (hi, lo, (if exceeds then 0 else f0) ||| f1)
/-- VSPLIT: hi to VD, lo to VS3 (R87, R100). -/
def execVsplit (l : VeLoc) (w : VeWord) (x : VeCheck) (s : State) : Res :=
  .next (veInstr l w x (fun c =>
    let st := c.active.foldl (fun (a : VeState × Nat) i =>
      let (hi, lo, fl) := splitElem (c.get c.vs1 i)
      ((a.1.setElem c.lanes 16 c.vd i hi).setElem c.lanes 16 c.vs3 i lo, a.2 ||| fl)) (c.st, 0)
    let ns := c.narrowSpan 16
    { elemRule c 0xC1 (uVD + uVS1 + uVS3 + uPR) [0] [c.vs1] (.ok (VeOut.regs st.1 st.2)) with
      badAlign := decide (c.vs1 % c.g ≠ 0) || decide (c.vd % ns ≠ 0) || decide (c.vs3 % ns ≠ 0) }) s)

/-- The paddock whose plan a VE works for. -/
def Hw.vePaddock (h : Hw) (l : VeLoc) : Option Paddock :=
  match h.veOwner l with
  | some cl => h.paddockOfCluster cl
  | none => h.paddockOfField (veField l)
/-- VRAND: 32 bits per element, keyed by seed, step, xs1 and xs2 + i (R100, R143, R144). -/
def execVrand (l : VeLoc) (w : VeWord) (x : VeCheck) (s : State) : Res :=
  .next (veInstr l w x (fun c =>
    let (seed, step) := match c.h.vePaddock c.l with
      | some n => ((c.h.pad n).seed, c.h.reg64 (pgCommit n + Reg.stepCommit.stepCommittedLo) + 1)
      | none => ((Config.freeValue c.h.freeCtr).toNat, 0)
    elemRule c 0xC2 (uVD + uXS1 + uXS2 + uPR) [0, 4, 5] [c.vd]
      (.ok (c.mapElems fun i => ((rngGen (BitVec.ofNat 64 seed) (BitVec.ofNat 64 step) (BitVec.ofNat 64 (c.x1 % 2 ^ 32)) (BitVec.ofNat 64 (c.x2 + i))).toNat, 0)))) s)

/-- A table coefficient as a value (R116, R118). -/
def ttVal (fn i k : Nat) : FpVal := fp32.decode (Config.ttCoeff fn i k).toNat
/-- a × b + c of values, rounded once to FP32, as a value. -/
def fmaVal (a b c : FpVal) : FpVal := fp32.decode (fp32.sum (a.mul b) c true).1
/-- The polynomial of an entry at a reduced argument d × 2^e: two FMAs (R116). -/
def ttEval (fn i d : Nat) (e : Int) : FpVal :=
  let v : FpVal := .fin false d e
  fmaVal v (fmaVal v (ttVal fn i 2) (ttVal fn i 1)) (ttVal fn i 0)
/-- A value scaled by 2^k, with a sign, rounded once to FP32. -/
def scaled (v : FpVal) (neg : Bool) (k : Int) : Nat × Nat :=
  match v with
  | .fin s m e => fp32.round (s != neg) m 1 (e + k)
  | .inf s => (fp32.signCode (s != neg) + fp32.infMag, 0)
  | .nan => (fp32.nanCode, 0)
/-- Exponent and 24-bit significand of a positive finite value (R116). -/
def normal24 (m : Nat) (e : Int) : Int × Nat :=
  let k := log2Q m 1
  (k + e, m * 2 ^ (23 - k).toNat)

/-- recip, function 3. -/
def ttRecip (a : Nat) : Nat × Nat :=
  match fp32.decode a with
  | .nan => (fp32.nanCode, 0)
  | .inf s => (fp32.signCode s, 0)
  | .fin s m e =>
    if m = 0 then (fp32.signCode s + fp32.infMag, vDZ)
    else
      let (k, sig) := normal24 m e
      let i := (sig - 2 ^ 23) >>> 16
      scaled (ttEval 3 i ((sig - 2 ^ 23) % 2 ^ 16) (-23)) s (-k)
/-- rsqrt, function 2. -/
def ttRsqrt (a : Nat) : Nat × Nat :=
  match fp32.decode a with
  | .nan => (fp32.nanCode, 0)
  | .inf s => if s then (fp32.nanCode, vNV) else (0, 0)
  | .fin s m e =>
    if m = 0 then (fp32.signCode s + fp32.infMag, vDZ)
    else if s then (fp32.nanCode, vNV)
    else
      let (k, sig) := normal24 m e
      let odd := decide (k % 2 ≠ 0)
      let j := (sig - 2 ^ 23) >>> 17
      let k' := if odd then k - 1 else k
      scaled (ttEval 2 (64 * b2n odd + j) ((sig - 2 ^ 23) % 2 ^ 17) (if odd then -22 else -23)) false (-(k' / 2))
/-- log2, function 1: the exact sum e + y rounded once. -/
def ttLog2 (a : Nat) : Nat × Nat :=
  match fp32.decode a with
  | .nan => (fp32.nanCode, 0)
  | .inf s => if s then (fp32.nanCode, vNV) else (fp32.infMag, 0)
  | .fin s m e =>
    if m = 0 then (fp32.signCode true + fp32.infMag, vDZ)
    else if s then (fp32.nanCode, vNV)
    else if a = 0x3F800000 then (0, 0)
    else
      let (k, sig) := normal24 m e
      fp32.sum (.fin (decide (k < 0)) k.natAbs 0) (ttEval 1 ((sig - 2 ^ 23) >>> 16) ((sig - 2 ^ 23) % 2 ^ 16) (-23)) true
/-- exp2, function 0: n = ⌊x⌋, r = x − n. -/
def ttExp2 (a : Nat) : Nat × Nat :=
  match fp32.decode a with
  | .nan => (fp32.nanCode, 0)
  | .inf s => (if s then 0 else fp32.infMag, 0)
  | .fin s m e =>
    let x := sgnInt s m
    let sh := (max 0 (-e)).toNat
    let num : Int := x * ((2 ^ (max 0 e).toNat : Nat) : Int)
    let den : Int := ((2 ^ sh : Nat) : Int)
    if num ≥ 128 * den then (fp32.infMag, vOF)
    else if num < -152 * den then (0, vUF)
    else
      let n := num / den
      let r := (num - n * den).toNat
      let i := 128 * r / 2 ^ sh
      scaled (ttEval 0 i (128 * r - i * 2 ^ sh) (-(sh : Int) - 7)) false n
/-- tanh, function 4. -/
def ttTanh (a : Nat) : Nat × Nat :=
  match fp32.decode a with
  | .nan => (fp32.nanCode, 0)
  | .inf s => (fp32.signCode s + fpOne fp32, 0)
  | .fin s m e =>
    if m = 0 then (a, 0)
    else
      let (k, sig) := normal24 m e
      if k < -12 then (a, if fp32.tiny m 1 e then vUF else 0)
      else if dyLe 9 0 m e then (fp32.signCode s + fpOne fp32, 0)
      else
        let j := (sig - 2 ^ 23) >>> 19
        scaled (ttEval 4 (16 * (k + 12).toNat + j) ((sig - 2 ^ 23) % 2 ^ 19) (k - 23)) s 0
/-- A transcendental of an element: 16-bit inputs go through FP32 and are rounded once more (R116). -/
def transRule (op : Nat) (f : Nat → Nat × Nat) (c : VeIn) : VeRule :=
  elemRule c op (uVD + uVS1 + uPR) [0, 1, 2] [c.vd, c.vs1]
    (.ok (c.mapElems fun i =>
      let a := c.get c.vs1 i
      if c.et = 0 then f a
      else
        let (v, fl) := f ((etFmt c.et).convert fp32 a).1
        let (r, f2) := fp32.convert (etFmt c.et) v
        (r, fl ||| f2)))
/-- VEXP2. -/
def execVexp2 (l : VeLoc) (w : VeWord) (x : VeCheck) (s : State) : Res := .next (veInstr l w x (transRule 0xC8 ttExp2) s)
/-- VLOG2. -/
def execVlog2 (l : VeLoc) (w : VeWord) (x : VeCheck) (s : State) : Res := .next (veInstr l w x (transRule 0xC9 ttLog2) s)
/-- VRSQRT. -/
def execVrsqrt (l : VeLoc) (w : VeWord) (x : VeCheck) (s : State) : Res := .next (veInstr l w x (transRule 0xCA ttRsqrt) s)
/-- VRECIP. -/
def execVrecip (l : VeLoc) (w : VeWord) (x : VeCheck) (s : State) : Res := .next (veInstr l w x (transRule 0xCB ttRecip) s)
/-- VTANH. -/
def execVtanh (l : VeLoc) (w : VeWord) (x : VeCheck) (s : State) : Res := .next (veInstr l w x (transRule 0xCC ttTanh) s)

end Sys2Proof.Machine
end

