-- ==== Sys2Proof/Machine/Dispatch.lean ====
section
/-! DEFINITION. One arm per command: each calls its meaning. -/
namespace Sys2Proof.Machine

def exec (i : Instr) (s : State) : Host.Outcome State Fault Refusal :=
  match i with
  | .registerWrite p a n v => Sys2Proof.Machine.execRegisterWrite p a n v s
  | .subwordRead p a n => Sys2Proof.Machine.execSubwordRead p a n s
  | .loRead p a => Sys2Proof.Machine.execLoRead p a s
  | .hiRead p a => Sys2Proof.Machine.execHiRead p a s
  | .loWrite p a v => Sys2Proof.Machine.execLoWrite p a v s
  | .hiWrite p a v => Sys2Proof.Machine.execHiWrite p a v s
  | .blkEventClear p a v hw => Sys2Proof.Machine.execBlkEventClear p a v hw s
  | .blkEventForce p a v => Sys2Proof.Machine.execBlkEventForce p a v s
  | .resetReq p a => Sys2Proof.Machine.execResetReq p a s
  | .tick => Sys2Proof.Machine.execTick s
  | .setPeriod p => Sys2Proof.Machine.execSetPeriod p s
  | .periodApply => Sys2Proof.Machine.execPeriodApply s
  | .stretchRequest l => Sys2Proof.Machine.execStretchRequest l s
  | .tickFlitOriginate => Sys2Proof.Machine.execTickFlitOriginate s
  | .planTakeUp n => Sys2Proof.Machine.execPlanTakeUp n s
  | .itemBegin l j0 => Sys2Proof.Machine.execItemBegin l j0 s
  | .stickWait l rd a => Sys2Proof.Machine.execStickWait l rd a s
  | .stickWaitDone l => Sys2Proof.Machine.execStickWaitDone l s
  | .stickRead l rd k => Sys2Proof.Machine.execStickRead l rd k s
  | .stokWait l rd a b => Sys2Proof.Machine.execStokWait l rd a b s
  | .stokWaitDone l => Sys2Proof.Machine.execStokWaitDone l s
  | .stokSig l rd a b => Sys2Proof.Machine.execStokSig l rd a b s
  | .sitemBegin l a j0 => Sys2Proof.Machine.execSitemBegin l a j0 s
  | .sitemEnd l rd => Sys2Proof.Machine.execSitemEnd l rd s
  | .smvKick l rd a b => Sys2Proof.Machine.execSmvKick l rd a b s
  | .smvWait l rd a => Sys2Proof.Machine.execSmvWait l rd a s
  | .sdlMake l rd a b => Sys2Proof.Machine.execSdlMake l rd a b s
  | .mpass l w x => Sys2Proof.Machine.execMpass l w x s
  | .mload l w x => Sys2Proof.Machine.execMload l w x s
  | .mfwd l w x => Sys2Proof.Machine.execMfwd l w x s
  | .mmask l w x => Sys2Proof.Machine.execMmask l w x s
  | .msig l w x => Sys2Proof.Machine.execMsig l w x s
  | .msigEffect l => Sys2Proof.Machine.execMsigEffect l s
  | .mwait l w x => Sys2Proof.Machine.execMwait l w x s
  | .mwaitDone l => Sys2Proof.Machine.execMwaitDone l s
  | .mend l w x => Sys2Proof.Machine.execMend l w x s
  | .passStart l x => Sys2Proof.Machine.execPassStart l x s
  | .meClearSets p l => Sys2Proof.Machine.execMeClearSets p l s
  | .meClearCounters p l => Sys2Proof.Machine.execMeClearCounters p l s
  | .mcStartWrite p l e v => Sys2Proof.Machine.execMcStartWrite p l e v s
  | .mcClearSync p l => Sys2Proof.Machine.execMcClearSync p l s
  | .mcClearCounters p l => Sys2Proof.Machine.execMcClearCounters p l s
  | .setvl l w x => Sys2Proof.Machine.execSetvl l w x s
  | .xrdcfg l w x => Sys2Proof.Machine.execXrdcfg l w x s
  | .xadd l w x => Sys2Proof.Machine.execXadd l w x s
  | .xsub l w x => Sys2Proof.Machine.execXsub l w x s
  | .xaddi l w x => Sys2Proof.Machine.execXaddi l w x s
  | .xand l w x => Sys2Proof.Machine.execXand l w x s
  | .xor l w x => Sys2Proof.Machine.execXor l w x s
  | .xslli l w x => Sys2Proof.Machine.execXslli l w x s
  | .xsrli l w x => Sys2Proof.Machine.execXsrli l w x s
  | .xmul l w x => Sys2Proof.Machine.execXmul l w x s
  | .beq l w x => Sys2Proof.Machine.execBeq l w x s
  | .bne l w x => Sys2Proof.Machine.execBne l w x s
  | .blt l w x => Sys2Proof.Machine.execBlt l w x s
  | .bge l w x => Sys2Proof.Machine.execBge l w x s
  | .jmp l w x => Sys2Proof.Machine.execJmp l w x s
  | .vwait l w x => Sys2Proof.Machine.execVwait l w x s
  | .vwaitDone l => Sys2Proof.Machine.execVwaitDone l s
  | .vsig l w x => Sys2Proof.Machine.execVsig l w x s
  | .vsigEffect l => Sys2Proof.Machine.execVsigEffect l s
  | .vstatc l w x => Sys2Proof.Machine.execVstatc l w x s
  | .vmvxs l w x => Sys2Proof.Machine.execVmvxs l w x s
  | .vmvsx l w x => Sys2Proof.Machine.execVmvsx l w x s
  | .vend l w x => Sys2Proof.Machine.execVend l w x s
  | .vld l w x => Sys2Proof.Machine.execVld l w x s
  | .vst l w x => Sys2Proof.Machine.execVst l w x s
  | .vldn l w x => Sys2Proof.Machine.execVldn l w x s
  | .vstn l w x => Sys2Proof.Machine.execVstn l w x s
  | .vldp l w x => Sys2Proof.Machine.execVldp l w x s
  | .vstp l w x => Sys2Proof.Machine.execVstp l w x s
  | .vfadd l w x => Sys2Proof.Machine.execVfadd l w x s
  | .vfsub l w x => Sys2Proof.Machine.execVfsub l w x s
  | .vfmul l w x => Sys2Proof.Machine.execVfmul l w x s
  | .vfma l w x => Sys2Proof.Machine.execVfma l w x s
  | .vfms l w x => Sys2Proof.Machine.execVfms l w x s
  | .vfnma l w x => Sys2Proof.Machine.execVfnma l w x s
  | .vfmin l w x => Sys2Proof.Machine.execVfmin l w x s
  | .vfmax l w x => Sys2Proof.Machine.execVfmax l w x s
  | .vfabs l w x => Sys2Proof.Machine.execVfabs l w x s
  | .vfneg l w x => Sys2Proof.Machine.execVfneg l w x s
  | .vfdiv l w x => Sys2Proof.Machine.execVfdiv l w x s
  | .vfsqrt l w x => Sys2Proof.Machine.execVfsqrt l w x s
  | .vadd l w x => Sys2Proof.Machine.execVadd l w x s
  | .vsub l w x => Sys2Proof.Machine.execVsub l w x s
  | .vmul l w x => Sys2Proof.Machine.execVmul l w x s
  | .vand l w x => Sys2Proof.Machine.execVand l w x s
  | .vor l w x => Sys2Proof.Machine.execVor l w x s
  | .vxor l w x => Sys2Proof.Machine.execVxor l w x s
  | .vsll l w x => Sys2Proof.Machine.execVsll l w x s
  | .vsrl l w x => Sys2Proof.Machine.execVsrl l w x s
  | .vsra l w x => Sys2Proof.Machine.execVsra l w x s
  | .vmin l w x => Sys2Proof.Machine.execVmin l w x s
  | .vmax l w x => Sys2Proof.Machine.execVmax l w x s
  | .vmerge l w x => Sys2Proof.Machine.execVmerge l w x s
  | .viota l w x => Sys2Proof.Machine.execViota l w x s
  | .vmv l w x => Sys2Proof.Machine.execVmv l w x s
  | .vcmpeq l w x => Sys2Proof.Machine.execVcmpeq l w x s
  | .vcmpne l w x => Sys2Proof.Machine.execVcmpne l w x s
  | .vcmplt l w x => Sys2Proof.Machine.execVcmplt l w x s
  | .vcmple l w x => Sys2Proof.Machine.execVcmple l w x s
  | .pand l w x => Sys2Proof.Machine.execPand l w x s
  | .por l w x => Sys2Proof.Machine.execPor l w x s
  | .pxor l w x => Sys2Proof.Machine.execPxor l w x s
  | .pnot l w x => Sys2Proof.Machine.execPnot l w x s
  | .ppopc l w x => Sys2Proof.Machine.execPpopc l w x s
  | .pfirst l w x => Sys2Proof.Machine.execPfirst l w x s
  | .vcompress l w x => Sys2Proof.Machine.execVcompress l w x s
  | .vexpand l w x => Sys2Proof.Machine.execVexpand l w x s
  | .vslideup l w x => Sys2Proof.Machine.execVslideup l w x s
  | .vslidedn l w x => Sys2Proof.Machine.execVslidedn l w x s
  | .vrgather l w x => Sys2Proof.Machine.execVrgather l w x s
  | .vredsum l w x => Sys2Proof.Machine.execVredsum l w x s
  | .vredprod l w x => Sys2Proof.Machine.execVredprod l w x s
  | .vredmax l w x => Sys2Proof.Machine.execVredmax l w x s
  | .vredmin l w x => Sys2Proof.Machine.execVredmin l w x s
  | .vredargmax l w x => Sys2Proof.Machine.execVredargmax l w x s
  | .vredargmin l w x => Sys2Proof.Machine.execVredargmin l w x s
  | .vredand l w x => Sys2Proof.Machine.execVredand l w x s
  | .vredor l w x => Sys2Proof.Machine.execVredor l w x s
  | .vcvt l w x => Sys2Proof.Machine.execVcvt l w x s
  | .vsplit l w x => Sys2Proof.Machine.execVsplit l w x s
  | .vrand l w x => Sys2Proof.Machine.execVrand l w x s
  | .vexp2 l w x => Sys2Proof.Machine.execVexp2 l w x s
  | .vlog2 l w x => Sys2Proof.Machine.execVlog2 l w x s
  | .vrsqrt l w x => Sys2Proof.Machine.execVrsqrt l w x s
  | .vrecip l w x => Sys2Proof.Machine.execVrecip l w x s
  | .vtanh l w x => Sys2Proof.Machine.execVtanh l w x s
  | .vldacc l w x => Sys2Proof.Machine.execVldacc l w x s
  | .vstacc l w x => Sys2Proof.Machine.execVstacc l w x s
  | .umvkick l w x => Sys2Proof.Machine.execUmvkick l w x s
  | .umvwait l w x => Sys2Proof.Machine.execUmvwait l w x s
  | .vldaif l w x => Sys2Proof.Machine.execVldaif l w x s
  | .vstd l w x => Sys2Proof.Machine.execVstd l w x s
  | .ucalrd l w x => Sys2Proof.Machine.execUcalrd l w x s
  | .vstnt l w x => Sys2Proof.Machine.execVstnt l w x s
  | .vcStartWrite p l e v => Sys2Proof.Machine.execVcStartWrite p l e v s
  | .vcClearSync p l => Sys2Proof.Machine.execVcClearSync p l s
  | .vcClearCounters p l => Sys2Proof.Machine.execVcClearCounters p l s
  | .veClearCounters p l => Sys2Proof.Machine.execVeClearCounters p l s
  | .nwSelWrite p r v => Sys2Proof.Machine.execNwSelWrite p r v s
  | .writeRange p r => Sys2Proof.Machine.execWriteRange p r s
  | .writeSlot p r => Sys2Proof.Machine.execWriteSlot p r s
  | .nwSnapshot p r => Sys2Proof.Machine.execNwSnapshot p r s
  | .clearCounts p r => Sys2Proof.Machine.execClearCounts p r s
  | .flitWrite r q k => Sys2Proof.Machine.execFlitWrite r q k s
  | .flitReadReq r q k x => Sys2Proof.Machine.execFlitReadReq r q k x s
  | .flitReadData r q k => Sys2Proof.Machine.execFlitReadData r q k s
  | .flitResp r q k => Sys2Proof.Machine.execFlitResp r q k s
  | .flitChain r q k => Sys2Proof.Machine.execFlitChain r q k s
  | .flitRedUp r q k => Sys2Proof.Machine.execFlitRedUp r q k s
  | .redCombine r j0 => Sys2Proof.Machine.execRedCombine r j0 s
  | .flitRedDown r q k => Sys2Proof.Machine.execFlitRedDown r q k s
  | .flitTick r q k => Sys2Proof.Machine.execFlitTick r q k s
  | .flitCredUp r q k => Sys2Proof.Machine.execFlitCredUp r q k s
  | .flitCredDown r q k => Sys2Proof.Machine.execFlitCredDown r q k s
  | .flitToken r q k => Sys2Proof.Machine.execFlitToken r q k s
  | .flitFence r q k => Sys2Proof.Machine.execFlitFence r q k s
  | .flitMgmt r q k m => Sys2Proof.Machine.execFlitMgmt r q k m s
  | .escapeMove r q k => Sys2Proof.Machine.execEscapeMove r q k s
  | .linkDownDetect r q => Sys2Proof.Machine.execLinkDownDetect r q s
  | .linkDegrade r q v => Sys2Proof.Machine.execLinkDegrade r q v s
  | .creditRefresh r q v t => Sys2Proof.Machine.execCreditRefresh r q v t s
  | .respFlush k => Sys2Proof.Machine.execRespFlush k s
  | .routerTickMissed r => Sys2Proof.Machine.execRouterTickMissed r s
  | .rtrClearCounters p r => Sys2Proof.Machine.execRtrClearCounters p r s
  | .drainLink p r => Sys2Proof.Machine.execDrainLink p r s
  | .drainDone r q v => Sys2Proof.Machine.execDrainDone r q v s
  | .laneTest p r => Sys2Proof.Machine.execLaneTest p r s
  | .laneTestDone r q v k => Sys2Proof.Machine.execLaneTestDone r q v k s
  | .applyLaneMap p r => Sys2Proof.Machine.execApplyLaneMap p r s
  | .releaseLink p r => Sys2Proof.Machine.execReleaseLink p r s
  | .excludeLink p r => Sys2Proof.Machine.execExcludeLink p r s
  | .zeroFillDone j0 => Sys2Proof.Machine.execZeroFillDone j0 s
  | .place p f => Sys2Proof.Machine.execPlace p f s
  | .promote p f => Sys2Proof.Machine.execPromote p f s
  | .demote p f => Sys2Proof.Machine.execDemote p f s
  | .evict p f => Sys2Proof.Machine.execEvict p f s
  | .pin p f => Sys2Proof.Machine.execPin p f s
  | .unpin p f => Sys2Proof.Machine.execUnpin p f s
  | .free p f => Sys2Proof.Machine.execFree p f s
  | .query p f => Sys2Proof.Machine.execQuery p f s
  | .setPolicy p f => Sys2Proof.Machine.execSetPolicy p f s
  | .setAlt p f => Sys2Proof.Machine.execSetAlt p f s
  | .makeDraft p f => Sys2Proof.Machine.execMakeDraft p f s
  | .dropDraft p f => Sys2Proof.Machine.execDropDraft p f s
  | .bindWindow p f => Sys2Proof.Machine.execBindWindow p f s
  | .queuedCommandStart f j0 => Sys2Proof.Machine.execQueuedCommandStart f j0 s
  | .transitionDone f h k => Sys2Proof.Machine.execTransitionDone f h k s
  | .deferredCommandStart f h => Sys2Proof.Machine.execDeferredCommandStart f h s
  | .msClearCounters p j0 => Sys2Proof.Machine.execMsClearCounters p j0 s
  | .deadlineLate m => Sys2Proof.Machine.execDeadlineLate m s
  | .lateNotice l t le => Sys2Proof.Machine.execLateNotice l t le s
  | .mvrLoad p m => Sys2Proof.Machine.execMvrLoad p m s
  | .handover m => Sys2Proof.Machine.execHandover m s
  | .transferComplete m => Sys2Proof.Machine.execTransferComplete m s
  | .aifDataPhaseStart m => Sys2Proof.Machine.execAifDataPhaseStart m s
  | .mvrStop p m => Sys2Proof.Machine.execMvrStop p m s
  | .dropShadow p m => Sys2Proof.Machine.execDropShadow p m s
  | .collect p m => Sys2Proof.Machine.execCollect p m s
  | .mvrClearCounters p m => Sys2Proof.Machine.execMvrClearCounters p m s
  | .pauseSet p m => Sys2Proof.Machine.execPauseSet p m s
  | .pauseDone m => Sys2Proof.Machine.execPauseDone m s
  | .pauseClear p m => Sys2Proof.Machine.execPauseClear p m s
  | .listElementLoad m => Sys2Proof.Machine.execListElementLoad m s
  | .rangeArrived f j0 => Sys2Proof.Machine.execRangeArrived f j0 s
  | .sweepStart n f => Sys2Proof.Machine.execSweepStart n f s
  | .deferredEntryStart f e => Sys2Proof.Machine.execDeferredEntryStart f e s
  | .updateWindowExpire f => Sys2Proof.Machine.execUpdateWindowExpire f s
  | .ucClearCounters p f => Sys2Proof.Machine.execUcClearCounters p f s
  | .stageLoad p n => Sys2Proof.Machine.execStageLoad p n s
  | .apply p n => Sys2Proof.Machine.execApply p n s
  | .setCount p n => Sys2Proof.Machine.execSetCount p n s
  | .setCountDone n => Sys2Proof.Machine.execSetCountDone n s
  | .stepVoteContribute n => Sys2Proof.Machine.execStepVoteContribute n s
  | .arrivalTimeout n => Sys2Proof.Machine.execArrivalTimeout n s
  | .lossInWrite p n v => Sys2Proof.Machine.execLossInWrite p n v s
  | .digest n k => Sys2Proof.Machine.execDigest n k s
  | .digestTimeout n => Sys2Proof.Machine.execDigestTimeout n s
  | .prepareContribute n => Sys2Proof.Machine.execPrepareContribute n s
  | .prepareRecontribute n => Sys2Proof.Machine.execPrepareRecontribute n s
  | .sweepRerun n => Sys2Proof.Machine.execSweepRerun n s
  | .arbitrate n k => Sys2Proof.Machine.execArbitrate n k s
  | .arbReply n k => Sys2Proof.Machine.execArbReply n k s
  | .arbTimeout n => Sys2Proof.Machine.execArbTimeout n s
  | .roundTimeout n => Sys2Proof.Machine.execRoundTimeout n s
  | .inDoubt n => Sys2Proof.Machine.execInDoubt n s
  | .decision n k => Sys2Proof.Machine.execDecision n k s
  | .decisionQuery n k q => Sys2Proof.Machine.execDecisionQuery n k q s
  | .decisionReply n k q => Sys2Proof.Machine.execDecisionReply n k q s
  | .abortRequest n k b => Sys2Proof.Machine.execAbortRequest n k b s
  | .rejoin n k => Sys2Proof.Machine.execRejoin n k s
  | .walkChunk n k => Sys2Proof.Machine.execWalkChunk n k s
  | .resume p n => Sys2Proof.Machine.execResume p n s
  | .setLossExp p n => Sys2Proof.Machine.execSetLossExp p n s
  | .resetLoss p n => Sys2Proof.Machine.execResetLoss p n s
  | .scClearCounters p n => Sys2Proof.Machine.execScClearCounters p n s
  | .errorReport l k => Sys2Proof.Machine.execErrorReport l k s
  | .errClear p l => Sys2Proof.Machine.execErrClear p l s
  | .abortReq p l => Sys2Proof.Machine.execAbortReq p l s
  | .farrierMainPath u => Sys2Proof.Machine.execFarrierMainPath u s
  | .farrierFence p => Sys2Proof.Machine.execFarrierFence p s
  | .unfence p => Sys2Proof.Machine.execUnfence p s
  | .arrayTest p => Sys2Proof.Machine.execArrayTest p s
  | .arrayTestDone l k => Sys2Proof.Machine.execArrayTestDone l k s
  | .softRepair p => Sys2Proof.Machine.execSoftRepair p s
  | .swapSpare p => Sys2Proof.Machine.execSwapSpare p s
  | .retire p => Sys2Proof.Machine.execRetire p s
  | .requestHold p => Sys2Proof.Machine.execRequestHold p s
  | .readmitField p => Sys2Proof.Machine.execReadmitField p s
  | .unretire p => Sys2Proof.Machine.execUnretire p s
  | .frClearCounters p => Sys2Proof.Machine.execFrClearCounters p s
  | .spareRetest l a b => Sys2Proof.Machine.execSpareRetest l a b s
  | .frameFlit k z => Sys2Proof.Machine.execFrameFlit k z s
  | .frameTiming k z => Sys2Proof.Machine.execFrameTiming k z s
  | .timingSend => Sys2Proof.Machine.execTimingSend s
  | .timingFrameLost => Sys2Proof.Machine.execTimingFrameLost s
  | .frameDelay k a b => Sys2Proof.Machine.execFrameDelay k a b s
  | .delayMeasure k => Sys2Proof.Machine.execDelayMeasure k s
  | .heartbeat k h => Sys2Proof.Machine.execHeartbeat k h s
  | .heartbeatSend f => Sys2Proof.Machine.execHeartbeatSend f s
  | .heartbeatTimeout k => Sys2Proof.Machine.execHeartbeatTimeout k s
  | .frameObj k z => Sys2Proof.Machine.execFrameObj k z s
  | .frameReplayTimeout k => Sys2Proof.Machine.execFrameReplayTimeout k s
  | .linkBringupAdvance k h => Sys2Proof.Machine.execLinkBringupAdvance k h s
  | .laneFailRetrain k b c => Sys2Proof.Machine.execLaneFailRetrain k b c s
  | .opticalLinkDown k w => Sys2Proof.Machine.execOpticalLinkDown k w s
  | .remoteTimeout f j0 => Sys2Proof.Machine.execRemoteTimeout f j0 s
  | .bundleSend f g b => Sys2Proof.Machine.execBundleSend f g b s
  | .contextFree f j0 => Sys2Proof.Machine.execContextFree f j0 s
  | .laserPowerLow f j0 j v => Sys2Proof.Machine.execLaserPowerLow f j0 j v s
  | .stretchReq a => Sys2Proof.Machine.execStretchReq a s
  | .tbTimingTimeout => Sys2Proof.Machine.execTbTimingTimeout s
  | .tbLost => Sys2Proof.Machine.execTbLost s
  | .elect k => Sys2Proof.Machine.execElect k s
  | .electionSettle => Sys2Proof.Machine.execElectionSettle s
  | .tbReport a => Sys2Proof.Machine.execTbReport a s
  | .timebaseSelfMaster => Sys2Proof.Machine.execTimebaseSelfMaster s
  | .opClearCounters p f => Sys2Proof.Machine.execOpClearCounters p f s
  | .retrain p f => Sys2Proof.Machine.execRetrain p f s
  | .writeTree p f => Sys2Proof.Machine.execWriteTree p f s
  | .opNodeIdWrite p v => Sys2Proof.Machine.execOpNodeIdWrite p v s
  | .opRtDataWrite p v => Sys2Proof.Machine.execOpRtDataWrite p v s
  | .opLinkEnWrite p f v => Sys2Proof.Machine.execOpLinkEnWrite p f v s
  | .apertureRead h a n x => Sys2Proof.Machine.execApertureRead h a n x s
  | .apertureWrite h a d x => Sys2Proof.Machine.execApertureWrite h a d x s
  | .hpFieldWinWrite p h v => Sys2Proof.Machine.execHpFieldWinWrite p h v s
  | .bindAp p h => Sys2Proof.Machine.execBindAp p h s
  | .bindApDone h => Sys2Proof.Machine.execBindApDone h s
  | .unbindAp p h => Sys2Proof.Machine.execUnbindAp p h s
  | .assignChannel p h => Sys2Proof.Machine.execAssignChannel p h s
  | .hpClearCounters p h => Sys2Proof.Machine.execHpClearCounters p h s
  | .claim p => Sys2Proof.Machine.execClaim p s
  | .renew p => Sys2Proof.Machine.execRenew p s
  | .release p => Sys2Proof.Machine.execRelease p s
  | .leaseWarn j0 => Sys2Proof.Machine.execLeaseWarn j0 s
  | .leaseExpire j0 => Sys2Proof.Machine.execLeaseExpire j0 s
  | .submit p => Sys2Proof.Machine.execSubmit p s
  | .submitDone n => Sys2Proof.Machine.execSubmitDone n s
  | .withdraw p => Sys2Proof.Machine.execWithdraw p s
  | .psStop p => Sys2Proof.Machine.execPsStop p s
  | .perstAssert h => Sys2Proof.Machine.execPerstAssert h s
  | .perstDeassert h b => Sys2Proof.Machine.execPerstDeassert h b s
  | .dlDown h => Sys2Proof.Machine.execDlDown h s
  | .inputSample v w k => Sys2Proof.Machine.execInputSample v w k s
  | .inputFault b => Sys2Proof.Machine.execInputFault b s
  | .fuseShort f => Sys2Proof.Machine.execFuseShort f s
  | .fuseOverload f => Sys2Proof.Machine.execFuseOverload f s
  | .tempSample f t u => Sys2Proof.Machine.execTempSample f t u s
  | .throttleStep f => Sys2Proof.Machine.execThrottleStep f s
  | .ceilRelease f => Sys2Proof.Machine.execCeilRelease f s
  | .powerAverage a k => Sys2Proof.Machine.execPowerAverage a k s
  | .govSlot => Sys2Proof.Machine.execGovSlot s
  | .govAdmit => Sys2Proof.Machine.execGovAdmit s
  | .railRampDone f => Sys2Proof.Machine.execRailRampDone f s
  | .restWakeDone l => Sys2Proof.Machine.execRestWakeDone l s
  | .estopAssert => Sys2Proof.Machine.execEstopAssert s
  | .estopClear p => Sys2Proof.Machine.execEstopClear p s
  | .pwrEnAssert v => Sys2Proof.Machine.execPwrEnAssert v s
  | .pwrEnDeassert => Sys2Proof.Machine.execPwrEnDeassert s
  | .ptClearCounters p f => Sys2Proof.Machine.execPtClearCounters p f s
  | .pgClearCounters p => Sys2Proof.Machine.execPgClearCounters p s
  | .stageDone k => Sys2Proof.Machine.execStageDone k s
  | .stageBudgetExpire k => Sys2Proof.Machine.execStageBudgetExpire k s
  | .holdLockWrite p v => Sys2Proof.Machine.execHoldLockWrite p v s
  | .attest p => Sys2Proof.Machine.execAttest p s
  | .advanceSvn p => Sys2Proof.Machine.execAdvanceSvn p s
  | .ownerEnroll p => Sys2Proof.Machine.execOwnerEnroll p s
  | .ownerRevoke p => Sys2Proof.Machine.execOwnerRevoke p s
  | .debugChallenge p => Sys2Proof.Machine.execDebugChallenge p s
  | .challengeExpire => Sys2Proof.Machine.execChallengeExpire s
  | .debugResponse p => Sys2Proof.Machine.execDebugResponse p s
  | .fwWrite p => Sys2Proof.Machine.execFwWrite p s
  | .saveConfig p => Sys2Proof.Machine.execSaveConfig p s
  | .readCert p => Sys2Proof.Machine.execReadCert p s
  | .setBootSlot p => Sys2Proof.Machine.execSetBootSlot p s
  | .calSelWrite p v => Sys2Proof.Machine.execCalSelWrite p v s
  | .writeUser p => Sys2Proof.Machine.execWriteUser p s
  | .clearUser p => Sys2Proof.Machine.execClearUser p s
  | .calFlashDone => Sys2Proof.Machine.execCalFlashDone s
  | .monStart p f m => Sys2Proof.Machine.execMonStart p f m s
  | .monStop p f m => Sys2Proof.Machine.execMonStop p f m s
  | .monSnapshot p f m => Sys2Proof.Machine.execMonSnapshot p f m s
  | .monWindowEnd f m => Sys2Proof.Machine.execMonWindowEnd f m s
  | .monQueueSample f m => Sys2Proof.Machine.execMonQueueSample f m s
  | .clearSnap p f m => Sys2Proof.Machine.execClearSnap p f m s
  | .paddockRingsWrite p v => Sys2Proof.Machine.execPaddockRingsWrite p v s
  | .evlogSelWrite p v => Sys2Proof.Machine.execEvlogSelWrite p v s
  | .smbusBlockRead a c => Sys2Proof.Machine.execSmbusBlockRead a c s
  | .cmClearCounters p m => Sys2Proof.Machine.execCmClearCounters p m s
  | .dlUp h k => Sys2Proof.Machine.execDlUp h k s
  | .hostCompletion h j0 k => Sys2Proof.Machine.execHostCompletion h j0 k s
  | .completionTimeout h j0 => Sys2Proof.Machine.execCompletionTimeout h j0 s
  | .mvrReadIssue m => Sys2Proof.Machine.execMvrReadIssue m s
  | .walkWakeDone l => Sys2Proof.Machine.execWalkWakeDone l s
  | .vdroopSample l a => Sys2Proof.Machine.execVdroopSample l a s
  | .cmdDone => Sys2Proof.Machine.execCmdDone s
  | .hbPowerLoss => Sys2Proof.Machine.execHbPowerLoss s
  | .inputReturn v => Sys2Proof.Machine.execInputReturn v s
  | .ptRingRestWrite p v => Sys2Proof.Machine.execPtRingRestWrite p v s

end Sys2Proof.Machine
end

