-- ==== Sys2Proof/Machine/Step.lean ====
section
/-! DEFINITION. One step: the command at the front of the queue is carried out; with none waiting, time passes. -/
namespace Sys2Proof.Machine

/-- With no command waiting nothing happens but that a nanosecond passes (DESIGN CHOICE, safe: notes/assumptions/12.md). -/
def State.idle (s : State) : State := s.onHw fun h => { h with clk := { h.clk with now := h.clk.now + 1 } }
/-- One step (notes/assumptions/12.md): the front command, run on the state with the queue's rest. -/
def step (s : State) : Host.Outcome State Fault Refusal :=
  match s.pending with
  | [] => .next s.idle
  | c :: q => exec c { s with pending := q }

/-- The command that a word spells, put at the front of the queue; no word spells one. -/
def State.withFetchWord (s : State) (nbits w : Nat) : State :=
  match Sys2Proof.decodeTableWord nbits w with
  | some c => { s with pending := c :: s.pending }
  | none => s

end Sys2Proof.Machine
end

