-- ==== Sys2Proof/Safety.lean ====
section
/-! DEFINITION. What a safe run of the module is, and the frame conditions, in the terms the claims use. -/
namespace Sys2Proof.Machine

/-- Memory is in its canonical form. -/
def State.MemOk (s : State) : Prop := Memory.wf s.mem = true
/-- Fuses only burn: the minimum SVN does not fall, an enrolled owner slot keeps its key, a revoked slot stays revoked, a burned bucket stays burned (R394, R395, R397). -/
def Fuses.Keeps (a b : Fuses) : Prop :=
  a.svn ≤ b.svn ∧ (∀ i k, Tab.find a.owners i = some k → Tab.find b.owners i = some k) ∧ (∀ i ∈ a.revoked, i ∈ b.revoked) ∧ (∀ i ∈ a.buckets, i ∈ b.buckets)
/-- A command leaves the queue of waiting commands alone. -/
def SameQueue (s t : State) : Prop := t.pending = s.pending
/-- A run of n steps that never stops, from a state to another. -/
def Runs : Nat → State → State → Prop
  | 0, s, t => s = t
  | n + 1, s, t => ∃ u, step s = .next u ∧ Runs n u t

/-- Memory, fuses and the queue are as before. -/
def Outside (s t : State) : Prop := t.mem = s.mem ∧ t.fuses = s.fuses ∧ t.pending = s.pending
/-- Every byte of memory outside n bytes from a device address reads as before; so are fuses and the queue. -/
def OutsideBytes (s t : State) (a n : Nat) : Prop :=
  (∀ q, (∀ i < n, physAddr (a + i) ≠ some q) → memRead t.mem q = memRead s.mem q) ∧ t.fuses = s.fuses ∧ t.pending = s.pending
/-- Every register word but those listed reads as before. -/
def RegsBut (s t : State) (ks : List Nat) : Prop := ∀ k, k ∉ ks → t.hw.reg k = s.hw.reg k
/-- The register file as it was, with the words of a later state: latches, staged words and the MSI-X area are untouched. -/
def State.words (s t : State) : RegFile := { s.hw.rf with words := t.hw.rf.words }
/-- The register file as it was, with the words and the MSI-X area of a later state. -/
def State.wordsMsix (s t : State) : RegFile := { s.hw.rf with words := t.hw.rf.words, msix := t.hw.rf.msix }
/-- The register words that an event of a page may change: its BLK_EVENT, EVLOG_SEQ, and the ports' counts of messages sent (R414, R421, R363). -/
def eventRegs (page : Nat) : List Nat :=
  [page + 0x010, pgEvlog + Reg.evlog.evlogSeq, pgHostPort 0 + Reg.hostPort.hpEvtSent, pgHostPort 1 + Reg.hostPort.hpEvtSent]
/-- The register words that an error log entry of a page may change (R417). -/
def errorRegs (page : Nat) : List Nat := [page + 0x024, page + 0x028, page + 0x02C] ++ eventRegs page
/-- From a to b only an event's report has happened: the event log, what was sent, the MSI-X area, and the register words listed (R414, R421, R363). -/
def Hw.Reports (a b : Hw) (ks : List Nat) : Prop :=
  b = { a with rf := { a.rf with words := b.rf.words, msix := b.rf.msix }, evlog := b.evlog, out := b.out } ∧ ∀ k, k ∉ ks → b.reg k = a.reg k
/-- A command may be carried out on a page: the page answers the path, the path may command it, it is not fenced, and its state is among those that allow the command (R415). -/
def CmdOpen (s : State) (p : Path) (page : Nat) (legal : List Nat) : Prop :=
  s.hw.deadFor p page = false ∧ s.hw.mayCommand p page none = true ∧ s.hw.fencedPage page = false ∧ s.hw.stateCode page ∈ legal
/-- The word BLK_CMD_RESULT holds after a command (R415). -/
def resultWord (p : Path) (code : Nat) (r : CmdRes) : Word := BitVec.ofNat 32 (r.code + code <<< 8 + p.code <<< 16)
/-- A path may write a register of a page that answers it (R12, R351). -/
def WriteOpen (s : State) (p : Path) (page off : Nat) : Prop := s.hw.deadFor p page = false ∧ s.hw.mayWrite p page off = true

/-- Something has been sent to the surroundings since a state, nothing sent before is lost. -/
def Emits (s t : State) (e : Emission) : Prop := ∃ new, t.hw.out = s.hw.out ++ new ∧ e ∈ new
/-- Every register word outside some pages and beside those listed reads as before. -/
def PageOnly (s t : State) (pages ks : List Nat) : Prop := ∀ k, (∀ pg ∈ pages, k < pg ∨ pg + 4096 ≤ k) → k ∉ ks → t.hw.reg k = s.hw.reg k
/-- An S-core's x register as the opcodes of R36 to R42 leave it; x0 reads 0. -/
def xReg (s : State) (l : ClLoc) (rd : Nat) : Nat := if rd = 0 then 0 else Tab.get (s.hw.sqAt l).x rd 0
/-- Only the hidden part of one S-core may differ. -/
def SqOnly (s t : State) (l : ClLoc) : Prop :=
  Outside s t ∧ t.hw = { s.hw with sq := t.hw.sq } ∧ ∀ m : ClLoc, m.idx ≠ l.idx → t.hw.sqAt m = s.hw.sqAt m
/-- rd of an S-core holds v (nothing where rd is x0), its other x registers and the rest of its hidden part are as before but for what it waits for. -/
def XWritten (s t : State) (l : ClLoc) (rd v : Nat) (w : Option SqWait) : Prop :=
  (∀ j, xReg t l j = if j = rd ∧ rd ≠ 0 then v % 2 ^ 64 else xReg s l j) ∧ t.hw.sqAt l = { s.hw.sqAt l with x := (t.hw.sqAt l).x, wait := w }

/-- The CLEAR_COUNTERS commands whose counters are registers alone: path, page, code, the states that allow it, the counters' offsets. -/
def pureClear : Instr → Option (Path × Nat × Nat × List Nat × List Nat)
  | .meClearCounters p l => some (p, l.page, 0x02, [0, 1], [Reg.me.mePassCountLo, Reg.me.mePassCountHi, Reg.me.meRowCountLo, Reg.me.meRowCountHi,
      Reg.me.meStallTile, Reg.me.meStallLoad, Reg.me.meStallAcc, Reg.me.meStallFeed, Reg.me.meParityCount])
  | .mcClearCounters p l => some (p, l.page, 0x02, [0, 1], [Reg.mcore.mcStartOvf, Reg.mcore.mcLmemCrc, Reg.mcore.mcChainStallIn, Reg.mcore.mcChainStallOut,
      Reg.mcore.mcChainTagErr])
  | .vcClearCounters p l => some (p, l.page, 0x02, [0, 1], [Reg.vcore.vcStartOvf, Reg.vcore.vcAccbusWait])
  | .veClearCounters p l => some (p, l.page, 0x02, [0, 1, 2], [Reg.ve.veInstrLo, Reg.ve.veInstrHi, Reg.ve.veStallDep, Reg.ve.veStallMem, Reg.ve.veStallSync,
      Reg.ve.veParityCount, Reg.ve.veLmemCrc])
  | .msClearCounters p i => some (p, sitePage i, 0x01, [3, 4], [Reg.msite.msCrcErr, Reg.msite.msDecompErr, Reg.msite.msBytesRdLo, Reg.msite.msBytesRdHi,
      Reg.msite.msBytesWrLo, Reg.msite.msBytesWrHi])
  | .ucClearCounters p f => some (p, pgUpdate f, 0x02, [0, 1, 3], [Reg.ucomplex.ucFallback, Reg.ucomplex.ucNotReadyCount, Reg.ucomplex.ucMirror])
  | .scClearCounters p n => some (p, pgCommit n, 0x04, [0, 1, 2, 3, 4, 5, 6, 7], [Reg.stepCommit.scSkips, Reg.stepCommit.scAborts, Reg.stepCommit.scDigestEvents,
      Reg.stepCommit.scWalkPos, Reg.stepCommit.scWalkMismatch])
  | .hpClearCounters p x => some (p, pgHostPort x, 0x04, [2], [Reg.hostPort.hpDenied, Reg.hostPort.hpApFault, Reg.hostPort.hpEvtSent])
  | .pgClearCounters p => some (p, pgPower, 0x02, [0], [Reg.powerGlobal.ptInputPeak, Reg.powerGlobal.ptGov])
  | .cmClearCounters p m => some (p, m.page, 0x02, [0, 1], [Reg.clmem.cmCrc])
  | _ => none
/-- The commands of the register pages that any path with the page's rights may give: path, page, code and the states that allow them (the command tables of the chapters). -/
def pageCommand : Instr → Option (Path × Nat × Nat × List Nat)
  | .setPeriod p => some (p, pgTimebase, 0x01, [0, 1, 2, 3])
  | .errClear p l => some (p, l.page, 0x10, [0, 1, 2, 3, 4, 5, 6, 7])
  | .meClearSets p l => some (p, l.page, 0x01, [0])
  | .mcClearSync p l => some (p, l.page, 0x01, [0])
  | .vcClearSync p l => some (p, l.page, 0x01, [0])
  | .writeRange p r => some (p, pgWatch r, 0x01, [0, 2])
  | .writeSlot p r => some (p, pgWatch r, 0x02, [0, 2])
  | .nwSnapshot p r => some (p, pgWatch r, 0x03, [1])
  | .clearCounts p r => some (p, pgWatch r, 0x04, [0, 2])
  | .place p f => some (p, pgPlace f, 0x01, [0, 1])
  | .promote p f => some (p, pgPlace f, 0x02, [0, 1])
  | .demote p f => some (p, pgPlace f, 0x03, [0, 1])
  | .evict p f => some (p, pgPlace f, 0x04, [0, 1])
  | .pin p f => some (p, pgPlace f, 0x05, [0, 1])
  | .unpin p f => some (p, pgPlace f, 0x06, [0, 1])
  | .free p f => some (p, pgPlace f, 0x07, [0, 1])
  | .query p f => some (p, pgPlace f, 0x08, [0, 1])
  | .setPolicy p f => some (p, pgPlace f, 0x09, [0, 1])
  | .setAlt p f => some (p, pgPlace f, 0x0A, [0, 1])
  | .makeDraft p f => some (p, pgPlace f, 0x0B, [0, 1])
  | .dropDraft p f => some (p, pgPlace f, 0x0C, [0, 1])
  | .bindWindow p f => some (p, pgPlace f, 0x0D, [0, 1])
  | .stageLoad p n => some (p, pgCalliope n, 0x01, [0, 1, 2])
  | .apply p n => some (p, pgCalliope n, 0x02, [0, 1, 2])
  | .setCount p n => some (p, pgCalliope n, 0x03, [0, 2])
  | .resume p n => some (p, pgCommit n, 0x01, [7])
  | .setLossExp p n => some (p, pgCommit n, 0x02, [0, 7])
  | .resetLoss p n => some (p, pgCommit n, 0x03, [0, 7])
  | .opClearCounters p f => some (p, pgPort f, 0x01, [1])
  | .retrain p f => some (p, pgPort f, 0x02, [1])
  | .writeTree p f => some (p, pgPort f, 0x03, [1])
  | .bindAp p x => some (p, pgHostPort x, 0x01, [2])
  | .unbindAp p x => some (p, pgHostPort x, 0x02, [2])
  | .assignChannel p x => some (p, pgHostPort x, 0x03, [2])
  | .ptClearCounters p f => some (p, pgFieldPower f, 0x02, [2])
  | .monStart p f m => some (p, pgMonitor f m, 0x01, [0])
  | .monStop p f m => some (p, pgMonitor f m, 0x02, [1, 2])
  | .monSnapshot p f m => some (p, pgMonitor f m, 0x03, [2])
  | .clearSnap p f m => some (p, pgMonitor f m, 0x04, [0])
  | c => (pureClear c).map fun x => (x.1, x.2.1, x.2.2.1, x.2.2.2.1)

/-- An ME takes an instruction: it is not in MWAIT and neither it nor its M-core is fenced (R71, R76). -/
def MeTakes (s : State) (l : MeLoc) : Prop := (s.hw.meAt l).wait = none ∧ s.hw.fencedPage l.mc.page = false ∧ s.hw.fencedPage l.page = false
/-- The registers that issued operations of an M-core's MEs may change: BLK_STATE and ME_STATUS of the four MEs, the M-core's LMEM_CRC and CHAIN_TAG_ERR, and its event registers. -/
def meChainRegs (mc : McLoc) : List Nat :=
  ((List.finRange 4).flatMap fun e => [(⟨mc, e⟩ : MeLoc).page + 0x00C, (⟨mc, e⟩ : MeLoc).page + Reg.me.meStatus]) ++
    [mc.page + Reg.mcore.mcLmemCrc, mc.page + Reg.mcore.mcChainTagErr] ++ eventRegs mc.page
/-- Issued operations of an ME were done, and those of later MEs of its M-core that tiles reached: MEs before it in the chain, other M-cores and everything else are as before. -/
def MeChain (s t : State) (l : MeLoc) : Prop :=
  Outside s t ∧ t.hw = { s.hw with rf := s.wordsMsix t, me := t.hw.me, evlog := t.hw.evlog, out := t.hw.out, errMark := t.hw.errMark, prov := t.hw.prov } ∧
  (∀ m : MeLoc, m.mc ≠ l.mc ∨ m.e < l.e → t.hw.meAt m = s.hw.meAt m) ∧ RegsBut s t (meChainRegs l.mc)
/-- Of an ME only its program counter and what an operation issued or done changes may differ: its signals, wait, start queue and accumulators are as before, the program counter is at the next instruction. -/
def MeAdvanced (s t : State) (l : MeLoc) : Prop :=
  let a := s.hw.meAt l
  let b := t.hw.meAt l
  b.pc = a.pc + 16 ∧ b.acc = a.acc ∧ b.sigs = a.sigs ∧ b.wait = a.wait ∧ b.queue = a.queue
/-- Every other ME is as before. -/
def MeOnly (s t : State) (l : MeLoc) : Prop := ∀ m : MeLoc, m ≠ l → t.hw.meAt m = s.hw.meAt m

/-- A VE takes an instruction: it does not wait and is not fenced, the opcode is op, and no bit but those used is set (R120, R123). -/
def VeTakes (s : State) (l : VeLoc) (w : VeWord) (op used : Nat) : Prop :=
  s.hw.veBlocked l = false ∧ veF w 0 8 = op ∧ w.toNat &&& (2 ^ 64 - 1 - 0xFF) &&& (2 ^ 64 - 1 - used) = 0
/-- No parity error, and no memory failure for an instruction that reads memory (R103, R121). -/
def VeSound (x : VeCheck) (reads : Bool) : Prop := x ≠ .regParity ∧ x ≠ .imemParity ∧ (reads = true → ∀ o, x ≠ .crcFailed o)
/-- What every VE instruction that raises no exception does beside its own effect: VSTAT gains flags, the instruction count rises, the program counter moves, a corrected word of a load counts; other VEs, registers and parts are as before. -/
def VeRan (s t : State) (l : VeLoc) (fl pc : Nat) (corrected : Bool) : Prop :=
  t.fuses = s.fuses ∧ t.pending = s.pending ∧ t.hw = { s.hw with rf := s.words t, ve := t.hw.ve } ∧ (∀ m : VeLoc, m ≠ l → t.hw.veAt m = s.hw.veAt m) ∧
  t.hw.reg (l.page + Reg.ve.veVstat) = s.hw.reg (l.page + Reg.ve.veVstat) ||| BitVec.ofNat 32 fl ∧
  t.hw.reg64 (l.page + Reg.ve.veInstrLo) = (s.hw.reg64 (l.page + Reg.ve.veInstrLo) + 1) % 2 ^ 64 ∧
  t.hw.reg (l.page + Reg.ve.vePc) = BitVec.ofNat 32 pc ∧
  t.hw.reg (l.page + Reg.ve.veLmemCrc) = (let k := l.page + Reg.ve.veLmemCrc
    if corrected then wput (s.hw.reg k) 0 16 (satAdd 16 (s.hw.fld k 0 16) 1) else s.hw.reg k) ∧
  RegsBut s t [l.page + Reg.ve.veVstat, l.page + Reg.ve.veInstrLo, l.page + Reg.ve.veInstrLo + 4, l.page + Reg.ve.vePc, l.page + Reg.ve.veLmemCrc]
/-- Only vector lanes of a VE may differ. -/
def VeOnlyV (s t : State) (l : VeLoc) : Prop := t.hw.veAt l = { s.hw.veAt l with v := (t.hw.veAt l).v }
/-- Only predicate bits of a VE may differ. -/
def VeOnlyP (s t : State) (l : VeLoc) : Prop := t.hw.veAt l = { s.hw.veAt l with p := (t.hw.veAt l).p }
/-- The elements of the span of vd that `on` names, below VL, hold f; every other element of the vector registers is as before. Elements are numbered through the registers, element 0 of v0 first. -/
def VeElems (s t : State) (l : VeLoc) (sew vd vl : Nat) (on : Nat → Bool) (f : Nat → Nat) : Prop :=
  let e := veLanes l * 32 / sew
  ∀ n, (t.hw.veAt l).elem (veLanes l) sew 0 n =
    if vd * e ≤ n ∧ n - vd * e < vl ∧ on (n - vd * e) = true then f (n - vd * e) % 2 ^ sew else (s.hw.veAt l).elem (veLanes l) sew 0 n
/-- xd of a VE holds v (nothing where it is x0), its other scalars are as before. -/
def VeScalar (s t : State) (l : VeLoc) (xd v : Nat) : Prop :=
  ∀ j, (t.hw.veAt l).xr j = if j = xd ∧ xd ≠ 0 then v % 2 ^ 64 else (s.hw.veAt l).xr j
/-- Bits of predicate register pd that `on` names, below VL, hold f (nothing where it is p0), every other predicate bit is as before. -/
def VePred (s t : State) (l : VeLoc) (pd vl : Nat) (on f : Nat → Bool) : Prop :=
  ∀ q i, (t.hw.veAt l).pb q i = if q = pd ∧ pd ≠ 0 ∧ i < vl ∧ on i = true then f i else (s.hw.veAt l).pb q i

/-- An element-wise instruction: its VE, word and check, opcode, fields beside ETYPE, element types, registers that must be aligned, whether it reads memory, what else keeps it from an exception, and the value and flags of an element. -/
structure VeElemwise where
  l : VeLoc
  w : VeWord
  x : VeCheck
  op : Nat
  used : Nat
  types : List Nat
  regs : List Nat
  reads : Bool
  ok : VeIn → Bool
  f : VeIn → Nat → Nat × Nat
/-- The registers of a two-source operation (R98). -/
def pairRegs (w : VeWord) : List Nat := if bitOf w.toNat 35 then [veF w 8 5, veF w 13 5] else [veF w 8 5, veF w 13 5, veF w 18 5]
/-- A two-source operation. -/
def pairElem (l : VeLoc) (w : VeWord) (x : VeCheck) (op : Nat) (types : List Nat) (f : VeIn → Nat → Nat → Nat × Nat) : VeElemwise :=
  ⟨l, w, x, op, uVD + uVS1 + uPR + uVX w, types, pairRegs w, false, fun _ => true, fun c i => f c (c.get c.vs1 i) (c.get2 i)⟩
/-- A one-source operation. -/
def oneElem (l : VeLoc) (w : VeWord) (x : VeCheck) (op : Nat) (types : List Nat) (f : VeIn → Nat → Nat × Nat) : VeElemwise :=
  ⟨l, w, x, op, uVD + uVS1 + uPR, types, [veF w 8 5, veF w 13 5], false, fun _ => true, fun c i => f c (c.get c.vs1 i)⟩
/-- A fused multiply-add, the product or the addend negated. -/
def fusedElem (l : VeLoc) (w : VeWord) (x : VeCheck) (op : Nat) (negP negC : Bool) : VeElemwise :=
  ⟨l, w, x, op, uVD + uVS1 + uVS3 + uPR + uVX w, fpTypes, veF w 23 5 :: pairRegs w, false, fun _ => true,
    fun c i => (etFmt c.et).fma (c.get c.vs1 i) (c.get2 i) (c.get c.vs3 i) negP negC⟩
/-- A transcendental: a 16-bit input goes through FP32 and the result is rounded once more (R116). -/
def transElem (l : VeLoc) (w : VeWord) (x : VeCheck) (op : Nat) (f : Nat → Nat × Nat) : VeElemwise :=
  oneElem l w x op [0, 1, 2] fun c a =>
    if c.et = 0 then f a
    else (((fp32.convert (etFmt c.et) (f ((etFmt c.et).convert fp32 a).1).1).1), (f ((etFmt c.et).convert fp32 a).1).2 ||| (fp32.convert (etFmt c.et) (f ((etFmt c.et).convert fp32 a).1).1).2)
/-- The floating-point arithmetic and transcendental instructions (R98, R116). -/
def veFloat : Instr → Option VeElemwise
  | .vfadd l w x => some (pairElem l w x 0x40 fpTypes fun c a b => (etFmt c.et).add a b)
  | .vfsub l w x => some (pairElem l w x 0x41 fpTypes fun c a b => (etFmt c.et).sub a b)
  | .vfmul l w x => some (pairElem l w x 0x42 fpTypes fun c a b => (etFmt c.et).mul a b)
  | .vfma l w x => some (fusedElem l w x 0x43 false false)
  | .vfms l w x => some (fusedElem l w x 0x44 false true)
  | .vfnma l w x => some (fusedElem l w x 0x45 true false)
  | .vfmin l w x => some (pairElem l w x 0x46 fpTypes fun c a b => (etFmt c.et).minc a b)
  | .vfmax l w x => some (pairElem l w x 0x47 fpTypes fun c a b => (etFmt c.et).maxc a b)
  | .vfabs l w x => some (oneElem l w x 0x48 fpTypes fun c a => (if (etFmt c.et).isNan a then (etFmt c.et).nanCode else a % 2 ^ ((etFmt c.et).bits - 1), 0))
  | .vfneg l w x => some (oneElem l w x 0x49 fpTypes fun c a => (if (etFmt c.et).isNan a then (etFmt c.et).nanCode else a ^^^ 2 ^ ((etFmt c.et).bits - 1), 0))
  | .vfdiv l w x => some (pairElem l w x 0x4A fpTypes fun c a b => (etFmt c.et).div a b)
  | .vfsqrt l w x => some (oneElem l w x 0x4B fpTypes fun c a => (etFmt c.et).sqrt a)
  | .vexp2 l w x => some (transElem l w x 0xC8 ttExp2)
  | .vlog2 l w x => some (transElem l w x 0xC9 ttLog2)
  | .vrsqrt l w x => some (transElem l w x 0xCA ttRsqrt)
  | .vrecip l w x => some (transElem l w x 0xCB ttRecip)
  | .vtanh l w x => some (transElem l w x 0xCC ttTanh)
  | _ => none
/-- The integer instructions, index and move, slide-down and gather (R98, R108). -/
def veInteger : Instr → Option VeElemwise
  | .vadd l w x => some (pairElem l w x 0x60 intTypes fun _ a b => ((a + b) % 2 ^ 32, 0))
  | .vsub l w x => some (pairElem l w x 0x61 intTypes fun _ a b => (twos 32 ((a : Int) - (b : Int)), 0))
  | .vmul l w x => some (pairElem l w x 0x62 intTypes fun _ a b => (a * b % 2 ^ 32, 0))
  | .vand l w x => some (pairElem l w x 0x63 intTypes fun _ a b => (a &&& b, 0))
  | .vor l w x => some (pairElem l w x 0x64 intTypes fun _ a b => (a ||| b, 0))
  | .vxor l w x => some (pairElem l w x 0x65 intTypes fun _ a b => (a ^^^ b, 0))
  | .vmin l w x => some (pairElem l w x 0x69 intTypes fun c a b => (if (if c.et = 4 then decide (signOf 32 a ≤ signOf 32 b) else decide (a ≤ b)) then a else b, 0))
  | .vmax l w x => some (pairElem l w x 0x6A intTypes fun c a b => (if (if c.et = 4 then decide (signOf 32 b ≤ signOf 32 a) else decide (b ≤ a)) then a else b, 0))
  | .viota l w x => some ⟨l, w, x, 0x6C, uVD + uPR, allTypes, [veF w 8 5], false, fun _ => true, fun _ i => (i, 0)⟩
  | .vmv l w x => some (oneElem l w x 0x6D allTypes fun _ a => (a, 0))
  | .vslidedn l w x => some ⟨l, w, x, 0xA3, uVD + uVS1 + uPR + uXS2, allTypes, [veF w 8 5, veF w 13 5], false, fun c => !c.meet c.vd c.vs1,
      fun c i => (if i + c.x2 < c.vl then c.get c.vs1 (i + c.x2) else 0, 0)⟩
  | .vrgather l w x => some ⟨l, w, x, 0xA4, uVD + uVS1 + uPR + uVS2, allTypes, [veF w 8 5, veF w 13 5, veF w 18 5], false,
      fun c => !c.meet c.vd c.vs1 && !c.meet c.vd c.vs2,
      fun c i => if c.get c.vs2 i < c.vl then (c.get c.vs1 (c.get c.vs2 i), 0) else (0, 64)⟩
  | _ => none
/-- The instructions that load elements: from the VE's own memory, narrow blocks, AIF blocks (R101 to R105, R131, R142). -/
def veLoads : Instr → Option VeElemwise
  | .vld l w x => some ⟨l, w, x, 0x20, uVD + ldUsed w, allTypes, (if veImm w 5 2 = 2 then [veF w 8 5, veF w 18 5] else [veF w 8 5]), true,
      fun c => decide (veImm w 5 2 ≠ 3) && c.addrFault.isNone, fun c i => (memNat c.mem (c.da (c.addr i)) (c.sew / 8), 0)⟩
  | .vldn l w x => some ⟨l, w, x, 0x22, uVD + uPR + uIM 0 15, [0], [veF w 8 5], true,
      fun c => !c.nResv && c.active.all fun i => decide (c.nData + ((i + 1) * c.nFmt.bits + 7) / 8 ≤ (veSpace c.l c.space).2) && c.inSpace c.space (c.nScale + i / c.nBlock) 1,
      fun c i => fp32.ofVal (narrowVal c.nFmt c.nE5 (memNat c.mem (c.da (c.nScale + i / c.nBlock)) 1)
        (bitsOf (memNat c.mem (c.da (c.nData + i * c.nFmt.bits / 8)) 2) (i * c.nFmt.bits % 8) c.nFmt.bits)) true⟩
  | .vldaif (.update f e) w x => some ⟨.update f e, w, x, 0xF2, uVD + uPR + uIM 0 9, [0], [veF w 8 5], true,
      fun c =>
        let wd := if veImm w 8 1 = 0 then 6 else 4
        let a := c.st.xr (veImm w 0 4)
        (c.active.all fun i => c.inSpace 0 (a + i * wd) wd && c.inSpace 0 (c.st.xr (veImm w 4 4) + i / 64) 1) && (c.active.isEmpty || decide (a % (64 * wd) = 0)),
      fun c i =>
        let wd := if veImm w 8 1 = 0 then 6 else 4
        let b := (veSpace c.l 0).1
        let o := aifDecode (decide (veImm w 8 1 = 0)) (memNat c.mem (b + (c.st.xr (veImm w 4 4) + i / 64)) 1) (memNat c.mem (b + (c.st.xr (veImm w 0 4) + i * wd)) wd)
        (o.code, o.flags)⟩
  | _ => none
/-- What an element-wise instruction's statement says: it runs, writes its active elements and its flags, and nothing else. -/
def VeElemwise.Holds (i : Instr) (e : VeElemwise) : Prop :=
  ∀ s : State, let c := s.veIn e.l e.w
    VeTakes s e.l e.w e.op (e.used + uET) → VeSound e.x e.reads → c.typeOk e.types = true → c.alignOk e.regs = true → e.ok c = true →
    ∃ t, exec i s = .next t ∧ t.mem = s.mem ∧ VeRan s t e.l (c.active.foldl (fun a n => a ||| (e.f c n).2) 0) (c.pc + 8) (e.reads && decide (e.x = .crcCorrected)) ∧
      VeOnlyV s t e.l ∧ VeElems s t e.l c.sew c.vd c.vl c.on (fun n => (e.f c n).1)

/-- Scalar instructions: VE, word, check, opcode, fields used, the value written to xd (R98, R119). -/
def veScalarOp : Instr → Option (VeLoc × VeWord × VeCheck × Nat × Nat × (VeIn → Nat))
  | .xrdcfg l w x => some (l, w, x, 0x02, uXD + uIM 0 2, fun c =>
      if veImm w 0 2 = 0 then veLanes l else if veImm w 0 2 = 1 then c.lanes * 32 / c.sew * c.g else if veImm w 0 2 = 2 then c.vl else c.h.regN (l.page + Reg.ve.veVstat))
  | .xadd l w x => some (l, w, x, 0x03, uXD + uXS1 + uXS2, fun c => c.x1 + c.x2)
  | .xsub l w x => some (l, w, x, 0x04, uXD + uXS1 + uXS2, fun c => twos 64 ((c.x1 : Int) - (c.x2 : Int)))
  | .xaddi l w x => some (l, w, x, 0x05, uXD + uXS1 + uIM 0 29, fun c => twos 64 ((c.x1 : Int) + signOf 29 (veImm w 0 29)))
  | .xand l w x => some (l, w, x, 0x06, uXD + uXS1 + uXS2, fun c => c.x1 &&& c.x2)
  | .xor l w x => some (l, w, x, 0x07, uXD + uXS1 + uXS2, fun c => c.x1 ||| c.x2)
  | .xslli l w x => some (l, w, x, 0x08, uXD + uXS1 + uIM 0 6, fun c => c.x1 * 2 ^ veImm w 0 6)
  | .xsrli l w x => some (l, w, x, 0x09, uXD + uXS1 + uIM 0 6, fun c => c.x1 / 2 ^ veImm w 0 6)
  | .xmul l w x => some (l, w, x, 0x0A, uXD + uXS1 + uXS2, fun c => c.x1 * c.x2)
  | .ppopc l w x => some (l, w, x, 0x8C, uXD + uPS1, fun c => ((List.range c.vl).filter fun i => c.st.pb (veF w 13 3) i).length)
  | .pfirst l w x => some (l, w, x, 0x8D, uXD + uPS1, fun c => (((List.range c.vl).filter fun i => c.st.pb (veF w 13 3) i).head?).getD 0xFFFFFFFF)
  | .ucalrd (.update f e) w x => some (.update f e, w, x, 0xF4, uXD + uIM 0 10, fun c => Tab.get (c.h.ucAt f).records (16 * veImm w 4 6 + veImm w 0 4) 0)
  | _ => none
/-- Branches: VE, word, check, opcode, fields used, whether it is taken (R119). -/
def veBranch : Instr → Option (VeLoc × VeWord × VeCheck × Nat × Nat × (VeIn → Bool))
  | .beq l w x => some (l, w, x, 0x0B, uXS1 + uXS2 + uIM 0 29, fun c => decide (c.x1 = c.x2))
  | .bne l w x => some (l, w, x, 0x0C, uXS1 + uXS2 + uIM 0 29, fun c => decide (c.x1 ≠ c.x2))
  | .blt l w x => some (l, w, x, 0x0D, uXS1 + uXS2 + uIM 0 29, fun c => decide (signOf 64 c.x1 < signOf 64 c.x2))
  | .bge l w x => some (l, w, x, 0x0E, uXS1 + uXS2 + uIM 0 29, fun c => decide (signOf 64 c.x2 ≤ signOf 64 c.x1))
  | .jmp l w x => some (l, w, x, 0x0F, uIM 0 29, fun _ => true)
  | _ => none
/-- Comparisons: VE, word, check, opcode, the relation of two elements of a type; NaN is unordered (R98). -/
def veCompare : Instr → Option (VeLoc × VeWord × VeCheck × Nat × (Nat → Nat → Nat → Bool))
  | .vcmpeq l w x => some (l, w, x, 0x80, fun t a b => cmpElem t false true a b)
  | .vcmpne l w x => some (l, w, x, 0x81, fun t a b => !cmpElem t false true a b)
  | .vcmplt l w x => some (l, w, x, 0x82, fun t a b => cmpElem t true false a b)
  | .vcmple l w x => some (l, w, x, 0x83, fun t a b => cmpElem t true true a b)
  | _ => none
/-- Predicate logic: VE, word, check, opcode, fields, the function of two bits (R98). -/
def vePredicate : Instr → Option (VeLoc × VeWord × VeCheck × Nat × Nat × (Bool → Bool → Bool))
  | .pand l w x => some (l, w, x, 0x88, uPD + uPS1 + uPS2, fun a b => a && b)
  | .por l w x => some (l, w, x, 0x89, uPD + uPS1 + uPS2, fun a b => a || b)
  | .pxor l w x => some (l, w, x, 0x8A, uPD + uPS1 + uPS2, fun a b => a != b)
  | .pnot l w x => some (l, w, x, 0x8B, uPD + uPS1, fun a _ => !a)
  | _ => none

/-- The page of the block a VE belongs to. -/
def veParent : VeLoc → Nat
  | .vcore vc _ => vc.page | .epilogue mc => mc.page | .update f _ => pgUpdate f
/-- The registers that show a VE as running, waiting and queued (R127). -/
def veShown (l : VeLoc) : List Nat :=
  [l.page + Reg.ve.veStatus, l.page + 0x00C] ++ (match l with
    | .vcore vc _ => [vc.page + Reg.vcore.vcStatus, vc.page + Reg.vcore.vcQueueDepth, vc.page + 0x00C]
    | .epilogue mc => [mc.page + Reg.mcore.mcStatus, mc.page + Reg.mcore.mcQueueDepth, mc.page + 0x00C]
    | .update _ _ => [])
/-- A VE has taken its next queued program, or holds none (R121, R122). -/
def VeQueued (s t : State) (l : VeLoc) : Prop :=
  t.hw.veAt l = { s.hw.veAt l with queue := (s.hw.veAt l).queue.tail } ∧
  (∀ e q, (s.hw.veAt l).queue = e :: q → t.hw.reg (l.page + Reg.ve.vePc) = BitVec.ofNat 32 e) ∧
  ((s.hw.veAt l).queue = [] → t.hw.bit (l.page + Reg.ve.veStatus) 0 = false)
/-- The cause of R121 by which an element-wise instruction raises an exception, 0 where it raises none; e.ok covers overlap alone. -/
def VeElemwise.cause (e : VeElemwise) (s : State) : Nat :=
  let c := s.veIn e.l e.w
  if e.x = .imemParity then 12
  else if veF e.w 0 8 ≠ e.op then 1
  else if e.w.toNat &&& (2 ^ 64 - 1 - 0xFF) &&& (2 ^ 64 - 1 - (e.used + uET)) ≠ 0 ∨ 6 ≤ c.et then 2
  else if c.typeOk e.types = false then 3
  else if c.alignOk e.regs = false then 4
  else if e.ok c = false then 5
  else if e.x = .regParity then 11
  else 0

/-- A monitor's window has ended (R407): with HOLD clear the live values and bins are in the snapshot registers, the sequence number rises and event 8 is set; with HOLD set they are lost, which is counted and raises event 9. -/
def MonEnded (s t : State) (pg : Nat) (short : Bool) : Prop :=
  let seq := pg + Reg.monitor.monSnapSeq
  if s.hw.bit (pg + Reg.monitor.monCtrl) 0 then
    t.hw.fld seq 16 16 = satAdd 16 (s.hw.fld seq 16 16) 1 ∧ t.hw.fld seq 0 16 = s.hw.fld seq 0 16 ∧ t.hw.bit (pg + 0x010) 9 = true ∧
    (∀ o ∈ monSnapRegs, o ≠ Reg.monitor.monSnapSeq → t.hw.reg (pg + o) = s.hw.reg (pg + o))
  else
    t.hw.fld seq 0 16 = (s.hw.fld seq 0 16 + 1) % 2 ^ 16 ∧ t.hw.bit (pg + 0x010) 8 = true ∧
    t.hw.reg (pg + Reg.monitor.monSnapCount) = s.hw.reg (pg + Reg.monitor.monLiveCount) ∧ t.hw.reg (pg + Reg.monitor.monSnapMin) = s.hw.reg (pg + Reg.monitor.monLiveMin) ∧
    t.hw.reg (pg + Reg.monitor.monSnapMax) = s.hw.reg (pg + Reg.monitor.monLiveMax) ∧ t.hw.reg (pg + Reg.monitor.monSnapSumLo) = s.hw.reg (pg + Reg.monitor.monLiveSumLo) ∧
    t.hw.reg (pg + Reg.monitor.monSnapSumHi) = s.hw.reg (pg + Reg.monitor.monLiveSumHi) ∧
    t.hw.reg (pg + Reg.monitor.monSnapFlags) = BitVec.ofNat 32 (1 + 2 * b2n (s.hw.monAt pg).sat + 4 * b2n short) ∧
    t.hw.reg64 (pg + Reg.monitor.monSnapStrideLo) = s.hw.stride ∧
    ∀ i, i < 32 → t.hw.reg (pg + Reg.monitor.monSnapBin0 + 4 * i) = BitVec.ofNat 32 ((s.hw.monAt pg).bins.getD i 0)
/-- A monitor's live values are empty (R404). -/
def MonEmpty (t : State) (pg : Nat) : Prop :=
  t.hw.regN (pg + Reg.monitor.monLiveCount) = 0 ∧ t.hw.reg64 (pg + Reg.monitor.monLiveSumLo) = 0 ∧ (t.hw.monAt pg).bins = List.replicate 32 0 ∧ (t.hw.monAt pg).sat = false
/-- Only one monitor and what its events report may differ. -/
def MonOnly (s t : State) (pg : Nat) : Prop :=
  Outside s t ∧ t.hw = { s.hw with rf := s.wordsMsix t, mon := t.hw.mon, evlog := t.hw.evlog, out := t.hw.out } ∧
  (∀ q, q ≠ pg → t.hw.monAt q = s.hw.monAt q) ∧ PageOnly s t [pg] (eventRegs pg)

/-- A plane of a port can send a flit at once: nothing waits, credits are left, fewer than 31 flits are unacknowledged, and the plane is UP or DEGRADED (R156, R161, R162). -/
def PortReady (h : Hw) (r : RtrLoc) (p : Nat) (v : Plane) (k : Flit) : Prop :=
  let l := h.link r p v
  let c := creditTarget (h.rtrAt r) k
  l.outq = [] ∧ (Tab.get l.sent c 0 + 64 - Tab.get l.cred c 0) % 64 < 16 ∧ l.replay.length < 31 ∧ linkUp (h.linkState r p v) = true
/-- A flit has been sent over a port: its end-to-end fields and payload as they were. -/
def SentOn (s t : State) (r : RtrLoc) (p : Nat) (v : Plane) (k : Flit) : Prop :=
  ∃ n q k', neighbour r p = some (n, q) ∧ Emits s t (.flit n q v k') ∧ k'.payload = k.payload ∧ k'.f 35 77 = k.f 35 77
/-- A flit of a kind is accepted at a port of a router or hub in service: both CRCs right and in order, or from the node itself (R160, R162). -/
def HopOk (s : State) (r : RtrLoc) (q : Fin 7) (k : Flit) (kind : Nat) : Prop :=
  k.kind = kind ∧ s.hw.rtrUp r = true ∧ (s.hw.hopIn r q.val k).2 = true
/-- A flit is accepted and bound for an endpoint of this node that takes it (R164 to R170). -/
def Delivered (s : State) (r : RtrLoc) (q : Fin 7) (k : Flit) (kind : Nat) : Prop :=
  HopOk s r q k kind ∧ s.hw.route r k (decide (k.f 0 3 = 1) || decide (k.f 0 3 = 4)) = some r.localPort ∧ s.hw.refusal r k = none
/-- The end-to-end flits and their KIND (R159). -/
def endToEnd : Instr → Option (RtrLoc × Fin 7 × Flit × Nat)
  | .flitWrite r q k => some (r, q, k, 1)
  | .flitReadReq r q k _ => some (r, q, k, 2)
  | .flitReadData r q k => some (r, q, k, 3)
  | .flitResp r q k => some (r, q, k, 4)
  | .flitToken r q k => some (r, q, k, 0xB)
  | .flitFence r q k => some (r, q, k, 0xC)
  | .flitMgmt r q k _ => some (r, q, k, 0xD)
  | _ => none
/-- The flits of streams and of the tick, and their KIND (R159). -/
def streamFlit : Instr → Option (RtrLoc × Fin 7 × Flit × Nat)
  | .flitChain r q k => some (r, q, k, 5)
  | .flitRedUp r q k => some (r, q, k, 6)
  | .flitRedDown r q k => some (r, q, k, 7)
  | .flitTick r q k => some (r, q, k, 8)
  | .flitCredUp r q k => some (r, q, k, 9)
  | .flitCredDown r q k => some (r, q, k, 10)
  | _ => none

/-- The placement command that a path's staged record makes for a paddock. -/
def placeCmd (s : State) (p : Path) (f : Field) (code : Nat) (n : Paddock) : PlCmd := ⟨code, s.hw.plRecord p f, n.val, s.hw.plNext⟩
/-- A placement command is taken by a controller and its home: the page takes commands and does not load a plan, the record is well formed for a paddock the path may act for, no completion record or token is asked, the home's queue has room and holds no command of this object, and no deferred command of it may start (R199, R200, R218). -/
def PlaceReady (s : State) (p : Path) (f : Field) (code : Nat) (n : Paddock) : Prop :=
  let c := placeCmd s p f code n
  CmdOpen s p (pgPlace f) [0, 1] ∧ s.hw.blkState (pgPlace f) ≠ 1 ∧ s.hw.plPaddock p c.arg = some n ∧ s.hw.plMalformed code c.arg n = false ∧
  c.f 0x10 8 = 0 ∧ c.opt 2 = false ∧ (s.hw.plQueue (s.hw.homeOf c.handle)).length < 64 ∧ (∀ x ∈ s.hw.plQueue (s.hw.homeOf c.handle), x.handle ≠ c.handle) ∧
  (s.hw.obj c.handle).map Obj.deferReady ≠ some true
/-- A placement command was accepted and only placement has changed: the page answers OK, other objects are as before. -/
def PlaceOnly (s t : State) (p : Path) (f : Field) (code : Nat) (n : Paddock) : Prop :=
  let c := placeCmd s p f code n
  Outside s t ∧ t.hw.reg (pgPlace f + 0x020) = resultWord p code .ok ∧ (∀ h, h ≠ c.handle → t.hw.obj h = s.hw.obj h) ∧
  t.hw = { s.hw with rf := s.wordsMsix t, objs := t.hw.objs, plNext := s.hw.plNext + 1, pads := t.hw.pads, fills := t.hw.fills, freeCtr := t.hw.freeCtr, evlog := t.hw.evlog, out := t.hw.out } ∧
  PageOnly s t [pgPlace f, pgPlace (s.hw.homeOf c.handle), pgPlaceGlobal] (eventRegs (pgPlace (s.hw.homeOf c.handle)))
/-- It has completed at its home with a status: PC_LAST shows it (R218). -/
def PlaceDone (s t : State) (p : Path) (f : Field) (code : Nat) (n : Paddock) (status : Nat) : Prop :=
  PlaceOnly s t p f code n ∧ t.hw.regN (pgPlace (s.hw.homeOf (placeCmd s p f code n).handle) + Reg.placement.pcLast) = code + status <<< 8

/-- A path may give a mover channel a command: its page answers, the path may command it, it is not fenced, and its state is among those that allow the command (R221, R239, R415). -/
def MvOpen (s : State) (p : Path) (m : MvLoc) (legal : List Nat) : Prop :=
  s.hw.deadFor p m.page = false ∧ s.hw.mvMay p m = true ∧ s.hw.fencedPage m.page = false ∧ s.hw.stateCode m.page ∈ legal
/-- Only one mover channel, and what its events report, may differ; of its registers BLK_STATE, MVR_STATUS and those listed. -/
def MvOnly (s t : State) (m : MvLoc) (ks : List Nat) : Prop :=
  Outside s t ∧ t.hw = { s.hw with rf := s.wordsMsix t, mv := t.hw.mv, prov := t.hw.prov, evlog := t.hw.evlog, out := t.hw.out } ∧
  (∀ q : MvLoc, q.page ≠ m.page → t.hw.mvAt q = s.hw.mvAt q) ∧ RegsBut s t ([m.page + 0x00C, m.page + Reg.mover.mvrStatus] ++ ks)
/-- A descriptor names no completion token, and no S-core waits in SMV.WAIT on the channel. -/
def MvSilent (s : State) (m : MvLoc) (d : Nat) : Prop := dFlag d 1 = false ∧ ∀ l c, m = .cluster l c → (s.hw.sqAt l).wait = none
/-- A descriptor that never became ACTIVE, or did not stay so, has ended with a status: a record without bytes, counted, with the next sequence number; an error raises event 9 and is reported to a cluster channel's S-core (R228). -/
def MvRecorded (s t : State) (m : MvLoc) (d status : Nat) (ks : List Nat) : Prop :=
  let x := s.hw.mvAt m
  MvOnly s t m ([m.page + Reg.mover.mvrDone, m.page + Reg.mover.mvrErr] ++ ks ++ eventRegs m.page) ∧
  (t.hw.mvAt m).records = x.records ++ [⟨status, 0, x.nextSeq % 2 ^ 16, 0⟩] ∧ (t.hw.mvAt m).nextSeq = (x.nextSeq + 1) % 2 ^ 16 ∧ (t.hw.mvAt m).active = x.active ∧
  (t.hw.mvAt m).paused = x.paused ∧ (dFlag d 2 = true → t.hw.bit (m.page + 0x010) 8 = true) ∧
  (status ≤ 1 → t.hw.fld (m.page + Reg.mover.mvrDone) 0 32 = satAdd 32 (s.hw.fld (m.page + Reg.mover.mvrDone) 0 32) 1) ∧
  (1 < status → t.hw.fld (m.page + Reg.mover.mvrErr) 0 32 = satAdd 32 (s.hw.fld (m.page + Reg.mover.mvrErr) 0 32) 1 ∧ t.hw.bit (m.page + 0x010) 9 = true ∧
    ∀ l c, m = .cluster l c → Emits s t (.itemError l m.page 8))
/-- Only the transfer in ACTIVE of a channel is changed, to y. -/
def MvActive (s t : State) (m : MvLoc) (y : Xfer) : Prop := t.hw.mvAt m = { s.hw.mvAt m with active := some y }

/-- A message of this module to a node leaves at once: the node's route is valid, link k is the one its port would choose, nothing waits there, and neither the window nor the credits of CTRL class are used up (R325 to R327, R333). -/
def MsgReady (h : Hw) (node : Nat) (k : LinkLoc) : Prop :=
  node < 2 ^ 16 ∧ (∃ mask, h.routeOf node = some (k.port, mask) ∧ h.chooseLink k.port mask = some k) ∧
  (h.opLink k).outq = [] ∧ (h.opLink k).replay.length < 2048 ∧ (Tab.get (h.opLink k).sent 3 0 + 4096 - Tab.get (h.opLink k).cred 3 0) % 4096 < 1024
/-- A message frame with a type and payload went to a node over a link, sealed (R324, R339). -/
def MsgSent (s t : State) (k : LinkLoc) (node type : Nat) (payload : List Byte) : Prop :=
  ∃ z, Emits s t (.frame k z) ∧ z.kind = 5 ∧ z.dst = node ∧ z.src = s.hw.nodeId ∧ z.f 192 32 = type ∧ z.payload = sliceD payload 0 256 0 ∧ z.crcOk = true
/-- LOSS_IN as a vote takes it: only with LOSS_VALID (R280). -/
def Hw.voteLoss (h : Hw) (n : Paddock) : Option Nat :=
  if h.bit (pgCommit n + Reg.stepCommit.lossCount) 31 then some (h.regN (pgCommit n + Reg.stepCommit.lossIn)) else none
/-- The flags of a step vote: FINITE where no watch of the paddock counts a NaN or infinity, no field saw a non-finite exponent and the loss is finite; NOT_SPIKE; ARRIVED; the rest set (R277, R278, R281). -/
def Hw.voteFlags (h : Hw) (n : Paddock) (arrived : Bool) : Nat :=
  let loss := h.voteLoss n
  let finite := (h.paddockRings n).all (fun r => decide ((h.nwAt r).sums.1 = 0 ∧ (h.nwAt r).sums.2.1 = 0)) &&
    (h.paddockFields n).all (fun f => !h.bit (pgUpdate f + Reg.ucomplex.ucStatus) 2) &&
    (match loss with | some l => (match fp32.decode l with | .fin _ _ _ => true | _ => false) | none => true)
  let spike := bitOf (h.scCfg n Reg.stepCommit.scCfg) 5 && (match loss with | some l => h.spike n l | none => false)
  b2n finite + 2 * b2n (!spike) + 4 * b2n arrived + 0x38
/-- A member's unit of a round goes into the vote tree at its hub (R272, R274). -/
def UnitSent (s t : State) (n : Paddock) (round inst flags : Nat) : Prop :=
  ∀ (f : Field) (d0 d1 d2 : Word), s.hw.voteHub n = some (f, d0, d1, d2) → ∀ k ∈ unitOut 9 0x3E (wbits d0 3 10) 0 (s.hw.voteUnit n round inst flags),
    Emits s t (.flit (.hub f) 6 (kindClass k.kind).1 (k.put 0 3 (kindClass k.kind).2))
/-- Only one step-commit engine, what it sends and reports, and the clock may differ; of the registers those listed. -/
def ScOnly (s t : State) (n : Paddock) (ks : List Nat) : Prop :=
  Outside s t ∧ t.hw = { s.hw with rf := s.wordsMsix t, clk := t.hw.clk, sc := t.hw.sc, evlog := t.hw.evlog, out := t.hw.out } ∧ s.hw.clk.now ≤ t.hw.clk.now ∧
  (∀ m : Paddock, m ≠ n → t.hw.scAt m = s.hw.scAt m) ∧ RegsBut s t ks
/-- The register words that an outcome's arrival may change (R276, R362). -/
def outcomeRegs (n : Paddock) : List Nat :=
  [pgCommit n + Reg.stepCommit.scLastOutcome, pgCommit n + 0x00C, psReg n Reg.hostGlobal.ps0Outcome, psReg n Reg.hostGlobal.ps0Seq] ++ eventRegs (pgCommit n) ++ eventRegs pgHostGlobal
/-- An outcome is in the log of a member's engine and in SC_LAST_OUTCOME, with event 8 (R276). -/
def Logged (s t : State) (n : Paddock) (e : LogEntry) : Prop :=
  (t.hw.scAt n).log = (e :: (s.hw.scAt n).log).take 64 ∧ t.hw.bit (pgCommit n + 0x010) 8 = true ∧
  t.hw.regN (pgCommit n + Reg.stepCommit.scLastOutcome) = (e.outcome + e.reason <<< 4 + (e.key.attempt % 256) <<< 8 + (e.applyAt % 2 ^ 16) <<< 16) % 2 ^ 32
/-- Every entry of a field's part of the sweep image is about an object resident in T1 (R254). -/
def Hw.SweepInT1 (h : Hw) (f : Field) : Prop := ∀ x ∈ (h.ucAt f).entries, ∃ o, h.obj (eF x 0 6) = some o ∧ o.state = .t1

/-- A path may give the Farrier a command for a paddock now (R319, R415). -/
def FrOpen (s : State) (p : Path) (n : Option Paddock) (legal : List Nat) : Prop :=
  s.hw.frMay p n = true ∧ s.hw.fencedPage pgFarrier = false ∧ s.hw.blkState pgFarrier ∈ legal
/-- A Farrier command answered OK and is its last action (R319). -/
def FrDone (s t : State) (p : Path) (code : Nat) : Prop :=
  t.fuses = s.fuses ∧ t.pending = s.pending ∧ t.hw.reg (pgFarrier + 0x020) = resultWord p code .ok ∧ t.hw.regN (pgFarrier + Reg.farrier.frLastAction) = code ∧
  t.hw.regN (pgFarrier + Reg.farrier.frLastUnit) = s.hw.frSel
/-- A Farrier command answered ILLEGAL_IN_STATE, with event 0 and no other effect. -/
def FrIllegal (s t : State) (p : Path) (code : Nat) : Prop :=
  Outside s t ∧ t.hw.reg (pgFarrier + 0x020) = resultWord p code .illegal ∧ t.hw.bit (pgFarrier + 0x010) 0 = true ∧ s.hw.Reports t.hw ((pgFarrier + 0x020) :: eventRegs pgFarrier)
/-- A unit that is neither a whole field nor a cluster's router. -/
def plainUnit (k : Nat) : Prop := k < 2 ^ 16 ∧ unitCluster k ≤ 6 ∧ ¬ (unitCluster k < 6 ∧ unitUnit k = 0 ∧ unitEngine k = 1)
/-- Every page of a plain unit is fenced, or none is. -/
def UnitFence (t : State) (k : Nat) (b : Bool) : Prop := ∀ q ∈ unitPages (unitWhole k), t.hw.fencedPage q.1 = b

/-- A link of a port sends n more frames of a virtual channel at once: it is in service, nothing waits on it, and neither its window of 2,048 nor the credits of the channel are used up (R325, R326). -/
def LinkReady (h : Hw) (k : LinkLoc) (vc n : Nat) : Prop :=
  let l := h.opLink k
  l.up = true ∧ l.outq = [] ∧ l.replay.length + n ≤ 2048 ∧ (Tab.get l.sent vc 0 + 4096 - Tab.get l.cred vc 0) % 4096 + n ≤ 1024
/-- A good frame, the next in order, on a link in service that has nothing waiting, and that asks for no replay (R325). -/
def FrameNext (s : State) (k : LinkLoc) (z : Frame) : Prop :=
  let l := s.hw.opLink k
  l.up = true ∧ l.outq = [] ∧ z.crcOk = true ∧ z.sequenced = true ∧ z.f 8 12 = (l.rxSeq + 1) % 4096 ∧ z.f 32 1 = 0
/-- Every link but one is as before. -/
def LinkOnly (s t : State) (k : LinkLoc) : Prop := ∀ m : LinkLoc, m ≠ k → t.hw.opLink m = s.hw.opLink m
/-- ACK_SEQ and credits of a frame were taken: the frame acknowledged and those before it left the replay buffer (R325, R326). -/
def AckTaken (s t : State) (k : LinkLoc) (z : Frame) : Prop :=
  let l := s.hw.opLink k
  let m := t.hw.opLink k
  ((∀ y ∈ l.replay, y.f 8 12 ≠ z.f 20 12) → m.replay = l.replay) ∧
  (∀ a y b, l.replay = a ++ y :: b → y.f 8 12 = z.f 20 12 → (∀ x ∈ a, x.f 8 12 ≠ z.f 20 12) → m.replay = b) ∧
  ∀ vc, Tab.get m.cred vc 0 = if vc = z.f 33 3 ∧ vc ≠ 7 then z.f 36 12 else Tab.get l.cred vc 0
/-- One frame buffer of a frame's virtual channel was given back (R326). -/
def BufferFreed (s t : State) (k : LinkLoc) (z : Frame) : Prop :=
  ∀ vc, Tab.get (t.hw.opLink k).freed vc 0 = if vc = z.f 4 3 then (Tab.get (s.hw.opLink k).freed vc 0 + 1) % 4096 else Tab.get (s.hw.opLink k).freed vc 0
/-- A frame that another module may be meant by: its link and itself (R334). -/
def carried : Instr → Option (LinkLoc × Frame)
  | .frameFlit k z => if z.kind = 1 ∨ z.kind = 5 then some (k, z) else none
  | .frameObj k z => if z.kind = 6 then some (k, z) else none
  | _ => none
/-- What enters the mesh for a frame delivered by context j of a port (R337). -/
def proxied (f : Field) (z : Frame) (j : Nat) : Emission :=
  let y := Flit.sealed ((z.flit.put 53 13 (epNum f.val 6 3)).put 66 6 j)
  .flit (.hub f) (RtrLoc.hub f).localPort (kindClass y.kind).1 (y.put 0 3 (kindClass y.kind).2)
/-- A RESP from a port to an endpoint of this module (R336). -/
def respSent (f : Field) (ep tag status count off : Nat) : Emission :=
  .flit (.hub f) (RtrLoc.hub f).localPort .a ((respFlit (epNum f.val 6 3) ep tag status count off).put 0 3 0)
/-- A frame of this module with a flit for another node (R324). -/
def FlitFrame (h : Hw) (y : Frame) (node group : Nat) (r : Flit) : Prop :=
  y.kind = 1 ∧ y.dst = node ∧ y.src = h.nodeId ∧ y.group = group ∧ y.f 112 77 = r.f 35 77 ∧ y.payload = sliceD r.payload 0 256 0 ∧ y.crcOk = true
/-- A link left service, or its bring-up, for a state (R331): SEQ, credits, the replay buffer and what waited are gone, LINK_DOWN is set; unacknowledged WRITE and READ_REQ flits of this module are accounted LINK_DOWN, a tree's unit stops its step. -/
def LinkFell (s t : State) (k : LinkLoc) (st : Nat) (ks : List Nat) : Prop :=
  let l := s.hw.opLink k
  let m := t.hw.opLink k
  Outside s t ∧ m = { l with state := st, half := false, upper := false, rxSeq := 4095, dropping := false, txSeq := 0, replay := [], outq := [], sent := [], cred := [], freed := [], failed := m.failed, peerNode := m.peerNode, peerPort := m.peerPort, peerLink := m.peerLink, peerBoot := m.peerBoot, hbAt := m.hbAt } ∧
  (l.up = true → t.hw.bit (pgPort k.port + 0x010) 9 = true) ∧
  (l.replay = [] → l.outq = [] → LinkOnly s t k ∧ RegsBut s t (ks ++ eventRegs (pgPort k.port)) ∧
    t.hw = { s.hw with rf := s.wordsMsix t, clk := t.hw.clk, opl := t.hw.opl, evlog := t.hw.evlog, out := t.hw.out }) ∧
  (l.up = true → ∀ z ∈ l.replay ++ l.outq, z.kind = 1 →
    (z.flit.kind = 1 ∨ z.flit.kind = 2 → z.src = s.hw.nodeId → Emits s t (respSent k.port z.flit.src z.flit.tag 2 (frameFlits z) (retOff z.flit))) ∧
    (z.flit.kind = 6 ∨ z.flit.kind = 7 ∨ z.flit.kind = 9 ∨ z.flit.kind = 10 → ∀ i, (s.hw.rtrAt (.hub k.port)).flitSlot z.flit = some i →
      Emits s t (.abortAsk (wbits ((s.hw.rtrAt (.hub k.port)).slot i).1 28 2) false)))

/-- An installation message goes out on a link: its type and payload (R339). -/
def MsgOut (s t : State) (k : LinkLoc) (type : Nat) (payload : List Byte) : Prop :=
  ∃ y, Emits s t (.frame k y) ∧ y.kind = 5 ∧ y.f 4 3 = 3 ∧ y.f 192 32 = type ∧ y.src = s.hw.nodeId ∧ y.payload = sliceD payload 0 256 0 ∧ y.crcOk = true
/-- The payload of an ELECT message: TB_PRIO, NODE_ID, EPOCH, hops, delay (R343; notes/assumptions/47.md). -/
def electBytes (c : Nat × Nat) (epoch hops delay : Nat) : List Byte := leBytes 1 c.1 ++ leBytes 2 c.2 ++ leBytes 2 epoch ++ leBytes 1 hops ++ leBytes 4 delay
/-- A TIMING frame goes out on a link (R341). -/
def TimingOut (s t : State) (k : LinkLoc) (payload : List Byte) : Prop :=
  ∃ y, Emits s t (.frame k y) ∧ y.kind = 2 ∧ y.payload = sliceD payload 0 256 0 ∧ y.crcOk = true
/-- A locked module has entered HOLDOVER and begun an election: TB_LOST is flooded, a candidate floods itself with EPOCH + 1 (R32, R343). -/
def HeldOver (s t : State) : Prop :=
  let epoch := (s.hw.tb.epoch + 1) % 2 ^ 16
  Outside s t ∧ t.hw.blkState pgTimebase = 3 ∧ t.hw.bit (pgTimebase + 0x010) 9 = true ∧
  t.hw.tb = { s.hw.tb with electing := true, best := s.hw.ownCandidate, heard := [], changedAt := t.hw.clk.now, epoch := epoch, report := 0 } ∧
  (∀ k : LinkLoc, LinkReady s.hw k 3 2 → MsgOut s t k 2 [] ∧ ∀ c, s.hw.ownCandidate = some c → MsgOut s t k 3 (electBytes c epoch 0 0)) ∧
  (∀ k : LinkLoc, (s.hw.opLink k).up = false → t.hw.opLink k = s.hw.opLink k) ∧
  RegsBut s t ((pgTimebase + 0x00C) :: eventRegs pgTimebase) ∧
  t.hw = { s.hw with rf := s.wordsMsix t, clk := t.hw.clk, tb := t.hw.tb, opl := t.hw.opl, evlog := t.hw.evlog, out := t.hw.out }

/-- The register file as it was, with the words, the MSI-X area and the paths' command results of a later state. -/
def State.wordsHost (s t : State) : RegFile := { s.hw.rf with words := t.hw.rf.words, msix := t.hw.rf.msix, pathResult := t.hw.rf.pathResult }
/-- A command of a host page has answered: BLK_CMD_RESULT as its path reads it (R366). -/
def HostResult (t : State) (p : Path) (page code : Nat) (r : CmdRes) : Prop :=
  t.hw.reg (page + 0x020) = resultWord p code r ∧ Tab.get t.hw.rf.pathResult (pathKey p page) 0 = resultWord p code r
/-- A command of a host page had no effect but its answer, and event 0 where the state forbids it (R415). -/
def HostRefused (s t : State) (p : Path) (page code : Nat) (r : CmdRes) : Prop :=
  Outside s t ∧ HostResult t p page code r ∧ (r = .illegal → t.hw.bit (page + 0x010) 0 = true) ∧ RegsBut s t ((page + 0x020) :: eventRegs page) ∧
  t.hw = { s.hw with rf := s.wordsHost t, evlog := t.hw.evlog, out := t.hw.out }
/-- An event goes to a host whose route for it is enabled: a message, or a pending bit while the vector is masked (R363). -/
def Notified (s t : State) (x : HostId) (ev : Nat) : Prop :=
  let r := s.hw.evtRoute x ev
  let v := wbits r 0 11
  wbit r 31 = true →
    if wbit (s.hw.msixWord x (16 * v + 12)) 0 = true then wbit (t.hw.msixWord x (0x8000 + 4 * (v / 32))) (v % 32) = true
    else Emits s t (.msix x ((s.hw.msixWord x (16 * v)).toNat + (s.hw.msixWord x (16 * v + 4)).toNat * 2 ^ 32) (s.hw.msixWord x (16 * v + 8)))
/-- A host may give a lease command now (R351, R415). -/
def LeaseOpen (s : State) (p : Path) (x : HostId) : Prop :=
  p.host = some x ∧ s.hw.deadFor p pgHostGlobal = false ∧ s.hw.fencedPage pgHostGlobal = false ∧ s.hw.stateCode pgHostGlobal = 0
/-- A path may give a command for a paddock's plan slot now (R351, R415). -/
def SlotOpen (s : State) (p : Path) (n : Paddock) : Prop :=
  s.hw.hpArgG p = n.val ∧ s.hw.deadFor p pgHostGlobal = false ∧ s.hw.mayCommand p pgHostGlobal (some n.val) = true ∧ s.hw.fencedPage pgHostGlobal = false ∧ s.hw.stateCode pgHostGlobal = 0
/-- A host's lease has ended: no holder, LEASE_CHANGE on both ports, its apertures of the paddock are unbound, its channels there stop; with the rule for it, a RUNNING plan is asked to HOLD (R353, R356, R358). -/
def LeaseEnded (s t : State) (i : Fin 5) (x : HostId) (hold : Bool) : Prop :=
  Outside s t ∧ t.hw.holder i.val = 0 ∧ Tab.find t.hw.hp.leases i.val = none ∧ (∀ j : Fin 5, j ≠ i → t.hw.holder j.val = s.hw.holder j.val ∧ Tab.find t.hw.hp.leases j.val = Tab.find s.hw.hp.leases j.val) ∧
  t.hw.bit (pgHostGlobal + 0x010) 8 = true ∧ (∀ y : HostId, Notified s t y 5) ∧
  (i.val = 4 → t.hw = { s.hw with rf := s.wordsHost t, clk := t.hw.clk, hp := t.hw.hp, evlog := t.hw.evlog, out := t.hw.out }) ∧
  ∀ n : Paddock, n.val = i.val →
    (∀ w a, w < 16 → Tab.find t.hw.hp.aps (apKey x w) = some a → a.pad ≠ n.val) ∧
    (∀ m ∈ hostChannels x, s.hw.mvPaddock m = some n →
      (t.hw.mvAt m).active = (s.hw.mvAt m).active.map (fun a => { a with ending := a.ending.or (some 13) }) ∧ ((t.hw.mvAt m).shadow ≠ none → (t.hw.mvAt m).active ≠ none ∧ (t.hw.mvAt m).shadowEnd ≠ none)) ∧
    (hold = true → s.hw.slotState n = 3 → s.hw.bit (pgHostGlobal + Reg.hostGlobal.hpLeaseCfg) 16 = true → (s.hw.scAt n).on = true → s.hw.blkState (pgCommit n) ≠ 7 → Emits s t (.abortAsk n.val true))
/-- A host's link or endpoint is gone: every lease it held has ended, its apertures are unbound, no bind is under way, its channels' transfers are done with (R353, R356, R358). -/
def HostGone (s t : State) (x : HostId) : Prop :=
  (∀ i : Fin 5, if s.hw.holds x i.val = true then t.hw.holder i.val = 0 ∧ Tab.find t.hw.hp.leases i.val = none else t.hw.holder i.val = s.hw.holder i.val) ∧
  (∀ w, w < 16 → Tab.find t.hw.hp.aps (apKey x w) = none) ∧ Tab.find t.hw.hp.binding x.val = none ∧
  (∀ n : Paddock, s.hw.holds x n.val = true → s.hw.slotState n = 3 → s.hw.bit (pgHostGlobal + Reg.hostGlobal.hpLeaseCfg) 16 = true → (s.hw.scAt n).on = true → s.hw.blkState (pgCommit n) ≠ 7 → Emits s t (.abortAsk n.val true))
/-- HP_PEER of the other port shows a port's DL_UP and PERST, and that port's host is told (R363, R366). -/
def PeerShown (s t : State) (x : HostId) (v : Nat) : Prop := t.hw.regN (pgHostPort (otherPort x) + Reg.hostPort.hpPeer) = v ∧ Notified s t (otherPort x) 4

/-- All power is gone: everything is as before power-on but what flash, fuses, pins and time keep (R369, R371, R383). -/
def PoweredOff (s t : State) (en : Bool) : Prop :=
  t.mem = [] ∧ t.fuses = s.fuses ∧ t.pending = s.pending ∧
  t.hw = { Hw.initial with clk := { Hw.initial.clk with now := t.hw.clk.now }, freeCtr := t.hw.freeCtr, out := t.hw.out, fac := s.hw.fac, flash := s.hw.flash, boot := { BootState.empty with pwrEn := en, openLinks := s.hw.boot.openLinks } } ∧
  s.hw.clk.now ≤ t.hw.clk.now
/-- The module is powered on: stage 1 begins, OP_BOOT_COUNT counts, a field whose fusible link is open stays off (R371, R386, R433). -/
def PoweredOn (s t : State) (v : Nat) (en : Bool) : Prop :=
  Outside s t ∧ t.hw.boot.on = true ∧ t.hw.boot.pwrEn = en ∧ t.hw.boot.pwrAt = s.hw.clk.now ∧ t.hw.boot.stageAt = s.hw.clk.now ∧ t.hw.boot.waiting = false ∧ t.hw.stage = 1 ∧
  t.hw.flash = { s.hw.flash with bootCount := s.hw.flash.bootCount + 1 } ∧ t.hw.regN (pgPower + Reg.powerGlobal.ptInputV) = v % 2 ^ 32 ∧ t.hw.bit (pgPower + Reg.powerGlobal.ptLatch) 0 = true ∧
  t.hw.clk = s.hw.clk ∧ ∀ f : Field, f.val ∈ s.hw.boot.openLinks → t.hw.regN (pgFieldPower f + Reg.fieldPower.ptFuse) = 11 ∧ t.hw.blkState (pgFieldPower f) = 4
/-- The power latch is set with a cause (1 ESTOP, 2 input low, 3 input high): every field domain is at REST, T0 and T1 are lost, no plan runs, READY is clear, bring-up waits at stage 4 (R369, R383, R388). -/
def Latched (s t : State) (cause : Nat) : Prop :=
  t.mem = [] ∧ t.fuses = s.fuses ∧ t.pending = s.pending ∧ t.hw.fld (pgPower + Reg.powerGlobal.ptLatch) 1 3 = 1 + 2 * cause ∧ t.hw.bit (pgPower + 0x010) 13 = true ∧
  t.hw.bit (pgModule + Reg.module.glbStatus) 3 = true ∧ t.hw.ready = false ∧ t.hw.objs = [] ∧ t.hw.hp.aps = [] ∧ (∀ n : Paddock, t.hw.planRunning n = false) ∧
  (∀ f : Field, (t.hw.blkState (pgFieldPower f) = 0 ∨ t.hw.blkState (pgFieldPower f) = 4) ∧ t.hw.gaitFld f 12 = 4) ∧
  (4 ≤ s.hw.stage → t.hw.stage = 4 ∧ t.hw.boot.waiting = true)
/-- A field's fuse has tripped with a class: the field is at REST and out of service, its memory is gone, PT_FUSE, event TRIP and ALERT_N are set; a short's fusible link is open (R371). -/
def Tripped (s t : State) (f : Field) (cls : Nat) : Prop :=
  let pg := pgFieldPower f
  t.fuses = s.fuses ∧ t.pending = s.pending ∧ t.hw.regN (pg + Reg.fieldPower.ptFuse) = 1 + 2 * cls + (if cls = 1 then 8 else 0) ∧ t.hw.blkState pg = 4 ∧ t.hw.bit (pg + 0x010) 12 = true ∧
  t.hw.gaitFld f 12 = 4 ∧ f.val ∈ t.hw.outFields ∧ t.hw.boot.alert = true ∧ (cls = 1 → f.val ∈ t.hw.boot.openLinks) ∧ (cls = 3 → f.val ∈ t.hw.pw.hotOut) ∧
  (∀ q, fieldOfPhys q ≠ f.val → memRead t.mem q = memRead s.mem q) ∧ (f.val ∉ s.hw.outFields → ∀ q, fieldOfPhys q = f.val → memRead t.mem q = 0)
/-- A source of a field was sampled: every running monitor of the field that wants it counts one sample, the others are as before (R404). -/
def SampleTaken (s t : State) (f : Field) (kind sel : Nat) (v : Int) : Prop :=
  ∀ m : Fin 16, let pg := pgMonitor f m
    if s.hw.blkState pg = 2 ∧ monWants (s.hw.reg (pg + Reg.monitor.monSrc)) kind sel = true then
      t.hw.regN (pg + Reg.monitor.monLiveCount) = satAdd 32 (s.hw.regN (pg + Reg.monitor.monLiveCount)) 1 ∧
      t.hw.regN (pg + Reg.monitor.monLiveMin) = twos 32 (min v (signOf 32 (s.hw.regN (pg + Reg.monitor.monLiveMin)))) ∧
      t.hw.regN (pg + Reg.monitor.monLiveMax) = twos 32 (max v (signOf 32 (s.hw.regN (pg + Reg.monitor.monLiveMax))))
    else t.hw.monAt pg = s.hw.monAt pg ∧ ∀ o, o < 4096 → t.hw.reg (pg + o) = s.hw.reg (pg + o)

/-- The commands of the security page: path, code, the states that allow them (R401). -/
def secCommand : Instr → Option (Path × Nat × List Nat)
  | .attest p => some (p, 0x01, [1])
  | .advanceSvn p => some (p, 0x02, [1])
  | .ownerEnroll p => some (p, 0x03, [1])
  | .ownerRevoke p => some (p, 0x04, [1])
  | .debugChallenge p => some (p, 0x05, [0, 1])
  | .debugResponse p => some (p, 0x06, [0, 1])
  | .fwWrite p => some (p, 0x07, [1, 3])
  | .saveConfig p => some (p, 0x08, [0, 1])
  | .readCert p => some (p, 0x09, [0, 1, 3])
  | .setBootSlot p => some (p, 0x0A, [1])
  | _ => none
/-- A security command may be carried out: the page answers, the path may command it, it is not fenced, runs no command and is in a state that allows it; for a host the module is READY (R364, R401, R415). -/
def SecOpen (s : State) (p : Path) (legal : List Nat) : Prop :=
  CmdOpen s p pgSecurity legal ∧ s.hw.blkState pgSecurity ∈ legal ∧ s.hw.sec.cmd = none ∧ (p.host = none ∨ s.hw.ready = true)
/-- A security command passed its checks: it runs until CMD_DONE and reads BUSY (R401, R415); of the module only what is named may differ. -/
def SecBusy (s t : State) (p : Path) (code : Nat) : Prop :=
  t.pending = s.pending ∧ t.hw.reg (pgSecurity + 0x020) = resultWord p code .busy ∧ t.hw.sec.cmd = some (code, p) ∧ t.hw.blkState pgSecurity = 2
/-- Of the module only the security engine, the security pages, flash, and what events report differ. -/
def SecOnly (s t : State) : Prop :=
  t.mem = s.mem ∧ t.hw = { s.hw with rf := s.wordsMsix t, freeCtr := t.hw.freeCtr, sec := t.hw.sec, flash := t.hw.flash, evlog := t.hw.evlog, out := t.hw.out } ∧
  PageOnly s t [pgSecurity, pgSecBuf, pgSecBuf + 0x1000, pgSecBuf + 0x2000, pgSecBuf + 0x3000] (eventRegs pgSecurity)
/-- A security command was refused: its result, and event 0 where the state forbids it, and no other effect (R415). -/
def SecRefused (s t : State) (p : Path) (code : Nat) (r : CmdRes) : Prop :=
  Outside s t ∧ t.hw.reg (pgSecurity + 0x020) = resultWord p code r ∧ (r = .illegal → t.hw.bit (pgSecurity + 0x010) 0 = true) ∧
  s.hw.Reports t.hw ((pgSecurity + 0x020) :: eventRegs pgSecurity)
/-- Bring-up is at stage n, under way, and LOCK is not held (R386 to R389). -/
def StageRuns (s : State) (n : Nat) : Prop :=
  s.hw.boot.on = true ∧ s.hw.boot.stopped = false ∧ s.hw.boot.waiting = false ∧ s.hw.stage = n ∧ s.hw.bit (pgSecurity + Reg.security.secBoot) 9 = false ∧
  (n = 8 → s.hw.bit (pgSecurity + Reg.security.secCtrl) 0 = false) ∧ s.hw.blkState pgSecurity ≠ 3 ∧ s.hw.sec.cmd = none
/-- Bring-up is at a later stage, which begins now (R386). -/
def StageBegun (s t : State) (n : Nat) : Prop := t.hw.stage = n ∧ t.hw.boot.stageAt = s.hw.clk.now ∧ t.pending = s.pending ∧ t.hw.clk.now = s.hw.clk.now
/-- Bring-up stops short of READY: FAIL_STAGE keeps the first failing stage, BOOT_FAIL, DEGRADED, ALERT_N (R387). -/
def StageStopped (s t : State) (n : Nat) : Prop :=
  let k := pgSecurity + Reg.security.secBoot
  t.hw.stage = n ∧ t.hw.boot.stopped = true ∧ t.hw.boot.alert = true ∧ t.hw.bit (pgSecurity + 0x010) 8 = true ∧ t.hw.bit (pgModule + Reg.module.glbStatus) 1 = true ∧
  t.hw.fld k 4 4 = (if s.hw.fld k 4 4 = 0 then n else s.hw.fld k 4 4) ∧ t.pending = s.pending

end Sys2Proof.Machine
end

