-- ==== Sys2Proof/Certificates/Slice0/Obligations.lean ====
section
/-! DEFINITION. The statements for the provers: what the commands and the machine do, rule by rule. -/
open Sys2Proof Sys2Proof.Machine

/-- A step takes the command at the front and runs it on the state with the rest of the queue (notes/assumptions/12.md). -/
def Obligations.StepRunsFrontCommand : Prop :=
  ∀ (c : Instr) (s : State), step { s with pending := c :: s.pending } = exec c s

/-- The model's choice (notes/assumptions/12.md): with nothing to do, a nanosecond passes. -/
def Obligations.IdleStepPassesOneNanosecond : Prop :=
  ∀ s : State, s.pending = [] →
    ∃ t, step s = .next t ∧ Outside s t ∧ t.hw = { s.hw with clk := { s.hw.clk with now := s.hw.clk.now + 1 } }

/-- What reset leaves (R412 and the register tables). -/
def Obligations.ResetHoldsItsValues : Prop :=
  State.reset.pending = [] ∧ State.reset.mem = [] ∧ State.reset.hw.evlog = [] ∧ State.reset.hw.out = [] ∧
  (∀ l : MeLoc, State.reset.hw.reg (l.page + Reg.me.mePassCountLo) = 0 ∧ (State.reset.hw.meAt l).set0 = none ∧ (State.reset.hw.meAt l).set1 = none) ∧
  (∀ l : VeLoc, State.reset.hw.reg (l.page + Reg.ve.veVl) = 0 ∧ State.reset.hw.reg (l.page + Reg.ve.veVstat) = 0) ∧
  (∀ n : Paddock, State.reset.hw.slotState n = 0) ∧
  (∀ page, blockAt page ≠ none → page % 4096 = 0 → State.reset.hw.reg (page + 0x008) = 1 ∧ State.reset.hw.reg (page + 0x010) = 0 ∧ State.reset.hw.reg (page + 0x014) = 0)

/-- The canonical form of memory is kept by every step, whatever command it runs. -/
def Obligations.EveryStepKeepsMemoryForm : Prop :=
  ∀ s t : State, s.MemOk → step s = .next t → t.MemOk

/-- Memory at reset lists nothing. -/
def Obligations.MemoryFormHoldsAtReset : Prop :=
  State.reset.MemOk

/-- One-time fuses only burn (R394, R395, R397). -/
def Obligations.FusesOnlyBurn : Prop :=
  ∀ s t : State, step s = .next t → Fuses.Keeps s.fuses t.fuses

/-- No command stops the machine and each leaves the queue alone. -/
def Obligations.EveryCommandAnswersAndLeavesQueue : Prop :=
  (∀ (c : Instr) (s : State), ∃ t, exec c s = .next t ∧ SameQueue s t) ∧
  (∀ (c : Instr) (q : List Instr) (s : State), s.pending = c :: q → ∃ t, step s = .next t ∧ t.pending = q)

/-- Register writes (R9, R11, R12) of plain words. -/
def Obligations.RegisterWriteSetsFieldByType : Prop :=
  (∀ (p : Path) (a : RegAddr) (n : Nat) (v : Word) (s : State), ¬(n = 4 ∧ regAddrNat a % 4 = 0) → exec (.registerWrite p a n v) s = .next s) ∧
  (∀ (p : Path) (a : RegAddr) (v : Word) (s : State) (page off : Nat) (kind : PageKind) (inst : Nat) (r : RegRow),
    regAddrNat a % 4 = 0 → s.hw.target p a (regAddrNat a) = .reg page off → blockAt page = some (kind, inst) →
    kind ∉ [.monitor, .powerGlobal, .hostGlobal, .hostPort, .calliope, .calib] → 0x100 ≤ off → ownWrite p kind inst page off v = none →
    rowAt kind off = some r → off ∉ regPairs kind → (off < 4 ∨ off - 4 ∉ regPairs kind) → perPath kind (daOff (page + off)) = false → WriteOpen s p page off →
    ∃ t, exec (.registerWrite p a 4 v) s = .next t ∧ Outside s t ∧ RegsBut s t [page + off] ∧ t.hw = { s.hw with rf := s.words t } ∧
      t.hw.reg (page + off) = match r.typ with
        | .ro | .wo => s.hw.reg (page + off)
        | .w1c => s.hw.reg (page + off) &&& ~~~v
        | .rw => v &&& BitVec.ofNat 32 r.mask
        | .rwl => if s.hw.boot.locked || !(decide (p = .rm) || p.host.any fun x => s.hw.holds x 4) then s.hw.reg (page + off) else v &&& BitVec.ofNat 32 r.mask) ∧
  (∀ (p : Path) (a : RegAddr) (v : Word) (s : State) (page off : Nat), regAddrNat a % 4 = 0 → s.hw.target p a (regAddrNat a) = .reg page off →
    s.hw.deadFor p page = true → exec (.registerWrite p a 4 v) s = .next s)

/-- Register reads (R12) and the LO and HI latch of each path (R14). -/
def Obligations.RegisterReadReturnsWords : Prop :=
  (∀ (p : Path) (a : RegAddr) (n page off : Nat) (k : PageKind × Nat) (s : State), 1 ≤ n → regAddrNat a % 4 + n ≤ 4 →
    s.hw.target p a (4 * (regAddrNat a / 4)) = .reg page off → s.hw.deadFor p page = false → blockAt page = some k →
    off ∉ regPairs k.1 → (off < 4 ∨ off - 4 ∉ regPairs k.1) →
    ∃ t, exec (.subwordRead p a n) s = .next t ∧ Outside s t ∧ t.hw = { s.hw with out := s.hw.out ++ [.readData p (((leBytes 4 (s.word p page off).toNat).drop (regAddrNat a % 4)).take n)] }) ∧
  (∀ (p : Path) (a : RegAddr) (page off : Nat) (k : PageKind × Nat) (s : State), regAddrNat a % 4 = 0 →
    s.hw.target p a (regAddrNat a) = .reg page off → s.hw.deadFor p page = false → blockAt page = some k → off ∈ regPairs k.1 →
    ∃ t, exec (.loRead p a) s = .next t ∧ Outside s t ∧ t.hw.out = s.hw.out ++ [.readData p (leBytes 4 (s.word p page off).toNat)] ∧
      (∀ j, Tab.find t.hw.rf.hiLatch j = if j = pathKey p (page + off) then some (s.word p page (off + 4)) else Tab.find s.hw.rf.hiLatch j) ∧
      t.hw = { s.hw with out := t.hw.out, rf := { s.hw.rf with hiLatch := t.hw.rf.hiLatch } }) ∧
  (∀ (p : Path) (a : RegAddr) (page off : Nat) (k : PageKind × Nat) (s : State), regAddrNat a % 4 = 0 →
    s.hw.target p a (regAddrNat a) = .reg page off → s.hw.deadFor p page = false → blockAt page = some k → 4 ≤ off → off - 4 ∈ regPairs k.1 → off ∉ regPairs k.1 →
    ∃ t, exec (.hiRead p a) s = .next t ∧ Outside s t ∧
      t.hw.out = s.hw.out ++ [.readData p (leBytes 4 ((Tab.find s.hw.rf.hiLatch (pathKey p (page + off - 4))).getD (s.word p page off)).toNat)] ∧
      (∀ j, Tab.find t.hw.rf.hiLatch j = if j = pathKey p (page + off - 4) then none else Tab.find s.hw.rf.hiLatch j) ∧
      t.hw = { s.hw with out := t.hw.out, rf := { s.hw.rf with hiLatch := t.hw.rf.hiLatch } }) ∧
  (∀ (p : Path) (a : RegAddr) (n page off : Nat) (s : State), 1 ≤ n → regAddrNat a % 4 + n ≤ 4 →
    s.hw.target p a (4 * (regAddrNat a / 4)) = .reg page off → s.hw.deadFor p page = true →
    ∃ t, exec (.subwordRead p a n) s = .next t ∧ Outside s t ∧ t.hw = { s.hw with out := s.hw.out ++ [.readData p (List.replicate n 255)] }) ∧
  (∀ (p : Path) (a : RegAddr) (page off : Nat) (k : PageKind × Nat) (s : State), regAddrNat a % 8 = 0 →
    s.hw.target p a (regAddrNat a) = .reg page off → s.hw.target p a (regAddrNat a + 4) = .reg page (off + 4) → s.hw.deadFor p page = false →
    blockAt page = some k → off ∈ regPairs k.1 → off + 4 ∉ regPairs k.1 →
    ∃ t, exec (.subwordRead p a 8) s = .next t ∧ Outside s t ∧
      t.hw.out = s.hw.out ++ [.readData p (leBytes 4 (s.word p page off).toNat ++ leBytes 4 (s.word p page (off + 4)).toNat)] ∧
      Tab.find t.hw.rf.hiLatch (pathKey p (page + off)) = none)

/-- Writable 64-bit pairs (R15). -/
def Obligations.PairWriteStagesThenCommits : Prop :=
  (∀ (p : Path) (a : RegAddr) (v : Word) (s : State) (page off inst : Nat) (kind : PageKind) (r : RegRow),
    regAddrNat a % 4 = 0 → s.hw.target p a (regAddrNat a) = .reg page off → blockAt page = some (kind, inst) → 0x100 ≤ off → ownWrite p kind inst page off v = none →
    rowAt kind off = some r → r.typ = .rw → off ∈ regPairs kind → WriteOpen s p page off →
    ∃ t, exec (.loWrite p a v) s = .next t ∧ Outside s t ∧ RegsBut s t [] ∧
      (∀ j, Tab.find t.hw.rf.loStage j = if j = pathKey p (page + off) then some v else Tab.find s.hw.rf.loStage j) ∧
      t.hw = { s.hw with rf := { s.hw.rf with loStage := t.hw.rf.loStage } }) ∧
  (∀ (p : Path) (a : RegAddr) (v : Word) (s : State) (page off inst : Nat) (kind : PageKind) (r q : RegRow),
    regAddrNat a % 4 = 0 → s.hw.target p a (regAddrNat a) = .reg page (off + 4) → blockAt page = some (kind, inst) → 0x100 ≤ off →
    ownWrite p kind inst page (off + 4) v = none → kind ∉ [.monitor, .powerGlobal, .hostGlobal, .hostPort, .calliope, .calib] →
    rowAt kind off = some q → rowAt kind (off + 4) = some r → r.typ = .rw → q.typ = .rw → off ∈ regPairs kind → off + 4 ∉ regPairs kind →
    perPath kind (daOff (page + off)) = false → perPath kind (daOff (page + (off + 4))) = false → WriteOpen s p page (off + 4) →
    ∃ t, exec (.hiWrite p a v) s = .next t ∧ Outside s t ∧ RegsBut s t [page + off, page + (off + 4)] ∧
      t.hw.reg (page + (off + 4)) = v &&& BitVec.ofNat 32 r.mask ∧
      t.hw.reg (page + off) = (match Tab.find s.hw.rf.loStage (pathKey p (page + off)) with
        | some w => w &&& BitVec.ofNat 32 q.mask
        | none => s.hw.reg (page + off)) ∧
      (∀ j, Tab.find t.hw.rf.loStage j = if j = pathKey p (page + off) then none else Tab.find s.hw.rf.loStage j) ∧
      t.hw = { s.hw with rf := { s.hw.rf with words := t.hw.rf.words, loStage := t.hw.rf.loStage } })

/-- BLK_EVENT (R10, R414, R417). -/
def Obligations.EventBitsClearAndForce : Prop :=
  (∀ (p : Path) (a : RegAddr) (v hw : Word) (s : State) (page : Nat) (k : PageKind × Nat),
    s.hw.target p a (regAddrNat a) = .reg page 0x010 → blockAt page = some k → page % 4096 = 0 → WriteOpen s p page 0x010 →
    ∃ t, exec (.blkEventClear p a v hw) s = .next t ∧ Outside s t ∧ t.hw.reg (page + 0x010) = (s.hw.reg (page + 0x010) &&& ~~~v) ||| hw ∧
      RegsBut s t (errorRegs page) ∧ t.hw = { s.hw with rf := s.wordsMsix t, evlog := t.hw.evlog, out := t.hw.out, freeCtr := t.hw.freeCtr } ∧
      (hw = 0 → t.hw = (s.hw.setReg (page + 0x010) (s.hw.reg (page + 0x010) &&& ~~~v)))) ∧
  (∀ (p : Path) (a : RegAddr) (v : Word) (s : State) (page : Nat) (k : PageKind × Nat),
    s.hw.target p a (regAddrNat a) = .reg page 0x018 → blockAt page = some k → page % 4096 = 0 → WriteOpen s p page 0x018 →
    ∃ t, exec (.blkEventForce p a v) s = .next t ∧ Outside s t ∧ t.hw.reg (page + 0x010) = s.hw.reg (page + 0x010) ||| v ∧ s.hw.Reports t.hw (eventRegs page))

/-- RESET_REQ (R413). -/
def Obligations.ResetRequestClearsPageCounters : Prop :=
  ∀ (p : Path) (a : RegAddr) (s : State) (page inst : Nat) (kind : PageKind),
    s.hw.target p a (regAddrNat a) = .reg page 0x008 → blockAt page = some (kind, inst) → page % 4096 = 0 → WriteOpen s p page 0x008 →
    (s.hw.resetAllowed page = true → kind ∉ [.score, .watch, .router, .ucomplex, .port, .fieldPower, .monitor] →
      ∃ t, exec (.resetReq p a) s = .next t ∧ Outside s t ∧ t.hw.reg (page + 0x010) = 8 ∧
        (∀ o ∈ [0x024, 0x028, 0x02C] ++ counterRegs kind, page + o ∉ eventRegs page → t.hw.reg (page + o) = BitVec.ofNat 32 (resetOf (page + o))) ∧
        s.hw.Reports t.hw ((counterRegs kind).map (page + ·) ++ errorRegs page)) ∧
    (s.hw.resetAllowed page = false →
      ∃ t, exec (.resetReq p a) s = .next t ∧ Outside s t ∧ t.hw.reg (page + 0x010) = s.hw.reg (page + 0x010) ||| 1 ∧ s.hw.Reports t.hw (eventRegs page))

/-- CLEAR_COUNTERS of ME, M-core, V-core, VE, memory site, update complex, step commit, mover, host port, power and cluster memory pages. -/
def Obligations.ClearCountersCommandsZeroTheirCounters : Prop :=
  ∀ (c : Instr) (p : Path) (page code : Nat) (legal offs : List Nat), pureClear c = some (p, page, code, legal, offs) →
    ∀ s : State, CmdOpen s p page legal →
      ∃ t, exec c s = .next t ∧ Outside s t ∧ (∀ o ∈ offs, t.hw.reg (page + o) = BitVec.ofNat 32 (resetOf (page + o))) ∧
        t.hw.reg (page + 0x020) = resultWord p code .ok ∧ RegsBut s t ((page + 0x020) :: offs.map (page + ·)) ∧
        t.hw = { s.hw with rf := { s.hw.rf with words := t.hw.rf.words, pathResult := t.hw.rf.pathResult } }

/-- The order of R415 for the commands of the register pages. -/
def Obligations.CommandsAreTestedInOrder : Prop :=
  ∀ (c : Instr) (p : Path) (page code : Nat) (legal : List Nat), pageCommand c = some (p, page, code, legal) → ∀ s : State,
    (s.hw.deadFor p page = true → exec c s = .next s) ∧
    (s.hw.deadFor p page = false → s.hw.mayCommand p page none = false →
      ∃ t, exec c s = .next t ∧ Outside s t ∧ t.hw = (s.hw.denied p).cmdResult p page code .badArg) ∧
    (s.hw.deadFor p page = false → s.hw.mayCommand p page none = true → s.hw.fencedPage page = true →
      ∃ t, exec c s = .next t ∧ Outside s t ∧ t.hw.reg (page + 0x020) = resultWord p code .fenced ∧ RegsBut s t [page + 0x020]) ∧
    (s.hw.deadFor p page = false → s.hw.mayCommand p page none = true → s.hw.fencedPage page = false → s.hw.stateCode page ∉ legal → page % 4096 = 0 →
      ∃ t, exec c s = .next t ∧ Outside s t ∧ t.hw.reg (page + 0x020) = resultWord p code .illegal ∧
        t.hw.reg (page + 0x010) = s.hw.reg (page + 0x010) ||| 1 ∧ RegsBut s t ((page + 0x020) :: eventRegs page))

/-- TICK and TIMING_FRAME_LOST (R29, R43, R341). -/
def Obligations.TickBeginsNextStride : Prop :=
  ∀ s : State, (s.hw.blkState pgTimebase = 2 ∨ s.hw.blkState pgTimebase = 3) →
    (∀ n : Paddock, (s.hw.scAt n).pend = none ∧ (s.hw.scAt n).abortStride = none ∧ (s.hw.scAt n).sweepArmed = false) →
    (∀ (f : Field) (m : Fin 16), s.hw.blkState (pgMonitor f m) = 0) →
    (∀ n : Paddock, s.hw.planRunning n = true → (s.hw.pad n).stepBase ≠ (s.hw.stride + 1) % 2 ^ 48) →
    ((∃ t, exec .tick s = .next t ∧ Outside s t ∧ t.hw.stride = (s.hw.stride + 1) % 2 ^ 48 ∧
        t.hw.curLen = s.hw.lenOf ((s.hw.stride + 1) % 2 ^ 48) % 2 ^ 21 ∧ t.hw.strideOffset = 0 ∧
        t.hw.clk.tickAt = max s.hw.clk.now ((Tab.find s.hw.tb.due ((s.hw.stride + 1) % 2 ^ 48)).getD (s.hw.clk.tickAt + s.hw.curLen))) ∧
     (s.hw.tbRole = 2 → s.hw.blkState pgTimebase = 2 → Tab.find s.hw.tb.due ((s.hw.stride + 1) % 2 ^ 48) = none →
      ∃ t, exec .timingFrameLost s = .next t ∧ Outside s t ∧ t.hw.stride = (s.hw.stride + 1) % 2 ^ 48 ∧
        t.hw.clk.tickAt = max s.hw.clk.now (s.hw.clk.tickAt + s.hw.curLen)))

/-- SET_PERIOD and PERIOD_APPLY (R30). -/
def Obligations.PeriodChangeIsHeldThenApplied : Prop :=
  (∀ (p : Path) (s : State), CmdOpen s p pgTimebase [0, 1, 2, 3] →
    let per := s.hw.fld (pgTimebase + Reg.timebase.stridePeriodNext) 0 20
    let inc := s.hw.fld (pgTimebase + Reg.timebase.stretchIncrementNext) 0 20
    let at_ := s.hw.reg64 (pgTimebase + Reg.timebase.applyAtLo) % 2 ^ 48
    (s.hw.tbRole = 1 → s.hw.tb.pend = none → s.hw.anyPlan = false → 4000 ≤ per → per ≤ 1000000 → 500 ≤ inc → inc ≤ 1000000 → s.hw.stride + 16 ≤ at_ →
      ∃ t, exec (.setPeriod p) s = .next t ∧ Outside s t ∧ t.hw.tb = { s.hw.tb with pend := some (per, inc, at_) } ∧
        t.hw.reg (pgTimebase + 0x020) = resultWord p 1 .ok ∧ RegsBut s t [pgTimebase + 0x020] ∧ t.hw = { s.hw with rf := s.words t, tb := t.hw.tb }) ∧
    (s.hw.tbRole = 1 → s.hw.tb.pend = none → s.hw.anyPlan = false → (per < 4000 ∨ 1000000 < per ∨ inc < 500 ∨ 1000000 < inc ∨ at_ < s.hw.stride + 16) →
      ∃ t, exec (.setPeriod p) s = .next t ∧ t.hw.reg (pgTimebase + 0x020) = resultWord p 1 .badArg ∧ t.hw = { s.hw with rf := s.words t } ∧ RegsBut s t [pgTimebase + 0x020]) ∧
    ((s.hw.tbRole ≠ 1 ∨ s.hw.tb.pend ≠ none ∨ s.hw.anyPlan = true) →
      ∃ t, exec (.setPeriod p) s = .next t ∧ t.hw.reg (pgTimebase + 0x020) = resultWord p 1 .illegal ∧ t.hw.tb = s.hw.tb)) ∧
  (∀ (s : State) (p i a : Nat), s.hw.tb.pend = some (p, i, a) →
    (a ≤ s.hw.stride → (∀ n : Paddock, s.hw.planRunning n = false) →
      ∃ t, exec .periodApply s = .next t ∧ Outside s t ∧ t.hw.tb = { s.hw.tb with pend := none } ∧
        t.hw.reg (pgTimebase + Reg.timebase.stridePeriod) = BitVec.ofNat 32 p ∧ t.hw.reg (pgTimebase + Reg.timebase.stretchIncrement) = BitVec.ofNat 32 i ∧
        RegsBut s t ([pgTimebase + Reg.timebase.stridePeriod, pgTimebase + Reg.timebase.stretchIncrement] ++ eventRegs pgTimebase)) ∧
    (s.hw.stride < a → exec .periodApply s = .next s))

/-- STICK.WAIT, STICK.READ, SDL.MAKE (R29, R38, R40). -/
def Obligations.SCoreStrideOpcodes : Prop :=
  ∀ (l : ClLoc) (rd : Fin 32) (s : State),
    ((s.hw.sqAt l).wait = none →
      (∀ a : Dword, a.toNat % 2 ^ 48 ≤ s.hw.stride → ∃ t, exec (.stickWait l rd a) s = .next t ∧ SqOnly s t l ∧ XWritten s t l rd.val s.hw.stride none) ∧
      (∀ a : Dword, s.hw.stride < a.toNat % 2 ^ 48 → ∃ t, exec (.stickWait l rd a) s = .next t ∧ SqOnly s t l ∧
        t.hw.sqAt l = { s.hw.sqAt l with wait := some (.stick rd.val (a.toNat % 2 ^ 48)) }) ∧
      (∃ t, exec (.stickRead l rd 0) s = .next t ∧ SqOnly s t l ∧ XWritten s t l rd.val s.hw.stride none) ∧
      (∃ t, exec (.stickRead l rd 1) s = .next t ∧ SqOnly s t l ∧ XWritten s t l rd.val (s.hw.clk.now - s.hw.clk.tickAt) none) ∧
      (∃ t, exec (.stickRead l rd 2) s = .next t ∧ SqOnly s t l ∧ XWritten s t l rd.val s.hw.curLen none) ∧
      (∀ a b : Dword, ∃ t, exec (.sdlMake l rd a b) s = .next t ∧ SqOnly s t l ∧
        XWritten s t l rd.val (((s.hw.stepBaseOf l + a.toNat % 2 ^ 32) % 2 ^ 44) * 2 ^ 20 + b.toNat % 2 ^ 20) none)) ∧
    (∀ u : Nat, (s.hw.sqAt l).wait = some (.stick rd.val u) → u < 2 ^ 48 → u ≤ s.hw.stride →
      ∃ t, exec (.stickWaitDone l) s = .next t ∧ SqOnly s t l ∧ XWritten s t l rd.val s.hw.stride none)

/-- STOK.WAIT and STOK.SIG (R37, R302). -/
def Obligations.SCoreTokenOpcodes : Prop :=
  ∀ (l : ClLoc) (rd : Fin 32) (s : State),
    (∀ a b : Dword, (s.hw.sqAt l).wait = none →
      let tok := a.toNat % 256
      let n := b.toNat % 65536
      let have_ := Tab.get (s.hw.sqAt l).tok tok 0
      let taint := l.page + Reg.score.sqTaint0 + 4 * (tok / 32)
      let bad := decide (n ≠ 0) && s.hw.bit taint (tok % 32)
      (n ≤ have_ → ∃ t, exec (.stokWait l rd a b) s = .next t ∧ Outside s t ∧
        (∀ j, Tab.get (t.hw.sqAt l).tok j 0 = if j = tok then have_ - n else Tab.get (s.hw.sqAt l).tok j 0) ∧
        (∀ j, xReg t l j = if j = rd.val ∧ rd.val ≠ 0 then (have_ - n) % 2 ^ 64 else xReg s l j) ∧
        t.hw.out = s.hw.out ++ (if bad then [.itemError l l.page 9] else []) ∧ t.hw.bit taint (tok % 32) = (s.hw.bit taint (tok % 32) && decide (n = 0)) ∧
        RegsBut s t [taint] ∧ (∀ m : ClLoc, m.idx ≠ l.idx → t.hw.sqAt m = s.hw.sqAt m)) ∧
      (have_ < n → ∃ t, exec (.stokWait l rd a b) s = .next t ∧ SqOnly s t l ∧ t.hw.sqAt l = { s.hw.sqAt l with wait := some (.tok rd.val tok n) })) ∧
    (∀ tok n : Nat, (s.hw.sqAt l).wait = some (.tok rd.val tok n) → 0 < n → n ≤ Tab.get (s.hw.sqAt l).tok tok 0 →
      ∃ t, exec (.stokWaitDone l) s = .next t ∧ Outside s t ∧ (t.hw.sqAt l).wait = none ∧
        (∀ j, Tab.get (t.hw.sqAt l).tok j 0 = if j = tok then Tab.get (s.hw.sqAt l).tok tok 0 - n else Tab.get (s.hw.sqAt l).tok j 0) ∧
        (∀ j, xReg t l j = if j = rd.val ∧ rd.val ≠ 0 then (Tab.get (s.hw.sqAt l).tok tok 0 - n) % 2 ^ 64 else xReg s l j)) ∧
    (∀ (a b : Dword) (pd : Paddock) (m : ClLoc), (s.hw.sqAt l).wait = none → s.hw.paddockOfCluster l = some pd → s.hw.hostOf pd (a.toNat % 512) = some m →
      let tok := bitsOf a.toNat 16 8
      let n := b.toNat % 65536
      ∃ t, exec (.stokSig l rd a b) s = .next t ∧ Outside s t ∧ (∀ j, xReg t l j = if j = rd.val ∧ rd.val ≠ 0 then 0 else xReg s l j) ∧
        (∀ j, Tab.get (t.hw.sqAt m).tok j 0 = if j = tok ∧ s.hw.fencedPage m.page = false then min (Tab.get (s.hw.sqAt m).tok tok 0 + n) 65535 else Tab.get (s.hw.sqAt m).tok j 0) ∧
        (s.hw.fencedPage m.page = true → t.hw.fld (l.page + Reg.score.tokenEvents) 16 16 = satAdd 16 (s.hw.fld (l.page + Reg.score.tokenEvents) 16 16) 1) ∧
        RegsBut s t [l.page + Reg.score.tokenEvents, m.page + Reg.score.tokenEvents, m.page + Reg.score.sqTaint0 + 4 * (tok / 32)])

/-- ITEM_BEGIN, SITEM.BEGIN, SITEM.END, STRETCH_REQUEST (R36, R41, R42). -/
def Obligations.SCoreItemsBeginAndEnd : Prop :=
  (∀ (l : ClLoc) (i : Nat) (e : ItemEntry) (s : State), (s.hw.sqAt l).items[i]? = some e → s.hw.itemReady l i e = true →
    ∃ t, exec (.itemBegin l i) s = .next t ∧ Outside s t ∧ (t.hw.sqAt l).begun = i :: (s.hw.sqAt l).begun ∧
      Tab.find (t.hw.sqAt l).current e.leid = some i ∧ Emits s t (.itemBegin l i) ∧ (t.hw.sqAt l).items = (s.hw.sqAt l).items ∧
      (∀ j, Tab.get (t.hw.sqAt l).tok j 0 = if j = e.tokIn then Tab.get (s.hw.sqAt l).tok j 0 - e.tokCount else Tab.get (s.hw.sqAt l).tok j 0) ∧
      RegsBut s t [l.page + Reg.score.sqTaint0 + 4 * (e.tokIn / 32)]) ∧
  (∀ (l : ClLoc) (i : Nat) (e : ItemEntry) (s : State), (s.hw.sqAt l).items[i]? = some e → s.hw.itemReady l i e = false → exec (.itemBegin l i) s = .next s) ∧
  (∀ (l : ClLoc) (a : Dword) (i : Nat) (s : State), (s.hw.sqAt l).wait = none →
    ∃ t, exec (.sitemBegin l a i) s = .next t ∧ Outside s t ∧
      (t.hw.sqAt l).tracked = some ⟨a.toNat % 2 ^ 48, decide (s.hw.stride > a.toNat % 2 ^ 48)⟩ ∧ (t.hw.sqAt l).lateItem = some i ∧
      t.hw.fld (l.page + Reg.score.overrunCount) 0 32 =
        (if s.hw.stride > a.toNat % 2 ^ 48 then satAdd 32 (s.hw.fld (l.page + Reg.score.overrunCount) 0 32) 1 else s.hw.fld (l.page + Reg.score.overrunCount) 0 32) ∧
      RegsBut s t [l.page + Reg.score.sqReplays, l.page + Reg.score.overrunCount, pgTimebase + Reg.timebase.overrunTotal]) ∧
  (∀ (l : ClLoc) (rd : Fin 32) (s : State) (x : Tracked), (s.hw.sqAt l).wait = none → (s.hw.sqAt l).tracked = some x →
    (∀ m : Fin 16, s.hw.blkState (pgMonitor l.f m) = 0) →
    let carry := if s.hw.stride > x.stride then s.hw.clk.now - s.hw.tickTime (x.stride + 1) else 0
    ∃ t, exec (.sitemEnd l rd) s = .next t ∧ Outside s t ∧ (t.hw.sqAt l).tracked = none ∧
      (∀ j, xReg t l j = if j = rd.val ∧ rd.val ≠ 0 then carry % 2 ^ 64 else xReg s l j) ∧
      t.hw.regN (l.page + Reg.score.maxCarryNs) = max (s.hw.regN (l.page + Reg.score.maxCarryNs)) (min carry (2 ^ 32 - 1)) ∧
      RegsBut s t [l.page + Reg.score.maxCarryNs]) ∧
  (∀ (l : ClLoc) (s : State), s.hw.behind l = true → (s.hw.sqAt l).stretchSent = false →
    let ok := (match s.hw.paddockOfCluster l with | some n => s.hw.bit (pgTimebase + Reg.timebase.stretchReqEn) n.val | none => false) &&
      decide (s.hw.blkState pgTimebase ≠ 3)
    ∃ t, exec (.stretchRequest l) s = .next t ∧ Outside s t ∧ (t.hw.sqAt l).stretchSent = true ∧
      s.hw.clk.tickAt + s.hw.effSlack l ≤ t.hw.clk.now ∧
      t.hw.out = s.hw.out ++ (if ok then [.stretchReq l s.hw.stride] else []) ∧
      (ok = true → RegsBut s t [l.page + Reg.score.stretchReqCount] ∧
        t.hw.fld (l.page + Reg.score.stretchReqCount) 0 32 = satAdd 32 (s.hw.fld (l.page + Reg.score.stretchReqCount) 0 32) 1) ∧
      (ok = false → RegsBut s t [pgTimebase + Reg.timebase.stretchWithheld] ∧
        t.hw.fld (pgTimebase + Reg.timebase.stretchWithheld) 0 32 = satAdd 32 (s.hw.fld (pgTimebase + Reg.timebase.stretchWithheld) 0 32) 1))

/-- MPASS, MFWD, MSIG and MWAIT (R56, R58, R71, R76, R80, R82, R83). -/
def Obligations.MatrixInstructionsIssueAndAdvance : Prop :=
  ∀ (l : MeLoc) (w : MeWord) (x : MemCheck) (s : State), MeTakes s l → (∀ o, x ≠ .failed o) →
    let a := s.hw.meAt l
    (mpassCause a w = none →
      let set := if meF w 9 1 = 1 then a.prevSet else 1 - a.prevSet
      ∃ t, exec (.mpass l w x) s = .next t ∧ MeChain s t l ∧ MeAdvanced s t l ∧ (t.hw.meAt l).nextId = a.nextId + 1 ∧ (t.hw.meAt l).prevSet = set ∧
        .pass a.nextId w set ∈ (t.hw.meAt l).ops) ∧
    (meOtherCause 3 w = none → a.ops = [] →
      let n := meF w 17 12
      let k := min n a.chainIn.length
      ∃ t, exec (.mfwd l w x) s = .next t ∧ MeChain s t l ∧ MeAdvanced s t l ∧ (t.hw.meAt l).chainIn = a.chainIn.drop k ∧
        (t.hw.meAt l).set0 = a.set0 ∧ (t.hw.meAt l).set1 = a.set1 ∧ (t.hw.meAt l).kmask = a.kmask ∧ (t.hw.meAt l).nmask = a.nmask ∧ (t.hw.meAt l).prevSet = a.prevSet ∧
        (t.hw.meAt l).ops = (if k = n then [] else [.fwd a.nextId (n - k)]) ∧ (t.hw.meAt l).nextId = (if n = 0 then a.nextId else a.nextId + 1) ∧
        (l.e = 3 → t.hw.out = s.hw.out ++ (a.chainIn.take k).map (Emission.chainOut l.mc))) ∧
    (meOtherCause 5 w = none →
      ∃ t, exec (.msig l w x) s = .next t ∧ Outside s t ∧ MeOnly s t l ∧ t.hw = { s.hw with rf := s.words t, me := t.hw.me } ∧ RegsBut s t [l.mc.page + Reg.mcore.mcLmemCrc] ∧
        t.hw.meAt l = { a with sigs := a.sigs ++ [(a.nextId, w)], nextId := a.nextId + 1, pc := a.pc + 16 }) ∧
    (meOtherCause 6 w = none →
      let ctr := meF w 7 4
      let n := meF w 11 16
      let c := s.hw.syncGet l.mc.page syncOff ctr
      ∃ t, exec (.mwait l w x) s = .next t ∧ Outside s t ∧ MeOnly s t l ∧
        t.hw.meAt l = { a with pc := a.pc + 16, wait := if n ≤ c then none else some (ctr, n) } ∧
        t.hw.syncGet l.mc.page syncOff ctr = (if n ≤ c then c - n else c) ∧
        (∀ j, j < 16 → j ≠ ctr → t.hw.syncGet l.mc.page syncOff j = s.hw.syncGet l.mc.page syncOff j) ∧
        t.hw = { s.hw with rf := s.words t, me := t.hw.me, syncTaint := t.hw.syncTaint, errMark := t.hw.errMark, prov := t.hw.prov, out := t.hw.out } ∧
        (bitOf (Tab.get s.hw.syncTaint l.mc.page 0) ctr = false → t.hw.syncTaint = s.hw.syncTaint ∧ t.hw.errMark = s.hw.errMark ∧ t.hw.prov = s.hw.prov ∧ t.hw.out = s.hw.out) ∧
        RegsBut s t [l.mc.page + Reg.mcore.mcLmemCrc, syncReg l.mc.page syncOff ctr])

/-- MLOAD, MMASK and failed reads (R55, R68, R69, R70, R75, R78, R81). -/
def Obligations.MatrixLoadsAndMasksTakeTheirData : Prop :=
  (∀ (l : MeLoc) (w : MeWord) (x : MemCheck) (s : State), MeTakes s l → (∀ o, x ≠ .failed o) → (s.hw.meAt l).ops = [] →
    let a := s.hw.meAt l
    let i := meF w 8 1
    let setOf := fun (m : MeState) (j : Nat) => if j = 0 then m.set0 else m.set1
    (mloadCause w = none →
      ∃ t, exec (.mload l w x) s = .next t ∧ MeChain s t l ∧ MeAdvanced s t l ∧ (t.hw.meAt l).nextId = a.nextId + 1 ∧ (t.hw.meAt l).prevSet = a.prevSet ∧
        (t.hw.meAt l).kmask = a.kmask ∧ (t.hw.meAt l).nmask = a.nmask ∧ (∀ j, j < 2 → j ≠ i → setOf (t.hw.meAt l) j = setOf a j) ∧
        (meF w 9 1 = 0 → setOf (t.hw.meAt l) i = some (feederTile s.mem (lmemBase l.mc) w) ∧ (t.hw.meAt l).chainIn = a.chainIn ∧ (t.hw.meAt l).ops = []) ∧
        (meF w 9 1 = 1 → a.chainIn = [] → setOf (t.hw.meAt l) i = setOf a i ∧ (t.hw.meAt l).ops = [.load a.nextId w]) ∧
        (∀ (b : Tile) (r : List Tile), meF w 9 1 = 1 → a.chainIn = b :: r → (t.hw.meAt l).chainIn = r ∧ (t.hw.meAt l).ops = [] ∧
          let k := l.mc.page + Reg.mcore.mcChainTagErr
          (b.shape = meF w 6 2 ∧ b.fmt = meF w 11 3 ∧ b.blk = meF w 14 2 ∧ b.sfmt = meF w 16 1 → setOf (t.hw.meAt l) i = some b) ∧
          (¬ (b.shape = meF w 6 2 ∧ b.fmt = meF w 11 3 ∧ b.blk = meF w 14 2 ∧ b.sfmt = meF w 16 1) → setOf (t.hw.meAt l) i = none ∧
            satAdd 32 (s.hw.fld k 0 32) 1 ≤ t.hw.fld k 0 32))) ∧
    (meOtherCause 4 w = none →
      let v := memNat s.mem (lmemBase l.mc + meF w 64 20 * 16) 32
      ∃ t, exec (.mmask l w x) s = .next t ∧ MeChain s t l ∧ MeAdvanced s t l ∧ (t.hw.meAt l).set0 = a.set0 ∧ (t.hw.meAt l).set1 = a.set1 ∧ (t.hw.meAt l).chainIn = a.chainIn ∧
        (∀ j, Tab.get (t.hw.meAt l).kmask j 0 = if j = meF w 7 3 ∧ meF w 6 1 = 0 then v else Tab.get a.kmask j 0) ∧
        (∀ j, Tab.get (t.hw.meAt l).nmask j 0 = if j = meF w 7 3 ∧ meF w 6 1 = 1 then v else Tab.get a.nmask j 0))) ∧
  (∀ (l : MeLoc) (w : MeWord) (o : Nat) (s : State) (c : Instr), MeTakes s l →
    (c = .mpass l w (.failed o) ∧ mpassCause (s.hw.meAt l) w = none ∨ c = .mload l w (.failed o) ∧ mloadCause w = none ∨ c = .mmask l w (.failed o) ∧ meOtherCause 4 w = none) →
    ∃ t, exec c s = .next t ∧ Outside s t ∧ MeAdvanced s t l ∧ (t.hw.meAt l).ops = (s.hw.meAt l).ops ∧ MeOnly s t l ∧
      (c = .mload l w (.failed o) → (if meF w 8 1 = 0 then (t.hw.meAt l).set0 else (t.hw.meAt l).set1) = none) ∧
      t.hw.fld (l.mc.page + Reg.mcore.mcLmemCrc) 16 16 = satAdd 16 (s.hw.fld (l.mc.page + Reg.mcore.mcLmemCrc) 16 16) 1 ∧
      t.hw.bit (l.mc.page + 0x010) 10 = true ∧ Emits s t (.itemError (s.hw.ownerOf l.mc) l.page 3) ∧ t.hw.marked l.page = true ∧
      RegsBut s t ([l.mc.page + Reg.mcore.mcLmemCrc, l.page + 0x00C, l.page + Reg.me.meStatus] ++ errorRegs l.mc.page))

/-- R77: illegal instructions of the matrix engines (with R71, R89, R302). -/
def Obligations.IllegalMatrixInstructionEndsProgram : Prop :=
  ∀ (l : MeLoc) (w : MeWord) (x : MemCheck) (s : State) (c : Nat) (i : Instr), MeTakes s l →
    (i = .mpass l w x ∧ mpassCause (s.hw.meAt l) w = some c ∨ i = .mload l w x ∧ mloadCause w = some c ∨ i = .mfwd l w x ∧ meOtherCause 3 w = some c ∨
     i = .mmask l w x ∧ meOtherCause 4 w = some c ∨ i = .msig l w x ∧ meOtherCause 5 w = some c ∨ i = .mwait l w x ∧ meOtherCause 6 w = some c ∨
     i = .mend l w x ∧ meOtherCause 7 w = some c) →
    let a := s.hw.meAt l
    let pg := l.mc.page
    ∃ t, exec i s = .next t ∧ Outside s t ∧ MeOnly s t l ∧
      t.hw.meAt l = (match a.queue with | e :: q => { a with pc := e, queue := q } | [] => a) ∧
      t.hw.bit (pg + 0x010) 8 = true ∧ Emits s t (.itemError (s.hw.ownerOf l.mc) l.page 4) ∧ t.hw.marked l.page = true ∧
      (s.hw.bit (pg + 0x010) 1 = false → t.hw.reg (pg + 0x024) = BitVec.ofNat 32 a.pc ∧ t.hw.reg (pg + 0x028) = BitVec.ofNat 32 (a.pc >>> 32) ∧
        t.hw.fld (pg + 0x02C) 0 16 = (c + 16 * l.e.val) % 2 ^ 16 ∧ t.hw.bit (pg + 0x010) 1 = true) ∧
      (a.queue = [] → t.hw.bit (pg + Reg.mcore.mcStatus) l.e.val = false) ∧
      t.hw = { s.hw with rf := s.wordsMsix t, me := t.hw.me, evlog := t.hw.evlog, out := t.hw.out, errMark := t.hw.errMark, prov := t.hw.prov } ∧
      RegsBut s t ([pg + Reg.mcore.mcQueueDepth, pg + Reg.mcore.mcStatus, pg + 0x00C] ++ errorRegs pg)

/-- PASS_START (R51, R52, R58, R65, R66, R78, R79). -/
def Obligations.HeldPassRunsWhole : Prop :=
  ∀ (l : MeLoc) (x : ParityCheck) (s : State),
    let a := s.hw.meAt l
    let isPass := fun (o : MeOp) => match o with | .pass .. => true | _ => false
    (a.ops.find? isPass = none → exec (.passStart l x) s = .next s) ∧
    (∀ (id : Nat) (w : MeWord) (set : Nat), a.ops.find? isPass = some (.pass id w set) →
      let held := a.ops.any fun o => decide (o.id < id) && (match o with | .load _ lw => decide (meF lw 8 1 = set) | .mask .. => true | _ => false)
      (held = true → exec (.passStart l x) s = .next s) ∧
      (held = false →
        let pc := l.page + Reg.me.mePassCountLo
        let rc := l.page + Reg.me.meRowCountLo
        ∃ t, exec (.passStart l x) s = .next t ∧ Outside s t ∧ (t.hw.meAt l).acc = passAcc s.mem (lmemBase l.mc) w (if set = 0 then a.set0 else a.set1) a ∧
          (∀ o ∈ (t.hw.meAt l).ops, o.id ≠ id) ∧ (t.hw.meAt l).pc = a.pc ∧ (t.hw.meAt l).sigs = a.sigs ∧ (t.hw.meAt l).wait = a.wait ∧ (t.hw.meAt l).queue = a.queue ∧
          t.hw.reg64 pc = (s.hw.reg64 pc + 1) % 2 ^ 64 ∧ t.hw.reg64 rc = (s.hw.reg64 rc + meF w 17 12 + 1) % 2 ^ 64 ∧
          (x ≠ .none → t.hw.marked l.page = true ∧ t.hw.bit (l.page + 0x010) (if x = .stationary then 8 else 9) = true ∧
            Emits s t (.itemError (s.hw.ownerOf l.mc) l.page (if x = .stationary then 1 else 2))) ∧
          (∀ m : MeLoc, m.mc ≠ l.mc ∨ m.e < l.e → t.hw.meAt m = s.hw.meAt m) ∧
          t.hw = { s.hw with rf := s.wordsMsix t, me := t.hw.me, evlog := t.hw.evlog, out := t.hw.out, errMark := t.hw.errMark, prov := t.hw.prov } ∧
          RegsBut s t ([pc, pc + 4, rc, rc + 4, l.page + Reg.me.meParityCount] ++ meChainRegs l.mc ++ eventRegs l.page)))

/-- MSIG_EFFECT and MWAIT_DONE (R37, R76, R83). -/
def Obligations.MatrixSignalsAndWaitsUseCounters : Prop :=
  ∀ (l : MeLoc) (s : State),
    let a := s.hw.meAt l
    (a.sigs = [] → exec (.msigEffect l) s = .next s) ∧
    (∀ (id : Nat) (w : MeWord) (r : List (Nat × MeWord)), a.sigs = (id, w) :: r →
      let busy := a.ops.any fun o => o.work && decide (o.id < id)
      (busy = true → exec (.msigEffect l) s = .next s) ∧
      (busy = false → meF w 6 1 = 0 →
        let ctr := meF w 7 4
        let v := s.hw.syncGet l.mc.page syncOff ctr + meF w 11 16
        ∃ t, exec (.msigEffect l) s = .next t ∧ Outside s t ∧ MeOnly s t l ∧ t.hw.meAt l = { a with sigs := r } ∧
          t.hw.syncGet l.mc.page syncOff ctr = min v 65535 ∧ (∀ j, j < 16 → j ≠ ctr → t.hw.syncGet l.mc.page syncOff j = s.hw.syncGet l.mc.page syncOff j) ∧
          (65535 < v → t.hw.bit (l.mc.page + 0x010) 12 = true) ∧ RegsBut s t (syncReg l.mc.page syncOff ctr :: eventRegs l.mc.page) ∧
          (v ≤ 65535 → RegsBut s t [syncReg l.mc.page syncOff ctr])) ∧
      (∀ (pd : Paddock) (m : ClLoc), busy = false → meF w 6 1 = 1 → s.hw.paddockOfCluster (s.hw.ownerOf l.mc) = some pd → s.hw.hostOf pd (meF w 27 9) = some m →
        s.hw.fencedPage m.page = false →
        let tok := meF w 36 8
        ∃ t, exec (.msigEffect l) s = .next t ∧ Outside s t ∧ MeOnly s t l ∧ t.hw.meAt l = { a with sigs := r } ∧
          (∀ j, Tab.get (t.hw.sqAt m).tok j 0 = if j = tok then min (Tab.get (s.hw.sqAt m).tok tok 0 + meF w 11 16) 65535 else Tab.get (s.hw.sqAt m).tok j 0) ∧
          RegsBut s t [m.page + Reg.score.tokenEvents, m.page + Reg.score.sqTaint0 + 4 * (tok / 32)])) ∧
    (∀ ctr n : Nat, a.wait = some (ctr, n) → ctr < 16 →
      let c := s.hw.syncGet l.mc.page syncOff ctr
      (c < n → exec (.mwaitDone l) s = .next s) ∧
      (n ≤ c → ∃ t, exec (.mwaitDone l) s = .next t ∧ Outside s t ∧ MeOnly s t l ∧ t.hw.meAt l = { a with wait := none } ∧
        t.hw.syncGet l.mc.page syncOff ctr = c - n ∧ (∀ j, j < 16 → j ≠ ctr → t.hw.syncGet l.mc.page syncOff j = s.hw.syncGet l.mc.page syncOff j) ∧
        RegsBut s t [syncReg l.mc.page syncOff ctr]))

/-- Program starts, ends and clears (R55, R66, R71, R83, R122, R127). -/
def Obligations.ProgramStartsQueueAndEnd : Prop :=
  (∀ (p : Path) (l : McLoc) (e : Fin 4) (v : Word) (s : State), WriteOpen s p l.page (Reg.mcore.mcStart0 + 4 * e.val) →
    let m : MeLoc := ⟨l, e⟩
    let a := s.hw.meAt m
    let entry := wbits v 4 14 * 16
    let shut := s.hw.fencedPage l.page || decide (s.hw.blkState l.page = 4)
    ∃ t, exec (.mcStartWrite p l ⟨e.val, by omega⟩ v) s = .next t ∧ Outside s t ∧ MeOnly s t m ∧
      (shut = false → s.hw.bit (l.page + Reg.mcore.mcStatus) e.val = false → t.hw.meAt m = { a with pc := entry } ∧
        t.hw.bit (l.page + Reg.mcore.mcStatus) e.val = true ∧ RegsBut s t [l.page + Reg.mcore.mcStatus, l.page + 0x00C]) ∧
      (shut = false → s.hw.bit (l.page + Reg.mcore.mcStatus) e.val = true → a.queue.length < 8 → t.hw.meAt m = { a with queue := a.queue ++ [entry] } ∧
        t.hw.fld (l.page + Reg.mcore.mcQueueDepth) (4 * e.val) 4 = a.queue.length + 1 ∧ RegsBut s t [l.page + Reg.mcore.mcQueueDepth]) ∧
      ((shut = true ∨ s.hw.bit (l.page + Reg.mcore.mcStatus) e.val = true ∧ 8 ≤ a.queue.length) → t.hw.meAt m = a ∧
        t.hw.fld (l.page + Reg.mcore.mcStartOvf) 0 32 = satAdd 32 (s.hw.fld (l.page + Reg.mcore.mcStartOvf) 0 32) 1 ∧
        t.hw.bit (l.page + 0x010) 11 = true ∧ RegsBut s t ((l.page + Reg.mcore.mcStartOvf) :: eventRegs l.page))) ∧
  (∀ (p : Path) (v : Word) (s : State) (c : Instr) (m : VeLoc) (pg off entry ovf ev : Nat) (shut : Bool) (shown : List Nat),
    ((∃ (l : VcLoc) (e : Fin 4), c = .vcStartWrite p l e v ∧ m = .vcore l e ∧ pg = l.page ∧ off = Reg.vcore.vcStart0 + 4 * e.val ∧ entry = wbits v 3 14 * 8 ∧
        ovf = pg + Reg.vcore.vcStartOvf ∧ ev = 9 ∧ shut = s.hw.fencedPage pg ∧ shown = [pg + Reg.vcore.vcStatus, pg + Reg.vcore.vcQueueDepth, pg + 0x00C]) ∨
     (∃ l : McLoc, c = .mcStartWrite p l 4 v ∧ m = .epilogue l ∧ pg = l.page ∧ off = Reg.mcore.mcStart0 + 16 ∧ entry = wbits v 3 15 * 8 ∧
        ovf = pg + Reg.mcore.mcStartOvf ∧ ev = 11 ∧ shut = (s.hw.fencedPage pg || decide (s.hw.blkState pg = 4)) ∧
        shown = [pg + Reg.mcore.mcStatus, pg + Reg.mcore.mcQueueDepth, pg + 0x00C])) →
    WriteOpen s p pg off →
    let a := s.hw.veAt m
    let runs := s.hw.bit (m.page + Reg.ve.veStatus) 0
    ∃ t, exec c s = .next t ∧ Outside s t ∧ (∀ n : VeLoc, n ≠ m → t.hw.veAt n = s.hw.veAt n) ∧
      (shut = false → runs = false → t.hw.veAt m = a ∧ t.hw.regN (m.page + Reg.ve.vePc) = entry ∧ t.hw.bit (m.page + Reg.ve.veStatus) 0 = true ∧
        RegsBut s t ([m.page + Reg.ve.vePc, m.page + Reg.ve.veStatus, m.page + 0x00C] ++ shown)) ∧
      (shut = false → runs = true → a.queue.length < 8 → t.hw.veAt m = { a with queue := a.queue ++ [entry] } ∧
        RegsBut s t ([m.page + Reg.ve.veStatus, m.page + 0x00C] ++ shown)) ∧
      ((shut = true ∨ runs = true ∧ 8 ≤ a.queue.length) → t.hw.veAt m = a ∧
        t.hw.fld ovf 0 32 = satAdd 32 (s.hw.fld ovf 0 32) 1 ∧ t.hw.bit (pg + 0x010) ev = true ∧ RegsBut s t (ovf :: eventRegs pg))) ∧
  (∀ (l : MeLoc) (w : MeWord) (x : MemCheck) (s : State), MeTakes s l → (∀ o, x ≠ .failed o) → meOtherCause 7 w = none → Tab.get s.hw.prov l.page [] = [] →
    let a := s.hw.meAt l
    ∃ t, exec (.mend l w x) s = .next t ∧ Outside s t ∧ MeOnly s t l ∧
      t.hw.meAt l = (match a.queue with | e :: q => { a with pc := e, queue := q } | [] => { a with pc := a.pc + 16 }) ∧
      (a.queue = [] → t.hw.bit (l.mc.page + Reg.mcore.mcStatus) l.e.val = false) ∧
      t.hw = { s.hw with rf := s.words t, me := t.hw.me, prov := t.hw.prov } ∧
      RegsBut s t [l.mc.page + Reg.mcore.mcLmemCrc, l.mc.page + Reg.mcore.mcQueueDepth, l.mc.page + Reg.mcore.mcStatus, l.mc.page + 0x00C]) ∧
  (∀ (p : Path) (l : MeLoc) (s : State), CmdOpen s p l.page [0] →
    ∃ t, exec (.meClearSets p l) s = .next t ∧ Outside s t ∧ MeOnly s t l ∧ t.hw.meAt l = { s.hw.meAt l with set0 := none, set1 := none } ∧
      t.hw.reg (l.page + 0x020) = resultWord p 1 .ok ∧ RegsBut s t [l.page + 0x020, l.page + 0x00C, l.page + Reg.me.meStatus]) ∧
  (∀ (p : Path) (s : State) (c : Instr) (pg : Nat), (∃ l, c = .mcClearSync p l ∧ pg = l.page) ∨ (∃ l, c = .vcClearSync p l ∧ pg = l.page) → CmdOpen s p pg [0] →
    ∃ t, exec c s = .next t ∧ Outside s t ∧ (∀ i, i < 16 → t.hw.syncGet pg syncOff i = 0) ∧ Tab.find t.hw.syncTaint pg = none ∧ t.hw.reg (pg + 0x020) = resultWord p 1 .ok ∧
      t.hw = { s.hw with rf := s.words t, syncTaint := t.hw.syncTaint } ∧ RegsBut s t ((pg + 0x020) :: (List.range 8).map fun i => pg + syncOff + 4 * i))

/-- The floating-point element-wise instructions (R91 to R93, R96 to R98, R116, R120). -/
def Obligations.VectorFloatElements : Prop :=
  ∀ (i : Instr) (e : VeElemwise), veFloat i = some e → e.Holds i

/-- The integer and index instructions (R91 to R93, R97, R98, R108, R120). -/
def Obligations.VectorIntegerElements : Prop :=
  ∀ (i : Instr) (e : VeElemwise), veInteger i = some e → e.Holds i

/-- VLD, VLDN and VLDAIF (R101 to R105, R131, R142, R251). -/
def Obligations.VectorLoadsElements : Prop :=
  ∀ (i : Instr) (e : VeElemwise), veLoads i = some e → e.Holds i

/-- R106: VCOMPRESS. -/
def Obligations.VectorCompressWritesInOrder : Prop :=
  ∀ (l : VeLoc) (w : VeWord) (x : VeCheck) (s : State), let c := s.veIn l w
    VeTakes s l w 0xA0 (uVD + uVS1 + uPR + uIM 0 4 + uET) → VeSound x false → c.typeOk allTypes = true → c.alignOk [c.vd, c.vs1] = true → c.meet c.vd c.vs1 = false →
    ∃ t, exec (.vcompress l w x) s = .next t ∧ t.mem = s.mem ∧ VeRan s t l 0 (c.pc + 8) false ∧
      t.hw.veAt l = { s.hw.veAt l with v := (t.hw.veAt l).v, x := (t.hw.veAt l).x } ∧ VeScalar s t l (veImm w 0 4) c.active.length ∧
      VeElems s t l c.sew c.vd c.active.length (fun _ => true) (fun k => c.get c.vs1 (c.active.getD k 0))

/-- R107: VEXPAND. -/
def Obligations.VectorExpandFillsActiveElements : Prop :=
  ∀ (l : VeLoc) (w : VeWord) (x : VeCheck) (s : State), let c := s.veIn l w
    VeTakes s l w 0xA1 (uVD + uVS1 + uPR + uET) → VeSound x false → c.typeOk allTypes = true → c.alignOk [c.vd, c.vs1] = true → c.meet c.vd c.vs1 = false →
    ∃ t, exec (.vexpand l w x) s = .next t ∧ t.mem = s.mem ∧ VeRan s t l 0 (c.pc + 8) false ∧ VeOnlyV s t l ∧
      VeElems s t l c.sew c.vd c.vl c.on (fun i => c.get c.vs1 (c.active.filter (fun j => decide (j < i))).length)

/-- VMERGE, VSLIDEUP, shifts, VMVSX (R95, R98, R108, R120). -/
def Obligations.VectorMergesSlidesAndShifts : Prop :=
  ∀ (l : VeLoc) (w : VeWord) (x : VeCheck) (s : State), let c := s.veIn l w
    VeSound x false →
    (VeTakes s l w 0x6B (uVD + uVS1 + uPR + uVX w + uET) → c.typeOk allTypes = true → c.alignOk (pairRegs w) = true →
      ∃ t, exec (.vmerge l w x) s = .next t ∧ t.mem = s.mem ∧ VeRan s t l 0 (c.pc + 8) false ∧ VeOnlyV s t l ∧
        VeElems s t l c.sew c.vd c.vl (fun _ => true) (fun i => if (s.hw.veAt l).pb (veF w 28 3) i then c.get c.vs1 i else c.get2 i)) ∧
    (VeTakes s l w 0xA2 (uVD + uVS1 + uPR + uXS2 + uET) → c.typeOk allTypes = true → c.alignOk [c.vd, c.vs1] = true → c.meet c.vd c.vs1 = false →
      ∃ t, exec (.vslideup l w x) s = .next t ∧ t.mem = s.mem ∧ VeRan s t l 0 (c.pc + 8) false ∧ VeOnlyV s t l ∧
        VeElems s t l c.sew c.vd c.vl (fun i => c.on i && decide (c.x2 ≤ i)) (fun i => c.get c.vs1 (i - c.x2))) ∧
    (∀ (i : Instr) (op : Nat) (f : Nat → Nat → Nat),
      (i = .vsll l w x ∧ op = 0x66 ∧ f = (fun a n => a * 2 ^ n) ∨ i = .vsrl l w x ∧ op = 0x67 ∧ f = (fun a n => a / 2 ^ n) ∨
       i = .vsra l w x ∧ op = 0x68 ∧ f = (fun a n => twos 32 (signOf 32 a / 2 ^ n))) →
      VeTakes s l w op (uVD + uVS1 + uPR + uVX w + uET) → c.typeOk intTypes = true → c.alignOk (pairRegs w) = true →
      ∃ t, exec i s = .next t ∧ t.mem = s.mem ∧ VeRan s { t with hw := { t.hw with freeCtr := s.hw.freeCtr } } l 0 (c.pc + 8) false ∧ VeOnlyV s t l ∧
        (∀ n, n < c.vl → c.on n = true → c.get2 n < 32 → (t.hw.veAt l).elem c.lanes 32 c.vd n = f (c.get c.vs1 n) (c.get2 n) % 2 ^ 32) ∧
        (∀ n, ¬ (c.vd * c.lanes ≤ n ∧ n - c.vd * c.lanes < c.vl ∧ c.on (n - c.vd * c.lanes) = true) → (t.hw.veAt l).elem c.lanes 32 0 n = (s.hw.veAt l).elem c.lanes 32 0 n)) ∧
    (VeTakes s l w 0x14 (uVD + uXS1 + uET) → c.typeOk allTypes = true → c.alignOk [c.vd] = true →
      ∃ t, exec (.vmvsx l w x) s = .next t ∧ t.mem = s.mem ∧ VeRan s t l 0 (c.pc + 8) false ∧ VeOnlyV s t l ∧
        VeElems s t l c.sew c.vd (min c.vl 1) (fun _ => true) (fun _ => c.x1))

/-- Comparisons, predicate logic, scalars, SETVL, branches (R91, R93, R94, R98, R119). -/
def Obligations.VectorPredicatesAndScalars : Prop :=
  (∀ (i : Instr) (l : VeLoc) (w : VeWord) (x : VeCheck) (op : Nat) (f : Nat → Nat → Nat → Bool) (s : State), veCompare i = some (l, w, x, op, f) → let c := s.veIn l w
    VeTakes s l w op (uPD + uVS1 + uPR + uVX w + uET) → VeSound x false → c.typeOk allTypes = true → c.alignOk (if c.vx then [c.vs1] else [c.vs1, c.vs2]) = true →
    ∃ t, exec i s = .next t ∧ t.mem = s.mem ∧ VeRan s t l 0 (c.pc + 8) false ∧ VeOnlyP s t l ∧
      VePred s t l (veF w 8 3) c.vl c.on (fun n => f c.et (c.get c.vs1 n) (c.get2 n))) ∧
  (∀ (i : Instr) (l : VeLoc) (w : VeWord) (x : VeCheck) (op used : Nat) (f : Bool → Bool → Bool) (s : State), vePredicate i = some (l, w, x, op, used, f) → let c := s.veIn l w
    VeTakes s l w op used → VeSound x false →
    ∃ t, exec i s = .next t ∧ t.mem = s.mem ∧ VeRan s t l 0 (c.pc + 8) false ∧ VeOnlyP s t l ∧
      VePred s t l (veF w 8 3) c.vl (fun _ => true) (fun n => f ((s.hw.veAt l).pb (veF w 13 3) n) ((s.hw.veAt l).pb (veF w 18 3) n))) ∧
  (∀ (i : Instr) (l : VeLoc) (w : VeWord) (x : VeCheck) (op used : Nat) (f : VeIn → Nat) (s : State), veScalarOp i = some (l, w, x, op, used, f) → let c := s.veIn l w
    VeTakes s l w op used → VeSound x false →
    ∃ t, exec i s = .next t ∧ t.mem = s.mem ∧ VeRan s t l 0 (c.pc + 8) false ∧ VeScalar s t l (veF w 8 4) (f c) ∧
      t.hw.veAt l = { s.hw.veAt l with x := (t.hw.veAt l).x }) ∧
  (∀ (l : VeLoc) (w : VeWord) (x : VeCheck) (s : State), let c := s.veIn l w
    VeTakes s l w 0x13 (uXD + uVS1 + uET) → VeSound x false → c.typeOk allTypes = true → c.alignOk [c.vs1] = true →
    ∃ t, exec (.vmvxs l w x) s = .next t ∧ t.mem = s.mem ∧ VeRan s t l 0 (c.pc + 8) false ∧ VeScalar s t l (veF w 8 4) (c.get c.vs1 0) ∧
      t.hw.veAt l = { s.hw.veAt l with x := (t.hw.veAt l).x }) ∧
  (∀ (l : VeLoc) (w : VeWord) (x : VeCheck) (s : State), let c := s.veIn l w
    let sc := veImm w 0 2
    let top := veLanes l * 32 / (16 * 2 ^ sc) * 2 ^ veImm w 2 2
    VeTakes s l w 0x01 (uXD + uXS1 + uIM 0 4) → VeSound x false → sc ≠ 3 → (sc = 2 → veIsV l = true) →
    ∃ t, exec (.setvl l w x) s = .next t ∧ Outside s t ∧ VeScalar s t l (veF w 8 4) (min c.x1 top) ∧ t.hw.veAt l = { s.hw.veAt l with x := (t.hw.veAt l).x } ∧
      (∀ m : VeLoc, m ≠ l → t.hw.veAt m = s.hw.veAt m) ∧ t.hw = { s.hw with rf := s.words t, ve := t.hw.ve } ∧
      t.hw.fld (l.page + Reg.ve.veVl) 0 13 = min c.x1 top ∧ t.hw.fld (l.page + Reg.ve.veStatus) 8 2 = sc ∧ t.hw.fld (l.page + Reg.ve.veStatus) 10 2 = veImm w 2 2 ∧
      t.hw.bit (l.page + Reg.ve.veVstat) 4 = (s.hw.bit (l.page + Reg.ve.veVstat) 4 || decide (top < c.x1)) ∧ t.hw.reg (l.page + Reg.ve.vePc) = BitVec.ofNat 32 (c.pc + 8) ∧
      RegsBut s t [l.page + Reg.ve.veVl, l.page + Reg.ve.veStatus, l.page + Reg.ve.veVstat, l.page + Reg.ve.veInstrLo, l.page + Reg.ve.veInstrLo + 4, l.page + Reg.ve.vePc]) ∧
  (∀ (i : Instr) (l : VeLoc) (w : VeWord) (x : VeCheck) (op used : Nat) (f : VeIn → Bool) (s : State), veBranch i = some (l, w, x, op, used, f) → let c := s.veIn l w
    let to_ : Int := c.pc + 8 * signOf 29 (veImm w 0 29)
    VeTakes s l w op used → VeSound x false → (f c = true → 0 ≤ to_ ∧ to_ < veImem l) →
    ∃ t, exec i s = .next t ∧ t.mem = s.mem ∧ VeRan s t l 0 (if f c then to_.toNat else c.pc + 8) false ∧ t.hw.veAt l = s.hw.veAt l)

/-- The reductions (R110, R111, R112). -/
def Obligations.VectorReductionsWriteElementZero : Prop :=
  ∀ (l : VeLoc) (w : VeWord) (x : VeCheck) (s : State) (i : Instr) (op : Nat) (types : List Nat) (none_ : Nat),
    let c := s.veIn l w
    (i = .vredsum l w x ∧ op = 0xB0 ∧ types = allTypes ∧ none_ = 0 ∨
     i = .vredprod l w x ∧ op = 0xB1 ∧ types = allTypes ∧ none_ = (if etInt c.et then 1 else fpOne (etFmt c.et)) ∨
     i = .vredmax l w x ∧ op = 0xB2 ∧ types = allTypes ∧ none_ = (if c.et = 4 then 2 ^ 31 else if c.et = 5 then 0 else (etFmt c.et).signCode true + (etFmt c.et).infMag) ∨
     i = .vredmin l w x ∧ op = 0xB3 ∧ types = allTypes ∧ none_ = (if c.et = 4 then 2 ^ 31 - 1 else if c.et = 5 then 2 ^ 32 - 1 else (etFmt c.et).infMag) ∨
     i = .vredargmax l w x ∧ op = 0xB4 ∧ types = [0, 3, 4, 5] ∧ none_ = 2 ^ 32 - 1 ∨
     i = .vredargmin l w x ∧ op = 0xB5 ∧ types = [0, 3, 4, 5] ∧ none_ = 2 ^ 32 - 1 ∨
     i = .vredand l w x ∧ op = 0xB6 ∧ types = intTypes ∧ none_ = 2 ^ 32 - 1 ∨
     i = .vredor l w x ∧ op = 0xB7 ∧ types = intTypes ∧ none_ = 0) →
    VeTakes s l w op (uVD + uVS1 + uPR + uET) → VeSound x false → c.typeOk types = true → c.alignOk [c.vd, c.vs1] = true →
    let vs := c.active.map fun n => c.get c.vs1 n
    let less := fun a b : Nat => if c.et = 4 then decide (signOf 32 a < signOf 32 b) else if c.et = 5 then decide (a < b) else decide ((etFmt c.et).key a < (etFmt c.et).key b)
    let big := op = 0xB2 ∨ op = 0xB4
    ∃ (t : State) (fl v : Nat), exec i s = .next t ∧ t.mem = s.mem ∧ VeRan s t l fl (c.pc + 8) false ∧ VeOnlyV s t l ∧
      VeElems s t l c.sew c.vd 1 (fun _ => true) (fun _ => v) ∧
      (c.active = [] → v = none_ ∧ fl = 32) ∧
      (c.active ≠ [] → op ≠ 0xB0 → op ≠ 0xB1 → fl = 0) ∧
      (c.active ≠ [] → etInt c.et = true → fl = 0 ∧
        (op = 0xB0 → v % 2 ^ 32 = vs.foldl (fun a b => a + b) 0 % 2 ^ 32) ∧ (op = 0xB1 → v % 2 ^ 32 = vs.foldl (fun a b => a * b) 1 % 2 ^ 32) ∧
        (op = 0xB6 → v % 2 ^ 32 = vs.foldl (fun a b => a &&& b) (2 ^ 32 - 1)) ∧ (op = 0xB7 → v % 2 ^ 32 = vs.foldl (fun a b => a ||| b) 0)) ∧
      (c.active ≠ [] → etInt c.et = false → c.sew ≠ 16 → op = 0xB0 →
        fl = (pairReduce (etFmt c.et).add vs.length vs 0).2 ∧ ((etFmt c.et).isNan (pairReduce (etFmt c.et).add vs.length vs 0).1 = false → v = (pairReduce (etFmt c.et).add vs.length vs 0).1)) ∧
      (c.active ≠ [] → (op = 0xB2 ∨ op = 0xB3) → (etInt c.et = true ∨ ∀ a ∈ vs, (etFmt c.et).isNan a = false) → v ∈ vs ∧ ∀ a ∈ vs, (if big then less v a else less a v) = false) ∧
      (c.active ≠ [] → (op = 0xB4 ∨ op = 0xB5) → (etInt c.et = true ∨ ∀ a ∈ vs, (etFmt c.et).isNan a = false) → v ∈ c.active ∧
        ∀ n ∈ c.active, (if big then less (c.get c.vs1 v) (c.get c.vs1 n) else less (c.get c.vs1 n) (c.get c.vs1 v)) = false ∧
          (n < v → (if big then less (c.get c.vs1 n) (c.get c.vs1 v) else less (c.get c.vs1 v) (c.get c.vs1 n)) = true))

/-- VCVT, VSPLIT, VRAND, VLDACC, VSTACC, VLDP (R84, R87, R99, R100, R113, R119, R143). -/
def Obligations.VectorConvertsSplitsDrawsAndLoadsRows : Prop :=
  ∀ (l : VeLoc) (w : VeWord) (x : VeCheck) (s : State), let c := s.veIn l w
    (let src := veImm w 1 3
     let dst := c.et
     VeTakes s l w 0xC0 (uVD + uVS1 + uPR + uET + uIM 1 3 + (if etInt dst then uIM 4 1 else 0)) → VeSound x false →
     cvtPairs.contains (src, dst) = true → etHere l src = true → etHere l dst = true → max (etBits src) (etBits dst) = c.sew →
     c.vd % c.narrowSpan (etBits dst) = 0 → c.vs1 % c.narrowSpan (etBits src) = 0 →
     let r := fun n => cvtElem src dst (c.st.elem c.lanes (etBits src) c.vs1 n) (bitOf w.toNat 39)
     ∃ t, exec (.vcvt l w x) s = .next t ∧ t.mem = s.mem ∧ VeRan s t l (c.active.foldl (fun a n => a ||| (r n).2) 0) (c.pc + 8) false ∧ VeOnlyV s t l ∧
       VeElems s t l (etBits dst) c.vd c.vl c.on (fun n => (r n).1)) ∧
    (let ns := c.narrowSpan 16
     let e := c.lanes * 2
     VeTakes s l w 0xC1 (uVD + uVS1 + uVS3 + uPR + uET) → VeSound x false → c.typeOk [0] = true → c.vs1 % c.g = 0 → c.vd % ns = 0 → c.vs3 % ns = 0 →
     c.vd ≠ c.vs3 → c.vl ≤ ns * e →
     ∃ (t : State) (fl : Nat), exec (.vsplit l w x) s = .next t ∧ t.mem = s.mem ∧ VeRan s t l fl (c.pc + 8) false ∧ VeOnlyV s t l ∧
       ∀ n, (t.hw.veAt l).elem c.lanes 16 0 n =
         if c.vd * e ≤ n ∧ n - c.vd * e < c.vl ∧ c.on (n - c.vd * e) = true then (splitElem (c.get c.vs1 (n - c.vd * e))).1 % 2 ^ 16
         else if c.vs3 * e ≤ n ∧ n - c.vs3 * e < c.vl ∧ c.on (n - c.vs3 * e) = true then (splitElem (c.get c.vs1 (n - c.vs3 * e))).2.1 % 2 ^ 16
         else (s.hw.veAt l).elem c.lanes 16 0 n) ∧
    (∀ n : Paddock, VeTakes s l w 0xC2 (uVD + uXS1 + uXS2 + uPR + uET) → VeSound x false → c.typeOk [0, 4, 5] = true → c.alignOk [c.vd] = true → s.hw.vePaddock l = some n →
      ∃ t, exec (.vrand l w x) s = .next t ∧ t.mem = s.mem ∧ VeRan s t l 0 (c.pc + 8) false ∧ VeOnlyV s t l ∧
        VeElems s t l c.sew c.vd c.vl c.on (fun i => (rngGen (BitVec.ofNat 64 (s.hw.pad n).seed) (BitVec.ofNat 64 (s.hw.reg64 (pgCommit n + Reg.stepCommit.stepCommittedLo) + 1))
          (BitVec.ofNat 64 (c.x1 % 2 ^ 32)) (BitVec.ofNat 64 (c.x2 + i))).toNat)) ∧
    (∀ me : MeLoc, VeTakes s l w 0xE0 (uVD + accUsed l + uET) → VeSound x false → x ≠ .accParity → veIsU l = false → c.typeOk [0] = true → c.alignOk [c.vd] = true →
      c.accOut = false → c.accMe = some me →
      ∃ t, exec (.vldacc l w x) s = .next t ∧ t.mem = s.mem ∧ VeRan s t l 0 (c.pc + 8) false ∧ VeOnlyV s t l ∧
        VeElems s t l c.sew c.vd c.vl c.on (fun i => Tab.get (s.hw.meAt me).acc ((c.accRow + i / 64) * 64 + i % 64) 0)) ∧
    (∀ mc : McLoc, l = .epilogue mc → VeTakes s l w 0xE1 (uVS3 + accUsed l + uET) → VeSound x false → c.typeOk [0] = true → c.alignOk [c.vs3] = true → c.accOut = false →
      let me : MeLoc := ⟨mc, ⟨veImm w 0 2, Nat.mod_lt _ (by decide)⟩⟩
      ∃ t, exec (.vstacc l w x) s = .next t ∧ t.mem = s.mem ∧ VeRan s { t with hw := { t.hw with me := s.hw.me } } l 0 (c.pc + 8) false ∧ t.hw.veAt l = s.hw.veAt l ∧ MeOnly s t me ∧
        t.hw.meAt me = { s.hw.meAt me with acc := (t.hw.meAt me).acc } ∧
        (∀ i, i < c.vl → c.on i = true → Tab.get (t.hw.meAt me).acc (c.accRow * 64 + i) 0 = c.get c.vs3 i) ∧
        (∀ k, (∀ i, i < c.vl → c.on i = true → k ≠ c.accRow * 64 + i) → Tab.get (t.hw.meAt me).acc k 0 = Tab.get (s.hw.meAt me).acc k 0)) ∧
    (VeTakes s l w 0x24 (uPD + uIM 0 7 + uIM 11 18) → VeSound x true → veImm w 5 2 = 0 → c.pOut = false →
      ∃ t, exec (.vldp l w x) s = .next t ∧ t.mem = s.mem ∧ VeRan s t l 0 (c.pc + 8) (decide (x = .crcCorrected)) ∧ VeOnlyP s t l ∧
        VePred s t l (veF w 8 3) c.vl (fun _ => true) (fun i => bitOf (memNat s.mem (c.da (c.addr 0)) ((c.vl + 7) / 8)) i))

/-- VST, VSTD, VSTN, VSTNT, VSTP (R101, R102, R105, R119, R132 to R134, R251, R283). -/
def Obligations.VectorStoresWriteTheirBytes : Prop :=
  ∀ (l : VeLoc) (w : VeWord) (x : VeCheck) (s : State), let c := s.veIn l w
    (∀ i : Instr, (i = .vst l w x ∧ VeTakes s l w 0x21 (uVS3 + ldUsed w + uET) ∧ veImm w 5 2 ≠ 3 ∨
        (∃ f e, l = .update f e) ∧ i = .vstd l w x ∧ VeTakes s l w 0xF3 (uVS3 + ldUsed w + uET) ∧ veImm w 5 2 = 0) →
      VeSound x false → c.typeOk allTypes = true → c.alignOk (c.memRegs c.vs3) = true → c.addrFault = none →
      let n := c.sew / 8
      ∃ t, exec i s = .next t ∧ VeRan s { t with hw := { t.hw with prov := s.hw.prov, uc := s.hw.uc } } l 0 (c.pc + 8) false ∧ t.hw.veAt l = s.hw.veAt l ∧
        (i = .vst l w x → t.hw.uc = s.hw.uc) ∧
        (∀ f e, l = .update f e → i = .vstd l w x → (t.hw.ueAt f e).digest = digestFold (s.hw.ueAt f e).digest (c.active.flatMap fun k => leBytes n (c.get c.vs3 k))) ∧
        (∀ q, (∀ k ∈ c.active, ∀ j < n, physAddr (c.da (c.addr k) + j) ≠ some q) → memRead t.mem q = memRead s.mem q) ∧
        (∀ k ∈ c.active, ∀ j < n, ∀ q, physAddr (c.da (c.addr k) + j) = some q →
          (∀ k' ∈ c.active, ∀ j' < n, (k < k' ∨ k = k' ∧ j < j') → physAddr (c.da (c.addr k') + j') ≠ some q) →
          memRead t.mem q = BitVec.ofNat 8 (c.get c.vs3 k >>> (8 * j)))) ∧
    (∀ (i : Instr) (t0 : Nat × Int), (i = .vstn l w x ∧ VeTakes s l w 0x23 (uVS3 + uPR + uIM 0 15 + uET) ∧ t0 = (1, 0) ∨
        (∃ f e, l = .update f e) ∧ i = .vstnt l w x ∧ VeTakes s l w 0xF5 (uVS3 + uPR + uIM 0 19 + uET) ∧ (∃ m e, fp32.decode (c.st.xr (veImm w 15 4) % 2 ^ 32) = .fin false (m + 1) e ∧ t0 = (m + 1, e))) →
      VeSound x false → c.typeOk [0] = true → c.alignOk [c.vs3] = true → c.nResv = false → c.nOut = false →
      ∃ t, exec i s = .next t ∧ t.hw.veAt l = s.hw.veAt l ∧
        (c.vl = 0 → t.mem = s.mem ∧ VeRan s t l 0 (c.pc + 8) false) ∧
        (c.vl ≠ 0 → VeRan s { t with hw := { t.hw with prov := s.hw.prov } } l (c.nStores t0).2 (c.pc + 8) false ∧
          t.mem = (c.nStores t0).1.foldl (fun m z => memPut m z.1 z.2.1) s.mem)) ∧
    ((∃ f e, l = .update f e) → VeTakes s l w 0xF5 (uVS3 + uPR + uIM 0 19 + uET) → VeSound x false → c.typeOk [0] = true → c.alignOk [c.vs3] = true → c.nResv = false → c.nOut = false →
      ∃ t, exec (.vstnt l w x) s = .next t ∧ t.hw.veAt l = s.hw.veAt l ∧
        let nb := (c.vl + c.nBlock - 1) / c.nBlock
        (∀ q, (∀ j < nb * c.nBlock * c.nFmt.bits / 8, physAddr (c.da c.nData + j) ≠ some q) → (∀ j < nb, physAddr (c.da c.nScale + j) ≠ some q) → memRead t.mem q = memRead s.mem q)) ∧
    (VeTakes s l w 0x25 (0x7 <<< 23 + uIM 0 7 + uIM 11 18) → VeSound x false → veImm w 5 2 = 0 → c.pOut = false →
      ∃ t, exec (.vstp l w x) s = .next t ∧ VeRan s { t with hw := { t.hw with prov := s.hw.prov } } l 0 (c.pc + 8) false ∧ t.hw.veAt l = s.hw.veAt l ∧
        (∀ q, (∀ j < (c.vl + 7) / 8, physAddr (c.da (c.addr 0) + j) ≠ some q) → memRead t.mem q = memRead s.mem q) ∧
        (∀ i < c.vl, ∀ q, physAddr (c.da (c.addr 0) + i / 8) = some q → (∀ j < (c.vl + 7) / 8, j ≠ i / 8 → physAddr (c.da (c.addr 0) + j) ≠ some q) →
          (memRead t.mem q).toNat.testBit (i % 8) = (s.hw.veAt l).pb (veF w 23 3) i))

/-- VWAIT, VSIG, VSTATC, VEND, UMVWAIT, UMVKICK (R96, R122, R123, R228, R251, R252, R254). -/
def Obligations.VectorControlInstructions : Prop :=
  ∀ (l : VeLoc) (w : VeWord) (x : VeCheck) (s : State), let c := s.veIn l w
    let a := s.hw.veAt l
    let pg := (veSync l).1
    (VeTakes s l w 0x10 (uIM 0 20) → VeSound x false → bitOf (Tab.get s.hw.syncTaint pg 0) (veImm w 0 4) = false →
      let ctr := veImm w 0 4
      let n := veImm w 4 16
      let v := s.hw.syncGet pg syncOff ctr
      ∃ t, exec (.vwait l w x) s = .next t ∧ Outside s t ∧ t.hw = { s.hw with rf := s.words t, ve := t.hw.ve } ∧
        t.hw.veAt l = { a with wait := if n ≤ v then a.wait else some (ctr, n) } ∧ t.hw.syncGet pg syncOff ctr = (if n ≤ v then v - n else v) ∧
        t.hw.reg (l.page + Reg.ve.vePc) = BitVec.ofNat 32 (c.pc + 8) ∧
        RegsBut s t ([l.page + Reg.ve.veInstrLo, l.page + Reg.ve.veInstrLo + 4, l.page + Reg.ve.vePc, syncReg pg syncOff ctr] ++ veShown l)) ∧
    (∀ ctr n : Nat, a.wait = some (ctr, n) → ctr < 16 → bitOf (Tab.get s.hw.syncTaint pg 0) ctr = false →
      let v := s.hw.syncGet pg syncOff ctr
      (v < n → exec (.vwaitDone l) s = .next s) ∧
      (n ≤ v → ∃ t, exec (.vwaitDone l) s = .next t ∧ Outside s t ∧ t.hw.veAt l = { a with wait := none } ∧ t.hw.syncGet pg syncOff ctr = v - n ∧
        RegsBut s t (syncReg pg syncOff ctr :: veShown l))) ∧
    (VeTakes s l w 0x11 ((if veImm w 20 1 = 1 then uXS1 else 0) + uIM (if veImm w 20 1 = 1 then 4 else 0) (if veImm w 20 1 = 1 then 17 else 21)) → VeSound x false →
      ∃ t, exec (.vsig l w x) s = .next t ∧ t.mem = s.mem ∧ VeRan s t l 0 (c.pc + 8) false ∧ t.hw.veAt l = { a with sigs := a.sigs ++ [(w, c.x1)] }) ∧
    (∀ (v : VeWord) (x1 : Nat) (r : List (VeWord × Nat)), a.sigs = (v, x1) :: r → veImm v 20 1 = 0 →
      let k := s.hw.syncGet pg syncOff (veImm v 0 4) + veImm v 4 16
      ∃ t, exec (.vsigEffect l) s = .next t ∧ Outside s t ∧ t.hw.veAt l = { a with sigs := r } ∧ t.hw.syncGet pg syncOff (veImm v 0 4) = min k 65535 ∧
        (k ≤ 65535 → RegsBut s t [syncReg pg syncOff (veImm v 0 4)])) ∧
    (∀ (v : VeWord) (x1 : Nat) (r : List (VeWord × Nat)) (pd : Paddock) (m : ClLoc), a.sigs = (v, x1) :: r → veImm v 20 1 = 1 → s.hw.vePaddock l = some pd →
      s.hw.hostOf pd (bitsOf x1 0 9) = some m → s.hw.fencedPage m.page = false →
      let tok := bitsOf x1 16 8
      ∃ t, exec (.vsigEffect l) s = .next t ∧ Outside s t ∧ t.hw.veAt l = { a with sigs := r } ∧
        (∀ j, Tab.get (t.hw.sqAt m).tok j 0 = if j = tok then min (Tab.get (s.hw.sqAt m).tok tok 0 + veImm v 4 16) 65535 else Tab.get (s.hw.sqAt m).tok j 0)) ∧
    (VeTakes s l w 0x12 (uIM 0 8) → VeSound x false →
      let k := l.page + Reg.ve.veVstat
      ∃ t, exec (.vstatc l w x) s = .next t ∧ Outside s t ∧ t.hw = { s.hw with rf := s.words t, ve := t.hw.ve } ∧ t.hw.veAt l = a ∧
        t.hw.reg k = s.hw.reg k &&& ~~~(BitVec.ofNat 32 (veImm w 0 8)) ∧ t.hw.reg (l.page + Reg.ve.vePc) = BitVec.ofNat 32 (c.pc + 8) ∧
        RegsBut s t [k, l.page + Reg.ve.veInstrLo, l.page + Reg.ve.veInstrLo + 4, l.page + Reg.ve.vePc]) ∧
    (VeTakes s l w 0x1F 0 → VeSound x false → veIsU l = false → Tab.get s.hw.prov l.page [] = [] →
      ∃ t, exec (.vend l w x) s = .next t ∧ Outside s t ∧ t.hw = { s.hw with rf := s.words t, ve := t.hw.ve, prov := t.hw.prov } ∧ VeQueued s t l ∧
        RegsBut s t ([l.page + Reg.ve.veInstrLo, l.page + Reg.ve.veInstrLo + 4, l.page + Reg.ve.vePc] ++ veShown l)) ∧
    (∀ (f : Field) (e : Fin 4) (i : Nat), l = .update f e → VeTakes s l w 0x1F 0 → VeSound x false → (s.hw.ueAt f e).running = some i → (s.hw.ueAt f e).todo = [] →
      (s.hw.ueAt f e).wasDeferred = false →
      ∃ t, exec (.vend l w x) s = .next t ∧ t.fuses = s.fuses ∧ t.pending = s.pending ∧ (t.hw.ueAt f e).running = none ∧ (t.hw.ucAt f).done = (s.hw.ucAt f).done ++ [i] ∧
        (t.hw.ucAt f).entries = (s.hw.ucAt f).entries ∧ t.hw.bit (l.page + Reg.ve.veStatus) 0 = false) ∧
    (∀ (f : Field) (e : Fin 4), l = .update f e → VeTakes s l w 0xF1 (uXD + uIM 0 5) → VeSound x false → veImm w 0 4 < 14 →
      let m := ueChannel f (veImm w 0 5)
      ∃ t, exec (.umvwait l w x) s = .next t ∧ Outside s t ∧
        (∀ (r : MvRecord) (q : List MvRecord), (s.hw.mvAt m).records = r :: q → (t.hw.mvAt m).records = q ∧ VeScalar s t l (veF w 8 4) r.status ∧ (t.hw.veAt l).umWait = a.umWait) ∧
        ((s.hw.mvAt m).records = [] → t.hw.veAt l = { a with umWait := some (veImm w 0 5, veF w 8 4) } ∧ t.hw.mv = s.hw.mv)) ∧
    (∀ (f : Field) (e : Fin 4), l = .update f e → VeTakes s l w 0xF0 (uXD + uXS1 + uIM 0 5) → VeSound x true → veImm w 0 4 < 14 → c.x1 + 96 ≤ 64 <<< 20 → c.x1 % 32 = 0 →
      (s.hw.ueAt f e).running = none →
      let m := ueChannel f (veImm w 0 5)
      let d := memNat s.mem (ueSram f c.x1) 96
      let b := s.hw.mvAt m
      let code := if s.hw.fencedPage m.page then CmdRes.fenced else if b.shadow.isSome ∨ 4 ≤ b.records.length then .busy else if descBad m d then .badArg else .ok
      ∃ t, exec (.umvkick l w x) s = .next t ∧ Outside s t ∧ VeScalar s t l (veF w 8 4) code.code ∧
        t.hw.mvAt m = (if code = .ok then { b with shadow := some (d, true), kicks := b.kicks + 1 } else b) ∧ t.hw.reg (m.page + 0x020) = resultWord (.ue f e) 1 code)

/-- R121: exceptions of the vector engines (with R109, R120). -/
def Obligations.VectorExceptionLeavesNoEffect : Prop :=
  ∀ (i : Instr) (e : VeElemwise) (s : State), (veFloat i = some e ∨ veInteger i = some e) →
    (s.hw.veBlocked e.l = true → exec i s = .next s) ∧
    (s.hw.veBlocked e.l = false → e.cause s ≠ 0 →
      let pg := e.l.page
      let pc := s.hw.regN (pg + Reg.ve.vePc)
      ∃ t, exec i s = .next t ∧ Outside s t ∧ (∀ m : VeLoc, m ≠ e.l → t.hw.veAt m = s.hw.veAt m) ∧
        (t.hw.veAt e.l).v = (s.hw.veAt e.l).v ∧ (t.hw.veAt e.l).p = (s.hw.veAt e.l).p ∧ (t.hw.veAt e.l).x = (s.hw.veAt e.l).x ∧ (t.hw.veAt e.l).sigs = (s.hw.veAt e.l).sigs ∧
        t.hw.bit (pg + 0x010) 8 = true ∧ t.hw.marked pg = true ∧
        (s.hw.bit (pg + 0x010) 1 = false → t.hw.reg (pg + 0x024) = BitVec.ofNat 32 pc ∧ t.hw.reg (pg + 0x028) = 0 ∧ t.hw.fld (pg + 0x02C) 0 16 = e.cause s) ∧
        (veIsU e.l = false → VeQueued s t e.l) ∧
        (∀ f q, e.l = .update f q → (t.hw.ueAt f q).stopped = true ∧ t.hw.veAt e.l = s.hw.veAt e.l) ∧
        t.hw = { s.hw with rf := s.wordsMsix t, ve := t.hw.ve, evlog := t.hw.evlog, out := t.hw.out, errMark := t.hw.errMark, prov := t.hw.prov, uc := t.hw.uc } ∧
        RegsBut s t ([pg + Reg.ve.veParityCount, pg + Reg.ve.vePc] ++ veShown e.l ++ errorRegs pg ++ errorRegs (veParent e.l)))

/-- NW_SEL, WRITE_RANGE, WRITE_SLOT, NW_SNAPSHOT, CLEAR_COUNTS (R145, R147, R149). -/
def Obligations.WatchRangesSlotsAndSnapshots : Prop :=
  ∀ (p : Path) (r : Ring) (s : State),
    let pg := pgWatch r
    let i := s.hw.fld (pg + Reg.watch.nwSel) 0 13
    let same := fun (t : State) => ∀ q : Ring, q ≠ r → t.hw.nwAt q = s.hw.nwAt q
    (∀ v : Word, WriteOpen s p pg Reg.watch.nwSel → ∃ t, exec (.nwSelWrite p r v) s = .next t ∧ Outside s t ∧ same t ∧
      t.hw.reg (pg + Reg.watch.nwSel) = v &&& 0x80001FFF#32 ∧ (t.hw.nwAt r).ranges = (s.hw.nwAt r).ranges ∧ (t.hw.nwAt r).slots = (s.hw.nwAt r).slots ∧
      (wbit v 31 = true → ∀ x, Tab.find (s.hw.nwAt r).ranges (wbits v 0 13) = some x → t.hw.reg (pg + Reg.watch.nwBaseLo) = BitVec.ofNat 32 x.base ∧
        t.hw.reg (pg + Reg.watch.nwBaseLo + 4) = BitVec.ofNat 32 (x.base >>> 32) ∧ t.hw.reg (pg + Reg.watch.nwLen) = BitVec.ofNat 32 x.len ∧ t.hw.reg (pg + Reg.watch.nwRangeCfg) = x.cfg) ∧
      (wbit v 31 = false → wbits v 0 13 < 4096 → t.hw.reg (pg + Reg.watch.nwSlotCfg) = Tab.get (s.hw.nwAt r).slots (wbits v 0 13) 0) ∧
      RegsBut s t [pg + Reg.watch.nwSel, pg + Reg.watch.nwBaseLo, pg + Reg.watch.nwBaseLo + 4, pg + Reg.watch.nwLen, pg + Reg.watch.nwRangeCfg, pg + Reg.watch.nwSlotCfg]) ∧
    (CmdOpen s p pg [0, 2] →
      let x : NwRange := ⟨s.hw.reg64 (pg + Reg.watch.nwBaseLo), s.hw.regN (pg + Reg.watch.nwLen), s.hw.reg (pg + Reg.watch.nwRangeCfg)⟩
      let good := s.hw.bit (pg + Reg.watch.nwSel) 31 = true ∧ x.base % 64 = 0 ∧ daRegion x.base ≤ 2 ∧ daRegion (x.base + 64 * x.len - 1) ≤ 2 ∧ wbits x.cfg 12 4 ≤ 10 ∧
        (x.valid = true → ∀ (q : Ring) (k : Nat) (y : NwRange), (k, y) ∈ (s.hw.nwAt q).ranges → y.valid = true → ¬ (q = r ∧ k = i) → rangesOverlap x y = false)
      (good → ∃ t, exec (.writeRange p r) s = .next t ∧ Outside s t ∧ same t ∧ t.hw.reg (pg + 0x020) = resultWord p 1 .ok ∧ RegsBut s t [pg + 0x020] ∧
        t.hw.nwAt r = { s.hw.nwAt r with ranges := Tab.set (s.hw.nwAt r).ranges i x }) ∧
      (¬ good → ∃ t, exec (.writeRange p r) s = .next t ∧ Outside s t ∧ t.hw = { s.hw with rf := s.words t } ∧ t.hw.reg (pg + 0x020) = resultWord p 1 .badArg ∧ RegsBut s t [pg + 0x020]) ∧
      (s.hw.bit (pg + Reg.watch.nwSel) 31 = false → i < 4096 → ∃ t, exec (.writeSlot p r) s = .next t ∧ Outside s t ∧ same t ∧ t.hw.reg (pg + 0x020) = resultWord p 2 .ok ∧
        RegsBut s t [pg + 0x020] ∧ t.hw.nwAt r = { s.hw.nwAt r with slots := Tab.set (s.hw.nwAt r).slots i (s.hw.reg (pg + Reg.watch.nwSlotCfg)) }) ∧
      (∃ t, exec (.clearCounts p r) s = .next t ∧ Outside s t ∧ same t ∧ t.hw.nwAt r = { s.hw.nwAt r with counts := [] } ∧ t.hw.reg (pg + 0x020) = resultWord p 4 .ok ∧
        t.hw.reg (pg + Reg.watch.nwFirstNf) = 0 ∧ t.hw.reg (pg + Reg.watch.nwPrevNf) = 0 ∧ t.hw.reg (pg + Reg.watch.nwSnapStatus) = 0 ∧ t.hw.reg64 (pg + Reg.watch.nwSnapNanLo) = 0 ∧ t.hw.reg64 (pg + Reg.watch.nwSnapInfLo) = 0 ∧
        PageOnly s t [pg] [])) ∧
    (CmdOpen s p pg [1] → ∃ t, exec (.nwSnapshot p r) s = .next t ∧ Outside s t ∧ t.hw.nw = s.hw.nw ∧ t.hw.reg (pg + 0x020) = resultWord p 3 .ok ∧
      t.hw.reg64 (pg + Reg.watch.nwSnapNanLo) = (s.hw.nwAt r).sums.1 % 2 ^ 64 ∧ t.hw.reg64 (pg + Reg.watch.nwSnapInfLo) = (s.hw.nwAt r).sums.2.1 % 2 ^ 64 ∧
      t.hw.reg64 (pg + Reg.watch.nwSnapSatLo) = (s.hw.nwAt r).sums.2.2 % 2 ^ 64 ∧
      t.hw.regN (pg + Reg.watch.nwSnapStatus) = 2 + b2n (decide ((s.hw.nwAt r).sums.1 = 0 ∧ (s.hw.nwAt r).sums.2.1 = 0)) ∧ t.hw.bit (pg + 0x010) 10 = true ∧
      PageOnly s t [pg] (eventRegs pg))

/-- START, STOP, SNAPSHOT, CLEAR_SNAP, MON_WINDOW_END, MON_QUEUE_SAMPLE (R403, R404, R406 to R409). -/
def Obligations.MonitorWindowsEndInSnapshots : Prop :=
  ∀ (p : Path) (f : Field) (m : Fin 16) (s : State),
    let pg := pgMonitor f m
    let c := pg + Reg.monitor.monCtrl
    (CmdOpen s p pg [0] →
      let good := monSrcOk f (s.hw.reg (pg + Reg.monitor.monSrc)) = true ∧ (s.hw.fld c 1 2 = 0 → s.hw.fld (pg + Reg.monitor.monWindow) 0 16 ≠ 0) ∧
        (s.hw.bit c 3 = false → s.hw.regN (pg + Reg.monitor.monBinWidth) ≠ 0) ∧
        (s.hw.fld (pg + Reg.monitor.monSrc) 0 4 = 2 → s.hw.fld (pg + Reg.monitor.monSamplePeriod) 0 16 ≠ 0)
      (good → ∃ t, exec (.monStart p f m) s = .next t ∧ MonOnly s t pg ∧ MonEmpty t pg ∧ t.hw.blkState pg = 1 ∧ t.hw.reg (pg + 0x020) = resultWord p 1 .ok) ∧
      (¬ good → ∃ t, exec (.monStart p f m) s = .next t ∧ Outside s t ∧ t.hw = { s.hw with rf := s.words t } ∧ RegsBut s t [pg + 0x020] ∧ t.hw.reg (pg + 0x020) = resultWord p 1 .badArg) ∧
      (∃ t, exec (.clearSnap p f m) s = .next t ∧ MonOnly s t pg ∧ t.hw.mon = s.hw.mon ∧ (∀ o ∈ monSnapRegs, t.hw.regN (pg + o) = resetOf (pg + o) % 2 ^ 32) ∧
        RegsBut s t ((pg + 0x020) :: monSnapRegs.map (pg + ·)))) ∧
    (CmdOpen s p pg [1, 2] → ∃ t, exec (.monStop p f m) s = .next t ∧ MonOnly s t pg ∧ t.hw.blkState pg = 0 ∧ t.hw.reg (pg + 0x020) = resultWord p 2 .ok ∧
      (s.hw.blkState pg = 2 → MonEnded s t pg true ∧ MonEmpty t pg) ∧ (s.hw.blkState pg = 1 → RegsBut s t [pg + 0x00C, pg + 0x020] ∧ t.hw.mon = s.hw.mon)) ∧
    (CmdOpen s p pg [2] → s.hw.fld c 1 2 = 2 → ∃ t, exec (.monSnapshot p f m) s = .next t ∧ MonOnly s t pg ∧ MonEnded s t pg false ∧ MonEmpty t pg ∧ t.hw.blkState pg = s.hw.blkState pg) ∧
    (CmdOpen s p pg [2] → s.hw.fld c 1 2 ≠ 2 → ∃ t, exec (.monSnapshot p f m) s = .next t ∧ t.hw.mon = s.hw.mon ∧ t.hw.reg (pg + 0x020) = resultWord p 3 .illegal ∧
      RegsBut s t ((pg + 0x020) :: eventRegs pg)) ∧
    (s.hw.blkState pg = 2 → (s.hw.monAt pg).due = true →
      ∃ t, exec (.monWindowEnd f m) s = .next t ∧ MonOnly s t pg ∧ MonEnded s t pg false ∧ (t.hw.monAt pg).due = false ∧ ((s.hw.monAt pg).held = none → MonEmpty t pg) ∧
        ((s.hw.monAt pg).held ≠ none → t.hw.regN (pg + Reg.monitor.monLiveCount) = 1)) ∧
    (s.hw.blkState pg ≠ 2 ∨ (s.hw.monAt pg).due = false → exec (.monWindowEnd f m) s = .next s) ∧
    (let src := s.hw.reg (pg + Reg.monitor.monSrc)
     s.hw.blkState pg = 2 → wbits src 0 4 = 2 → monSrcOk f src = true → wbits src 8 16 % 16 = 2 → s.hw.fencedPage (pgPlace f) = false →
      ∃ t, exec (.monQueueSample f m) s = .next t ∧ MonOnly s t pg ∧
        t.hw.regN (pg + Reg.monitor.monLiveCount) = satAdd 32 (s.hw.regN (pg + Reg.monitor.monLiveCount)) 1 ∧ t.hw.blkState pg = 2)

/-- The mesh flits on their way (R156, R160 to R162, R164, R183). -/
def Obligations.FlitsAreAcceptedInOrderAndForwarded : Prop :=
  ∀ (i : Instr) (r : RtrLoc) (q : Fin 7) (k : Flit) (kind : Nat) (s : State), (endToEnd i = some (r, q, k, kind) ∨ streamFlit i = some (r, q, k, kind)) →
    let v := (kindClass k.kind).1
    let l := s.hw.link r q.val v
    ((k.kind ≠ kind ∨ s.hw.blkState r.page = 3) → exec i s = .next s) ∧
    (k.kind = kind → s.hw.blkState r.page ≠ 3 → q.val ≠ r.localPort → k.crcOk = false →
      ∃ t, exec i s = .next t ∧ Outside s t ∧ t.hw = { s.hw with rtr := t.hw.rtr, out := t.hw.out } ∧ (t.hw.link r q.val v).crcErr = satAdd 32 l.crcErr 1 ∧ (t.hw.link r q.val v).rxSeq = l.rxSeq) ∧
    (k.kind = kind → s.hw.blkState r.page ≠ 3 → q.val ≠ r.localPort → k.crcOk = true → k.f 3 6 ≠ (l.rxSeq + 1) % 64 → exec i s = .next s) ∧
    (∀ p : Nat, HopOk s r q k kind → endToEnd i = some (r, q, k, kind) → s.hw.route r k (decide (k.f 0 3 = 1) || decide (k.f 0 3 = 4)) = some p → p ≠ r.localPort →
      PortReady s.hw r p v k → (neighbour r p).isSome = true →
      ∃ t, exec i s = .next t ∧ Outside s t ∧ t.hw = { s.hw with rtr := t.hw.rtr, out := t.hw.out } ∧ SentOn s t r p v k)

/-- End-to-end flits at their destination (R37, R159, R165, R167, R169, R171). -/
def Obligations.FlitsTakeEffectAtTheirDestination : Prop :=
  ∀ (r : RtrLoc) (q : Fin 7) (k : Flit) (s : State),
    (∀ a : Nat, Delivered s r q k 1 → flitAddr k.dst (16 * k.off) = some a →
      ∃ t, exec (.flitWrite r q k) s = .next t ∧ t.mem = memPut s.mem a k.valid ∧ t.fuses = s.fuses ∧ t.pending = s.pending) ∧
    (∀ a : Nat, Delivered s r q k 2 → flitAddr k.dst (leAt k.data 0 8) = some a → (physAddr a).isSome = true →
      (∀ x, physAddr a = some x → daRegion x = 1 → s.hw.blkState (pageBase (siteOf x / 2) 6 (1 + siteOf x % 2) 0) ≠ 5) →
      let bytes := memBytes s.mem a (min (leAt k.data 8 4) 4096)
      ∃ t, exec (.flitReadReq r q k .ok) s = .next t ∧ Outside s t ∧
        ∀ i, 256 * i < bytes.length →
          let z := mkFlit 3 (decide (i + 1 = (bytes.length + 255) / 256)) k.src k.dst k.tag (leAt k.data 12 4 + 16 * i) ((bytes.drop (256 * i)).take 256)
          Emits s t (.flit r r.localPort (kindClass z.kind).1 (z.put 0 3 (kindClass z.kind).2))) ∧
    (∀ x : MemCheck, Delivered s r q k 2 → flitAddr k.dst (leAt k.data 0 8) = none →
      let z := respFlit k.dst k.src k.tag 4 (readFlits k) (readMark (leAt k.data 12 4))
      ∃ t, exec (.flitReadReq r q k x) s = .next t ∧ Outside s t ∧ Emits s t (.flit r r.localPort (kindClass z.kind).1 (z.put 0 3 (kindClass z.kind).2))) ∧
    (Delivered s r q k 3 → s.hw.awaiting k.dst k.tag k.off true = none → s.hw.ctxOf k.dst k.tag = none →
      ∃ t, exec (.flitReadData r q k) s = .next t ∧ Outside s t ∧ t.hw = { s.hw with rtr := t.hw.rtr, out := t.hw.out } ∧ Emits s t (.deliver (k.dst % 64) (k.dst >>> 6) k)) ∧
    (Delivered s r q k 4 → s.hw.awaiting k.dst (leAt k.data 5 1 % 64) k.off (bitOf k.off 31) = none → s.hw.ctxOf k.dst (leAt k.data 5 1 % 64) = none →
      ∃ t, exec (.flitResp r q k) s = .next t ∧ Outside s t ∧ t.hw = { s.hw with rtr := t.hw.rtr, out := t.hw.out } ∧ Emits s t (.deliver (k.dst % 64) (k.dst >>> 6) k)) ∧
    (∀ l : ClLoc, r = .cluster l → Delivered s r q k 0xB →
      let tok := leAt k.data 0 1
      ∃ t, exec (.flitToken r q k) s = .next t ∧ Outside s t ∧
        (∀ j, Tab.get (t.hw.sqAt l).tok j 0 = if j = tok then min (Tab.get (s.hw.sqAt l).tok tok 0 + leAt k.data 2 2) 65535 else Tab.get (s.hw.sqAt l).tok j 0) ∧
        RegsBut s t [l.page + Reg.score.tokenEvents, l.page + Reg.score.sqTaint0 + 4 * (tok / 32)]) ∧
    (Delivered s r q k 0xC → (leAt k.data 1 1 ≤ 8 ∨ leAt k.data 1 1 = 16) →
      let m := r.page + Reg.router.rtrFenceMask
      ∃ t, exec (.flitFence r q k) s = .next t ∧ Outside s t ∧ t.hw.bit m (leAt k.data 1 1) = bitOf (leAt k.data 0 1) 0 ∧
        (∀ j, j < 32 → j ≠ leAt k.data 1 1 → t.hw.bit m j = s.hw.bit m j) ∧ RegsBut s t [m]) ∧
    (∀ (i : Fin 288) (p : Option (Fin 7)) (j : Fin 16) (d0 d1 d2 : Word), Delivered s r q k 0xD → (∀ n : Paddock, s.hw.planRunning n = false) →
      (∃ t, exec (.flitMgmt r q k (.override i p)) s = .next t ∧ Outside s t ∧ RegsBut s t [] ∧ Tab.find (t.hw.rtrAt r).override i.val = p.map (·.val) ∧
        (∀ z, z ≠ i.val → Tab.find (t.hw.rtrAt r).override z = Tab.find (s.hw.rtrAt r).override z)) ∧
      (∃ t, exec (.flitMgmt r q k (.escape i p)) s = .next t ∧ Outside s t ∧ RegsBut s t [] ∧ Tab.find (t.hw.rtrAt r).escape i.val = p.map (·.val)) ∧
      (∃ t, exec (.flitMgmt r q k (.slot j d0 d1 d2)) s = .next t ∧ Outside s t ∧ RegsBut s t [] ∧ Tab.find (t.hw.rtrAt r).slots j.val = some (d0, d1, d2)))

/-- Stream slots and ticks (R157, R158, R171, R173, R175, R176, R178, R179). -/
def Obligations.StreamFlitsChainReduceAndTick : Prop :=
  ∀ (r : RtrLoc) (q : Fin 7) (k : Flit) (s : State),
    let x := s.hw.rtrAt r
    (∀ (i u : Nat) (cl : ClLoc) (us : List Nat), r = .cluster cl → HopOk s r q k 5 → q.val ≠ r.localPort → x.flitSlot k = some i → i ∉ x.aborted → wbit (x.slot i).1 (17 + q.val) = true →
      chainLocals (x.slot i).2.2 = u :: us → s.hw.unitFenced r u = false → k.last = false →
      ∃ t, exec (.flitChain r q k) s = .next t ∧ Outside s t ∧
        Tab.find (t.hw.rtrAt r).tiles i = some (if k.f 88 1 = 1 then (k.data, k.f 72 8) else ((Tab.get x.tiles i ([], 0)).1 ++ k.data, (Tab.get x.tiles i ([], 0)).2)) ∧
        RegsBut s t [r.page + Reg.router.rtrSlotStatus]) ∧
    (∀ i : Nat, HopOk s r q k 5 → q.val ≠ r.localPort → x.flitSlot k = some i → i ∉ x.aborted → wbit (x.slot i).1 (17 + q.val) = true →
      ((∃ f, r = .hub f) ∨ chainLocals (x.slot i).2.2 = []) → wbits (x.slot i).1 24 3 = 7 →
      let c := r.page + Reg.router.rtrChainTail
      ∃ t, exec (.flitChain r q k) s = .next t ∧ Outside s t ∧ t.hw.fld c 0 32 = satAdd 32 (s.hw.fld c 0 32) 1 ∧ RegsBut s t [c]) ∧
    (∀ (i : Nat) (c : Instr) (kind : Nat), (c = .flitRedUp r q k ∧ kind = 6 ∨ c = .flitCredUp r q k ∧ kind = 9 ∧
        (∃ p, p ∈ slotPorts (x.slot i).1 ∧ p ≠ q.val ∧ ∀ u ∈ Tab.get x.units i [], u.port ≠ p)) →
      HopOk s r q k kind → q.val ≠ r.localPort → x.flitSlot k = some i → i < 16 → i ∉ x.aborted →
      ∃ t, exec c s = .next t ∧ Outside s t ∧ Tab.get (t.hw.rtrAt r).units i [] = Tab.get x.units i [] ++ [⟨q.val, k.f 82 18, k.f 100 2, kind, k.data⟩] ∧
        t.hw.bit (r.page + Reg.router.rtrSlotStatus) i = true ∧ RegsBut s t [r.page + Reg.router.rtrSlotStatus]) ∧
    (∀ i : Fin 16,
      let d0 := (x.slot i.val).1
      let us := Tab.get x.units i.val []
      let fl := unitFlits (wbits d0 13 4)
      let head := fun p : Nat => (us.filter fun u => decide (u.port = p)).take fl
      let st := r.page + Reg.router.rtrSlotStatus
      (((∃ p ∈ slotPorts d0, (head p).length < fl) ∨ wbit d0 0 = false ∨ wbits d0 1 2 ≠ 1 ∨ s.hw.bit st (16 + i.val) = true) → exec (.redCombine r i) s = .next s) ∧
      (wbit d0 0 = true → wbits d0 1 2 = 1 → s.hw.bit st (16 + i.val) = false → s.hw.rtrUp r = true → slotPorts d0 ≠ [] → (∀ p ∈ slotPorts d0, (head p).length = fl) →
        ((∃ p ∈ slotPorts d0, ∃ u ∈ head p, ∃ p' ∈ slotPorts d0, ∃ u' ∈ head p', u.unit ≠ u'.unit) →
          ∃ t, exec (.redCombine r i) s = .next t ∧ Outside s t ∧ t.hw.bit st (16 + i.val) = true ∧ t.hw.bit (r.page + 0x010) 11 = true ∧ Emits s t (.abortAsk (wbits d0 28 2) false) ∧
            t.hw.rtr = s.hw.rtr) ∧
        ((∀ p ∈ slotPorts d0, ∀ u ∈ head p, ∀ p' ∈ slotPorts d0, ∀ u' ∈ head p', u.unit = u'.unit) →
          ∃ t, exec (.redCombine r i) s = .next t ∧ t.fuses = s.fuses ∧ t.pending = s.pending ∧ (wbits d0 24 3 ≠ r.localPort → t.mem = s.mem) ∧
            (∀ j, j ≠ i.val → Tab.get (t.hw.rtrAt r).units j [] = Tab.get x.units j []) ∧
            (Tab.get (t.hw.rtrAt r).units i.val []).length + fl * (slotPorts d0).length = us.length))) ∧
    (∀ (i : Nat) (c : Instr) (kind : Nat), (c = .flitRedDown r q k ∧ kind = 7 ∨ c = .flitCredDown r q k ∧ kind = 10) →
      HopOk s r q k kind → x.flitSlot k = some i →
      ∃ t, exec c s = .next t ∧ t.fuses = s.fuses ∧ t.pending = s.pending ∧
        (i ∈ x.aborted → t.mem = s.mem ∧ t.hw = { s.hw with rtr := t.hw.rtr, out := t.hw.out }) ∧
        (i ∉ x.aborted → ∀ p ∈ slotPorts (x.slot i).1, p ≠ r.localPort → (neighbour r p).isSome = true → PortReady s.hw r p .b k → SentOn s t r p .b k)) ∧
    (HopOk s r q k 8 →
      ∃ t, exec (.flitTick r q k) s = .next t ∧ Outside s t ∧ (t.hw.rtrAt r).tickAt = leAt k.data 9 8 ∧ (t.hw.rtrAt r).tickLen = leAt k.data 6 3 ∧
        ∀ p ∈ s.hw.tickPorts r q.val, p ≠ r.localPort → (neighbour r p).isSome = true → PortReady s.hw r p .a k → SentOn s t r p .a k)

/-- Links, lanes and responses of the mesh (R161, R163, R166, R167, R181 to R183, R315). -/
def Obligations.LinksDrainTestAndReturn : Prop :=
  (∀ (r : RtrLoc) (s : State),
    let port := s.hw.fld (r.page + Reg.router.rtrPortSel) 0 3
    let v : Plane := if s.hw.bit (r.page + Reg.router.rtrPortSel) 3 then .b else .a
    let st := s.hw.linkState r port v
    let pg := r.page
    s.hw.deadFor .rm pg = false → port < 7 → (neighbour r port).isSome = true →
    (linkUp st = true → linkUp (s.hw.linkState r port v.other) = true → (s.hw.link r port v).outq = [] →
      ∃ t, exec (.drainLink .rm r) s = .next t ∧ Outside s t ∧ t.hw.reg (pg + 0x020) = resultWord .rm 0x10 .ok ∧ (t.hw.link r port v).outq = [] ∧ t.hw.linkState r port v = st) ∧
    (st = 4 → ∃ t, exec (.laneTest .rm r) s = .next t ∧ Outside s t ∧ t.hw.reg (pg + 0x020) = resultWord .rm 0x11 .ok ∧ t.hw.linkState r port v = 5 ∧ RegsBut s t [pg + 0x020, pg + linkReg v]) ∧
    (st = 4 → bitOf (s.hw.link r port v).test 1 = false → bitOf (s.hw.link r port v).test 2 = false →
      ∃ t, exec (.applyLaneMap .rm r) s = .next t ∧ Outside s t ∧ t.hw.reg (pg + 0x020) = resultWord .rm 0x12 .ok ∧ (t.hw.link r port v).failing = [] ∧
        (∀ x, (s.hw.link r port v).failing = [x] → Tab.find (t.hw.link r port v).soft x.1 = some x.2) ∧ t.hw.linkState r port v = 4) ∧
    (st = 4 → ∃ t, exec (.releaseLink .rm r) s = .next t ∧ Outside s t ∧ t.hw.reg (pg + 0x020) = resultWord .rm 0x13 .ok ∧ t.hw.linkState r port v = 2 ∧
      ∀ n p, neighbour r port = some (n, p) → t.hw.linkState n p v = 2) ∧
    (st ≠ 7 → (s.hw.link r port v).outq = [] → ∃ t, exec (.excludeLink .rm r) s = .next t ∧ Outside s t ∧ t.hw.reg (pg + 0x020) = resultWord .rm 0x14 .ok ∧ t.hw.linkState r port v = 6 ∧
      t.hw.bit (pgModule + Reg.module.glbStatus) 1 = true) ∧
    (∀ (c : Instr) (code : Nat), (c = .laneTest .rm r ∧ code = 0x11 ∨ c = .releaseLink .rm r ∧ code = 0x13) → st ≠ 4 →
      ∃ t, exec c s = .next t ∧ Outside s t ∧ t.hw.rtr = s.hw.rtr ∧ t.hw.reg (pg + 0x020) = resultWord .rm code .illegal ∧ t.hw.bit (pg + 0x010) 0 = true ∧ RegsBut s t ((pg + 0x020) :: eventRegs pg)) ∧
    (s.hw.blkState pg = 2 → ∃ t, exec (.rtrClearCounters .rm r) s = .next t ∧ Outside s t ∧ (∀ p w, (t.hw.link r p w).crcErr = 0 ∧ (t.hw.link r p w).replays = 0) ∧
      t.hw.regN (pg + Reg.router.rtrEscCount) = 0 ∧ t.hw.regN (pg + Reg.router.rtrChainTail) = 0 ∧ t.hw.reg (pg + 0x020) = resultWord .rm 0x01 .ok)) ∧
  (∀ (r : RtrLoc) (q : Fin 7) (v : Plane) (s : State),
    let st := s.hw.linkState r q.val v
    let l := s.hw.link r q.val v
    (∀ (n : RtrLoc) (p : Nat), neighbour r q.val = some (n, p) → bitOf l.test 31 = true → l.replay = [] → (s.hw.link n p v).replay = [] →
      ∃ t, exec (.drainDone r q v) s = .next t ∧ Outside s t ∧ t.hw.linkState r q.val v = 4 ∧ t.hw.linkState n p v = 4 ∧ (t.hw.link r q.val v).test = 0) ∧
    (st = 5 → ∃ t, exec (.laneTestDone r q v []) s = .next t ∧ Outside s t ∧ t.hw.linkState r q.val v = 4 ∧ (t.hw.link r q.val v).test = 3 ∧ (t.hw.link r q.val v).failing = [] ∧
      t.hw.bit (r.page + 0x010) 14 = true) ∧
    (st ≠ 5 → ∀ k, exec (.laneTestDone r q v k) s = .next s) ∧
    (st = 2 → s.hw.degradeDue r q.val v = true → ∃ t, exec (.linkDegrade r q v) s = .next t ∧ Outside s t ∧ t.hw.linkState r q.val v = 3 ∧ t.hw.bit (r.page + 0x010) 9 = true ∧ t.hw.rtr = s.hw.rtr ∧
      RegsBut s t ((r.page + linkReg v) :: eventRegs r.page)) ∧
    (st ≠ 2 ∨ s.hw.degradeDue r q.val v = false → exec (.linkDegrade r q v) s = .next s) ∧
    ((neighbour r q.val).isSome = true → (s.hw.link r q.val .a).outq = [] → (s.hw.link r q.val .b).outq = [] →
      ∃ t, exec (.linkDownDetect r q) s = .next t ∧ Outside s t ∧ t.hw.linkState r q.val .a = 0 ∧ t.hw.linkState r q.val .b = 0 ∧ (t.hw.link r q.val v).replay = [] ∧ t.hw.bit (r.page + 0x010) 8 = true) ∧
    (∀ (n : RtrLoc) (p : Nat) (c : Fin 32), neighbour r q.val = some (n, p) → (s.hw.link n p v).outq = [] →
      ∃ t, exec (.creditRefresh r q v c) s = .next t ∧ Outside s t ∧ RegsBut s t [] ∧ Tab.get (t.hw.link n p v).cred c.val 0 = Tab.get l.freed c.val 0) ∧
    (∀ k : Flit, (k.f 0 3 = 0 ∨ k.f 0 3 = 3) → k.kind ≠ 5 → k.kind ≠ 9 → k.kind ≠ 10 → (∃ w ∈ (s.hw.link r q.val (kindClass k.kind).1).outq, w.flit = k) →
      let c := r.page + Reg.router.rtrEscCount
      ∃ t, exec (.escapeMove r q k) s = .next t ∧ Outside s t ∧ t.hw.fld c 0 32 = satAdd 32 (s.hw.fld c 0 32) 1 ∧ t.hw.bit (r.page + 0x010) 10 = true)) ∧
  (∀ (k : RespKey) (s : State) (x : RespAcc), s.hw.resp.find? (fun x => x.ep = k.ep.toNat && x.src = k.src.toNat && x.tag = k.tag.toNat && x.status = k.status.toNat) = some x →
    let z := respFlit x.ep x.src x.tag x.status x.count 0
    ∃ t, exec (.respFlush k) s = .next t ∧ Outside s t ∧ RegsBut s t [] ∧ t.hw.resp = s.hw.resp.erase x ∧ Emits s t (.flit (epNode x.ep) (epNode x.ep).localPort (kindClass z.kind).1 (z.put 0 3 (kindClass z.kind).2))) ∧
  (∀ (r : RtrLoc) (s : State), let c := pgFarrier + Reg.farrier.frTickMissed
    ∃ t, exec (.routerTickMissed r) s = .next t ∧ Outside s t ∧ (t.hw.rtrAt r).tickAt = (s.hw.rtrAt r).tickAt + s.hw.period ∧ t.hw.fld c 0 32 = satAdd 32 (s.hw.fld c 0 32) 1 ∧
      RegsBut s t (c :: eventRegs pgFarrier)) ∧
  (∀ s : State, (s.hw.blkState pgTimebase ≠ 2 ∨ s.hw.tbRole = 2) → s.hw.blkState pgTimebase ≠ 3 → exec .tickFlitOriginate s = .next s) ∧
  (∀ (f : Field) (s : State), (s.hw.blkState pgTimebase = 3 ∨ s.hw.blkState pgTimebase = 2 ∧ s.hw.tbRole ≠ 2) → s.hw.tickRoot = some f →
    let z := mkFlit 8 true (epNum f.val 6 15) (epNum f.val 6 15) 0 0
      (leBytes 6 ((s.hw.stride + 1) % 2 ^ 48) ++ leBytes 3 (s.hw.lenOf (s.hw.stride + 1)) ++ leBytes 8 (s.hw.clk.tickAt + s.hw.curLen))
    ∃ t, exec .tickFlitOriginate s = .next t ∧ Outside s t ∧ RegsBut s t [] ∧ Emits s t (.flit (.hub f) (RtrLoc.hub f).localPort (kindClass z.kind).1 (z.put 0 3 (kindClass z.kind).2)))

/-- Placement commands that complete at once (R187, R193, R199 to R201, R205, R206, R210, R218). -/
def Obligations.PlacementCommandsChangeDescriptors : Prop :=
  ∀ (p : Path) (f : Field) (n : Paddock) (s : State),
    let cmd := fun code => placeCmd s p f code n
    (∀ (i : Instr) (code : Nat), (i = .place p f ∧ code = 1 ∨ i = .pin p f ∧ code = 5 ∨ i = .free p f ∧ code = 7 ∨ i = .query p f ∧ code = 8) →
      CmdOpen s p (pgPlace f) [0, 1] → (s.hw.plPaddock p (s.hw.plRecord p f) = none ∨ s.hw.plPaddock p (s.hw.plRecord p f) = some n ∧ s.hw.plMalformed code (s.hw.plRecord p f) n = true) →
      ∃ t, exec i s = .next t ∧ Outside s t ∧ t.hw = { s.hw with rf := s.words t } ∧ t.hw.reg (pgPlace f + 0x020) = resultWord p code .badArg ∧ RegsBut s t [pgPlace f + 0x020]) ∧
    (PlaceReady s p f 1 n → s.hw.obj (cmd 1).handle ≠ none → placeBad (cmd 1) = false → ∃ t, exec (.place p f) s = .next t ∧ PlaceDone s t p f 1 n 3 ∧ t.hw.objs = s.hw.objs) ∧
    (PlaceReady s p f 1 n → placeBad (cmd 1) = false → s.hw.obj (cmd 1).handle = none → (cmd 1).tier = 2 →
      (s.hw.objs.countP fun x => s.hw.homeOf x.1 = s.hw.homeOf (cmd 1).handle) < 8192 → nfwTwoPass ((cmd 1).f 0x28 4) = false →
      let bytes := 4096 * chargePages ((cmd 1).f 0x20 8) ((cmd 1).opt 1) (if (cmd 1).opt 1 then (cmd 1).f 0x38 8 else 0)
      s.hw.quotaOk n 2 bytes = true →
      ∃ (t : State) (o : Obj), exec (.place p f) s = .next t ∧ PlaceDone s t p f 1 n 0 ∧ t.hw.obj (cmd 1).handle = some o ∧ o.state = .t2 ∧ o.pins = 0 ∧ o.size = (cmd 1).f 0x20 8 ∧
        o.nfw = (cmd 1).f 0x28 4 ∧ o.cls = (cmd 1).f 0x1D 1 ∧ o.owner = n.val ∧ o.t2Node = (cmd 1).f 0x2C 2 ∧ o.spans = [] ∧ t.hw.used n 2 = (s.hw.used n 2 + bytes) % 2 ^ 64) ∧
    (∀ (i : Instr) (code : Nat), (i = .pin p f ∧ code = 5 ∨ i = .unpin p f ∧ code = 6 ∨ i = .free p f ∧ code = 7 ∨ i = .query p f ∧ code = 8 ∨ i = .setPolicy p f ∧ code = 9 ∨
        i = .setAlt p f ∧ code = 10 ∨ i = .dropDraft p f ∧ code = 12 ∨ i = .bindWindow p f ∧ code = 13) →
      PlaceReady s p f code n → s.hw.obj (cmd code).handle = none → ∃ t, exec i s = .next t ∧ PlaceDone s t p f code n 2 ∧ t.hw.objs = s.hw.objs) ∧
    (∀ o : Obj, o.owner = n.val → o.cls ≠ 1 →
      let out := fun (i : Instr) (code status : Nat) (o' : Obj) => PlaceReady s p f code n → s.hw.obj (cmd code).handle = some o →
        ∃ t, exec i s = .next t ∧ PlaceDone s t p f code n status ∧ t.hw.obj (cmd code).handle = some o'
      (o.pins < 255 → out (.pin p f) 5 0 { o with pins := o.pins + 1 }) ∧ (255 ≤ o.pins → out (.pin p f) 5 5 o) ∧
      (0 < o.pins → out (.unpin p f) 6 0 { o with pins := o.pins - 1 }) ∧ (o.pins = 0 → out (.unpin p f) 6 7 o) ∧
      out (.query p f) 8 0 o ∧
      ((cmd 9).f 0x1E 1 ≤ 7 → out (.setPolicy p f) 9 0 { o with policy := (cmd 9).f 0x1E 1 }) ∧ (7 < (cmd 9).f 0x1E 1 → out (.setPolicy p f) 9 6 o) ∧
      ((cmd 10).opt 4 = false → out (.setAlt p f) 10 0 { o with altNode := (cmd 10).f 0x2E 2, hasAlt := false, altDa := 0 }) ∧
      ((cmd 10).opt 4 = true → daRegion ((cmd 10).f 0x38 8) ≤ 1 → s.hw.rangeInPaddock o.own ((cmd 10).f 0x38 8) o.storedBytes = true →
        out (.setAlt p f) 10 0 { o with altNode := (cmd 10).f 0x2E 2, hasAlt := true, altDa := (cmd 10).f 0x38 8 }) ∧
      out (.dropDraft p f) 12 0 { o with hasDraft := false, draftDa := 0, t1Pages := o.t1Pages - o.draftPages, draftPages := 0, maxErr := 0 } ∧
      (PlaceReady s p f 13 n → s.hw.obj (cmd 13).handle = some o →
        let k := pgPlaceGlobal + Reg.placeGlobal.paddock0Win0Lo + 0x80 * n.val + 8 * (cmd 13).tier
        ∃ t, exec (.bindWindow p f) s = .next t ∧ PlaceDone s t p f 13 n 0 ∧ t.hw.objs = s.hw.objs ∧ t.hw.regN k = (cmd 13).handle % 2 ^ 32 ∧ t.hw.regN (k + 4) = (cmd 13).handle >>> 32 + 2 ^ 31) ∧
      (o.state.resident = true → o.pinned = false → PlaceReady s p f 7 n → s.hw.obj (cmd 7).handle = some o →
        ∃ t, exec (.free p f) s = .next t ∧ PlaceDone s t p f 7 n 0 ∧ t.hw.obj (cmd 7).handle = none ∧ t.hw.used n 0 = s.hw.used n 0 - 256 * o.t0Units ∧ t.hw.used n 2 = s.hw.used n 2 - 4096 * o.t2Pages ∧
          (o.t0Units ≠ 0 → (⟨o.t0Da, 256 * o.t0Units⟩ : Span) ∈ t.hw.fills)) ∧
      ((o.state.resident = false ∨ o.pinned = true) → out (.free p f) 7 7 o))

/-- Transitions, deferral, drafts, queue and zero fill (R187, R193, R199, R200, R202, R203, R205, R216). -/
def Obligations.PlacementTransitionsRunToTheirEnd : Prop :=
  (∀ (p : Path) (f : Field) (n : Paddock) (s : State) (o : Obj), o.owner = n.val → o.cls ≠ 1 →
    let room := fun hd => s.hw.transits (s.hw.homeOf hd) < 16
    (let c := placeCmd s p f 2 n
     PlaceReady s p f 2 n → s.hw.obj c.handle = some o → c.tier = 0 → o.cls ≠ 3 → o.state = .t1 → room c.handle →
     let units := (o.size + 255) / 256
     ∀ u, s.hw.quotaOk n 0 (256 * units) = true → daRegion (c.f 0x30 8) = 2 → s.hw.allocAt n ⟨c.f 0x30 8, 256 * units⟩ = .at u →
       ∃ (t : State) (x : Obj), exec (.promote p f) s = .next t ∧ PlaceOnly s t p f 2 n ∧ t.hw.obj c.handle = some x ∧ x.state = .promT0 ∧ x.t0Da = u ∧ x.t0Units = units ∧ x.inT1 = o.inT1 ∧
         t.hw.used n 0 = (s.hw.used n 0 + 256 * units) % 2 ^ 64) ∧
    (let c := placeCmd s p f 2 n
     PlaceReady s p f 2 n → s.hw.obj c.handle = some o → c.tier = 1 → o.state = .t2 → room c.handle →
     let pages := chargePages o.size o.comp o.budget
     ∀ da, s.hw.quotaOk n 1 (4096 * pages) = true → (s.hw.allocT1 n pages).1 = .at da →
       ∃ (t : State) (x : Obj), exec (.promote p f) s = .next t ∧ PlaceOnly s t p f 2 n ∧ t.hw.obj c.handle = some x ∧ x.state = .promT1 ∧ x.t1Da = da ∧ x.t1Pages = pages + o.draftPages ∧
         Emits s t (.t2Read c.handle o.t2Node 0 o.storedBytes 0 0) ∧ t.hw.used n 1 = (s.hw.used n 1 + 4096 * pages) % 2 ^ 64) ∧
    (let c := placeCmd s p f 3 n
     PlaceReady s p f 3 n → s.hw.obj c.handle = some o → o.state = .t0 →
     (o.pinned = false → room c.handle → o.inT1 = true → ∃ (t : State) (x : Obj), exec (.demote p f) s = .next t ∧ PlaceOnly s t p f 3 n ∧ t.hw.obj c.handle = some x ∧ x.state = .demoting ∧ x.t0Da = o.t0Da ∧ x.t1Da = o.t1Da) ∧
     (o.pinned = true → o.deferred = none → ∃ t, exec (.demote p f) s = .next t ∧ PlaceDone s t p f 3 n 1 ∧ t.hw.obj c.handle = some { o with deferred := some ⟨false, c.opt 0, [c]⟩ })) ∧
    (let c := placeCmd s p f 4 n
     PlaceReady s p f 4 n → s.hw.obj c.handle = some o → o.state = .t1 → o.t2Node ≠ 0xFFFF →
     (o.pinned = false → room c.handle → o.inT2 = true → ∃ (t : State) (x : Obj), exec (.evict p f) s = .next t ∧ PlaceOnly s t p f 4 n ∧ t.hw.obj c.handle = some x ∧ x.state = .evicting) ∧
     (o.pinned = true → o.deferred = none → ∃ t, exec (.evict p f) s = .next t ∧ PlaceDone s t p f 4 n 1 ∧ t.hw.obj c.handle = some { o with deferred := some ⟨true, c.opt 0, [c]⟩ })) ∧
    (let c := placeCmd s p f 11 n
     PlaceReady s p f 11 n → s.hw.obj c.handle = some o →
     ((o.cls ≠ 2 ∨ 3 < nfwFormat o.nfw) → ∃ t, exec (.makeDraft p f) s = .next t ∧ PlaceDone s t p f 11 n 6 ∧ t.hw.objs = s.hw.objs) ∧
     (∀ bytes, o.cls = 2 → nfwFormat o.nfw ≤ 3 → (o.state = .t1 ∨ o.state = .t0) → o.hasDraft = true → objBytes s.mem o = some bytes →
       ∃ (t : State) (e d : Nat), exec (.makeDraft p f) s = .next t ∧ t.fuses = s.fuses ∧ t.pending = s.pending ∧ t.hw.obj c.handle = some { o with maxErr := e, draftPages := d } ∧
         t.hw.regN (pgPlace (s.hw.homeOf c.handle) + Reg.placement.pcLast) = 11 ∧ t.hw.reg (pgPlace f + 0x020) = resultWord p 11 .ok))) ∧
  (∀ (f : Field) (h : Handle) (s : State) (o : Obj) (w : Transit), s.hw.obj h.toNat = some o → o.transit = some w → s.hw.homeOf h.toNat = f → w.cmds = [] →
    let others := fun (t : State) => t.fuses = s.fuses ∧ t.pending = s.pending ∧ ∀ j, j ≠ h.toNat → t.hw.obj j = s.hw.obj j
    (∀ data, o.state = .promT1 → w.target = 1 → ∃ (t : State) (x : Obj), exec (.transitionDone f h (.ok data)) s = .next t ∧ others t ∧ t.mem = memPut s.mem o.t1Da (data.take o.storedBytes) ∧
      t.hw.obj h.toNat = some x ∧ x.state = .t1 ∧ x.inT1 = true ∧ x.transit = none ∧ x.t1Da = o.t1Da) ∧
    (∀ data bytes, o.state = .promT0 → objT1Bytes s.mem o = some bytes → ∃ (t : State) (x : Obj), exec (.transitionDone f h (.ok data)) s = .next t ∧ others t ∧ t.mem = memPut s.mem o.t0Da bytes ∧
      t.hw.obj h.toNat = some x ∧ x.state = .t0 ∧ x.inT0 = true ∧ x.transit = none ∧ x.t0Da = o.t0Da) ∧
    (∀ k : CopyResult, (k = .readFail ∨ k = .unreachable) → ∃ (t : State) (x : Obj), exec (.transitionDone f h k) s = .next t ∧ others t ∧ t.mem = s.mem ∧ t.hw.obj h.toNat = some x ∧ x.state = w.was ∧ x.transit = none ∧
      (o.inT0 = false → x.t0Units = 0) ∧ (o.inT1 = true → x.t1Da = o.t1Da))) ∧
  (∀ (f : Field) (h : Handle) (s : State), ((∀ o, s.hw.obj h.toNat = some o → o.transit = none ∨ s.hw.homeOf h.toNat ≠ f) → ∀ k, exec (.transitionDone f h k) s = .next s)) ∧
  (∀ (f : Field) (h : Handle) (s : State) (o : Obj) (d : Deferral), s.hw.obj h.toNat = some o → o.deferred = some d →
    (o.deferReady = false → exec (.deferredCommandStart f h) s = .next s) ∧
    (o.deferReady = true → s.hw.homeOf h.toNat = f → o.state = .t0 → o.transit = none → d.evict = false → o.inT1 = true → s.hw.transits f < 16 →
      ∃ (t : State) (x : Obj), exec (.deferredCommandStart f h) s = .next t ∧ Outside s t ∧ t.hw.obj h.toNat = some x ∧ x.state = .demoting ∧ x.deferred = none ∧ RegsBut s t [])) ∧
  (∀ (f : Field) (i : Nat) (s : State) (c : PlCmd) (o : Obj), s.hw.plQueue f = [c] → i = 0 → c.code = 8 → s.hw.homeOf c.handle = f → s.hw.obj c.handle = some o → o.deferReady = false →
    c.pad = o.owner → c.f 0x10 8 = 0 → c.opt 2 = false →
    ∃ t, exec (.queuedCommandStart f i) s = .next t ∧ Outside s t ∧ t.hw.plQueue f = [] ∧ t.hw.objs = s.hw.objs ∧ t.hw.regN (pgPlace f + Reg.placement.pcLast) = 8) ∧
  (∀ (f : Field) (i : Nat) (s : State), (s.hw.plQueue f)[i]? = none → exec (.queuedCommandStart f i) s = .next s) ∧
  (∀ (i : Nat) (x : Span) (s : State), s.hw.fills[i]? = some x → daRegion x.base = 2 →
    ∃ t, exec (.zeroFillDone i) s = .next t ∧ t.fuses = s.fuses ∧ t.pending = s.pending ∧ t.hw = { s.hw with fills := s.hw.fills.eraseIdx i } ∧
      ∀ q, memRead t.mem q = if x.base % 2 ^ 56 ≤ q ∧ q < x.base % 2 ^ 56 + x.len then 0 else memRead s.mem q)

/-- The commands of a mover channel (R221, R222, R224, R226, R228, R234 to R236, R239). -/
def Obligations.MoverCommandsLoadStopCollectAndPause : Prop :=
  ∀ (p : Path) (m : MvLoc) (s : State),
    let pg := m.page
    let x := s.hw.mvAt m
    let d := s.hw.mvStaged p m
    (MvOpen s p m [0, 1, 2] →
      (s.hw.mvMayLoad p m = true →
        let load := fun (r : CmdRes) (y : MvState) => ∃ t, exec (.mvrLoad p m) s = .next t ∧ MvOnly s t m [pg + 0x020] ∧ t.hw.mvAt m = y ∧ t.hw.reg (pg + 0x020) = resultWord p 1 r
        (x.shadow = none → x.records.length < 4 → descBad m d = false → load .ok { x with shadow := some (d, false), kicks := x.kicks + 1 }) ∧
        (x.shadow = none → x.records.length < 4 → descBad m d = true → load .badArg x) ∧
        (x.shadow ≠ none ∨ 4 ≤ x.records.length → load .busy x)) ∧
      (x.shadow = none → ∃ t, exec (.dropShadow p m) s = .next t ∧ MvOnly s t m [pg + 0x020] ∧ t.hw.mvAt m = x ∧ t.hw.reg (pg + 0x020) = resultWord p 3 .ok) ∧
      (∀ (e : Nat) (ue : Bool), x.shadow = some (e, ue) → MvSilent s m e →
        ∃ t, exec (.dropShadow p m) s = .next t ∧ MvRecorded s t m e 13 [pg + 0x020] ∧ (t.hw.mvAt m).shadow = none ∧ t.hw.reg (pg + 0x020) = resultWord p 3 .ok) ∧
      (∀ (r : MvRecord) (rest : List MvRecord), x.records = r :: rest →
        ∃ t, exec (.collect p m) s = .next t ∧ MvOnly s t m [pg + 0x020, pg + Reg.mover.mvrLast, pg + Reg.mover.mvrLastBytesLo, pg + Reg.mover.mvrLastBytesLo + 4] ∧
          t.hw.mvAt m = { x with records := rest, kicks := x.kicks - 1 } ∧ t.hw.reg (pg + Reg.mover.mvrLast) = BitVec.ofNat 32 (r.status + r.flags <<< 8 + r.seq <<< 16) ∧
          t.hw.reg64 (pg + Reg.mover.mvrLastBytesLo) = r.bytes % 2 ^ 64 ∧ t.hw.reg (pg + 0x020) = resultWord p 4 .ok) ∧
      (x.records = [] → (x.active ≠ none ∨ x.shadow ≠ none) →
        ∃ t, exec (.collect p m) s = .next t ∧ Outside s t ∧ t.hw = { s.hw with rf := s.words t } ∧ t.hw.reg (pg + 0x020) = resultWord p 4 .busy ∧ RegsBut s t [pg + 0x020]) ∧
      (x.records = [] → x.active = none → x.shadow = none →
        ∃ t, exec (.collect p m) s = .next t ∧ Outside s t ∧ t.hw = { s.hw with rf := s.words t } ∧ t.hw.reg (pg + 0x020) = resultWord p 4 .ok ∧
          t.hw.fld (pg + Reg.mover.mvrLast) 0 8 = 0x7F ∧ RegsBut s t [pg + 0x020, pg + Reg.mover.mvrLast]) ∧
      (let ks := [Reg.mover.mvrDone, Reg.mover.mvrErr, Reg.mover.mvrLateCount, Reg.mover.mvrCurbWait, Reg.mover.mvrBytesLo, Reg.mover.mvrBytesHi]
       ∃ t, exec (.mvrClearCounters p m) s = .next t ∧ Outside s t ∧ t.hw = { s.hw with rf := s.words t } ∧ t.hw.reg (pg + 0x020) = resultWord p 5 .ok ∧
         (∀ o ∈ ks, t.hw.regN (pg + o) = 0) ∧ RegsBut s t ((pg + 0x020) :: ks.map (pg + ·)))) ∧
    (MvOpen s p m [1, 2] → ∃ t, exec (.mvrStop p m) s = .next t ∧ MvOnly s t m [pg + 0x020] ∧ t.hw.reg (pg + 0x020) = resultWord p 2 .ok ∧
      t.hw.mvAt m = { x with active := x.active.map fun a => { a with ending := a.ending.or (some 13) } }) ∧
    (s.hw.deadFor p pg = false → s.hw.mvCtrlMay p m = true →
      (∃ t, exec (.pauseSet p m) s = .next t ∧ MvOnly s t m ((pg + Reg.mover.mvrCtrl) :: eventRegs pg) ∧ t.hw.bit (pg + Reg.mover.mvrCtrl) 0 = true ∧
        t.hw.mvAt m = { x with paused := x.paused || x.active.isNone } ∧ (x.active = none → x.paused = false → t.hw.bit (pg + 0x010) 11 = true) ∧
        ((x.active ≠ none ∨ x.paused = true) → t.hw.evlog = s.hw.evlog ∧ t.hw.out = s.hw.out)) ∧
      (∃ t, exec (.pauseClear p m) s = .next t ∧ MvOnly s t m [pg + Reg.mover.mvrCtrl] ∧ t.hw.bit (pg + Reg.mover.mvrCtrl) 0 = false ∧
        (x.paused = false → t.hw.mvAt m = x) ∧
        (x.paused = true → t.hw.mvAt m = { x with paused := false, active := x.active.map fun a => { a with bucket := dBurst a.desc * 1024 * 460800, cycle := s.hw.clk.now * 9 / 5 } }))) ∧
    (s.hw.deadFor p pg = true → exec (.pauseSet p m) s = .next s ∧ exec (.pauseClear p m) s = .next s) ∧
    (∀ a : Xfer, x.active = some a → s.hw.bit (pg + Reg.mover.mvrCtrl) 0 = true → x.paused = false → a.quiet = true → a.pend = [] →
      ∃ t, exec (.pauseDone m) s = .next t ∧ MvOnly s t m (eventRegs pg) ∧ t.hw.mvAt m = { x with paused := true } ∧ t.hw.bit (pg + 0x010) 11 = true) ∧
    ((x.active = none ∨ s.hw.bit (pg + Reg.mover.mvrCtrl) 0 = false ∨ x.paused = true ∨ ∃ a, x.active = some a ∧ (a.quiet = false ∨ a.pend ≠ [])) → exec (.pauseDone m) s = .next s)

/-- HANDOVER, LIST_ELEMENT_LOAD, SMV.KICK, SMV.WAIT (R213, R222, R224, R226, R228, R238, R242). -/
def Obligations.MoverHandsOverListsAndServesItsScore : Prop :=
  (∀ (m : MvLoc) (s : State),
    let pg := m.page
    let x := s.hw.mvAt m
    ((x.active ≠ none ∨ x.shadow = none ∨ x.paused = true ∨ s.hw.bit (pg + Reg.mover.mvrCtrl) 0 = true ∨ s.hw.fencedPage pg = true) → exec (.handover m) s = .next s) ∧
    (∀ (d : Nat) (ue : Bool) (n : Paddock), x.active = none → x.shadow = some (d, ue) → x.paused = false → s.hw.bit (pg + Reg.mover.mvrCtrl) 0 = false → s.hw.fencedPage pg = false →
      (if ue then s.hw.paddockOfField m.field else s.hw.mvPaddock m) = some n →
      ((dLen d = 0 ∨ dRows d = 0) → MvSilent s m d → Tab.get s.hw.prov pg [] = [] →
        ∃ t, exec (.handover m) s = .next t ∧ MvRecorded s t m d 1 [] ∧ (t.hw.mvAt m).shadow = none ∧ t.hw.bit (pg + 0x010) 12 = true) ∧
      (∀ st, dLen d ≠ 0 → dRows d ≠ 0 → s.activation n d ue = some st → MvSilent s m d →
        ∃ t, exec (.handover m) s = .next t ∧ MvRecorded s t m d st [] ∧ (t.hw.mvAt m).shadow = none ∧ t.hw.bit (pg + 0x010) 12 = true) ∧
      (dLen d ≠ 0 → dRows d ≠ 0 → s.activation n d ue = none → dFormat d ≠ 1 → dFormat d ≠ 2 → s.hw.windowSource n d = none →
        ∃ (t : State) (y : Xfer), exec (.handover m) s = .next t ∧ MvOnly s t m (eventRegs pg) ∧ t.hw.bit (pg + 0x010) 12 = true ∧
          t.hw.mvAt m = { x with active := some y, shadow := none, nextSeq := (x.nextSeq + 1) % 2 ^ 16 } ∧
          y = { newXfer d x.nextSeq n.val ue s.hw.clk.now x.idBase with slotAdd := y.slotAdd, auxAdd := y.auxAdd } ∧ ((s.hw.obj (dHandle d) = none ∨ ue = true) → y.slotAdd = 0 ∧ y.auxAdd = 0))) ∧
    (∀ (n : Paddock) (e : Nat), s.hw.mvPaddock m = some n → x.list[x.listNext]? = some e → x.listGo = true → x.shadow = none → x.records.length < 4 →
      s.hw.stride ≥ (s.hw.pad n).stepBase + e % 2 ^ 32 → s.hw.fencedPage pg = false →
      let d := listDesc s.hw n e
      (descBad m d = false → ∃ t, exec (.listElementLoad m) s = .next t ∧ MvOnly s t m [pg + Reg.mover.mvrList] ∧ t.hw.fld (pg + Reg.mover.mvrList) 0 16 = (x.listNext + 1) % 2 ^ 16 ∧
        t.hw.mvAt m = { x with listNext := x.listNext + 1, shadow := some (d, false), kicks := x.kicks + 1 }) ∧
      (descBad m d = true → MvSilent s m d → ∃ t, exec (.listElementLoad m) s = .next t ∧ MvRecorded s t m d 16 [pg + Reg.mover.mvrList] ∧ (t.hw.mvAt m).listNext = x.listNext + 1 ∧
        (t.hw.mvAt m).shadow = none)) ∧
    ((s.hw.mvPaddock m = none ∨ x.list[x.listNext]? = none ∨ x.listGo = false ∨ x.shadow ≠ none ∨ 4 ≤ x.records.length) → exec (.listElementLoad m) s = .next s)) ∧
  (∀ (l : ClLoc) (rd : Fin 32) (a b : Dword) (s : State),
    let q := s.hw.sqAt l
    let m := MvLoc.cluster l ⟨b.toNat % 4, Nat.mod_lt _ (by decide)⟩
    let x := s.hw.mvAt m
    let nt := match q.lateItem.bind fun i => q.items[i]? with | some e => e.flags % 2 | none => 0
    let d := withBits (memNat s.mem (t0Addr l.f.val l.c.val 8 (a.toNat % 2 ^ 21 / 32 * 32)) 96) (8 * 0x3E) 1 nt
    let out := fun (r : CmdRes) (y : MvState) => ∃ t, exec (.smvKick l rd a b) s = .next t ∧ Outside s t ∧ t.hw = { s.hw with rf := s.words t, mv := t.hw.mv, sq := t.hw.sq } ∧
      XWritten s t l rd.val r.code none ∧ t.hw.mvAt m = y ∧ RegsBut s t [m.page + 0x00C, m.page + Reg.mover.mvrStatus]
    (q.wait ≠ none → exec (.smvKick l rd a b) s = .next s) ∧
    (q.wait = none → s.hw.fencedPage m.page = true → out .fenced x) ∧
    (q.wait = none → s.hw.fencedPage m.page = false → x.shadow = none → x.records.length < 4 →
      (descBad m d = false → out .ok { x with shadow := some (d, false), kicks := x.kicks + 1 }) ∧ (descBad m d = true → out .badArg x)) ∧
    (q.wait = none → s.hw.fencedPage m.page = false → (x.shadow ≠ none ∨ 4 ≤ x.records.length) → out .busy x)) ∧
  (∀ (l : ClLoc) (rd : Fin 32) (a : Dword) (s : State),
    let q := s.hw.sqAt l
    let m := MvLoc.cluster l ⟨a.toNat % 4, Nat.mod_lt _ (by decide)⟩
    let x := s.hw.mvAt m
    (q.wait ≠ none → exec (.smvWait l rd a) s = .next s) ∧
    (∀ (r : MvRecord) (rest : List MvRecord), q.wait = none → x.records = r :: rest →
      ∃ t, exec (.smvWait l rd a) s = .next t ∧ Outside s t ∧ t.hw = { s.hw with rf := s.words t, mv := t.hw.mv, sq := t.hw.sq } ∧ XWritten s t l rd.val r.status none ∧
        t.hw.mvAt m = { x with records := rest, kicks := x.kicks - 1 } ∧ RegsBut s t [m.page + 0x00C, m.page + Reg.mover.mvrStatus]) ∧
    (q.wait = none → x.records = [] → (x.active ≠ none ∨ x.shadow ≠ none) →
      ∃ t, exec (.smvWait l rd a) s = .next t ∧ SqOnly s t l ∧ t.hw.sqAt l = { q with wait := some (.mover rd.val (a.toNat % 4)) }) ∧
    (q.wait = none → x.records = [] → x.active = none → x.shadow = none → ∃ t, exec (.smvWait l rd a) s = .next t ∧ SqOnly s t l ∧ XWritten s t l rd.val 0x7F none))

/-- MVR_READ_ISSUE, DEADLINE_LATE, AIF_DATA_PHASE_START, TRANSFER_COMPLETE, host completions, LATE_NOTICE (R139, R211 to R214, R225, R227, R228, R232, R348, R356). -/
def Obligations.TransfersReadEndLateAndComplete : Prop :=
  (∀ (m : MvLoc) (s : State) (x : Xfer), (s.hw.mvAt m).active = some x →
    let pg := m.page
    let n : Paddock := ⟨x.pad % 4, Nat.mod_lt _ (by decide)⟩
    let d := x.desc
    (s.hw.mvIssueOk m x = false → exec (.mvrReadIssue m) s = .next s) ∧
    (s.hw.mvIssueOk m x = true → x.draft = false → (x.alt && x.late) = false → s.hw.codedSource n d = none → s.hw.windowSource n d = none → dSrcHost d = false → dShare d = 0 →
      s.hw.bit (pg + Reg.mover.mvrCtrl) 0 = false → x.pos < srcBytes d →
      let a := rowAddr (dSrc d) (dSrcStride d) (dLen d) x.pos + x.slotAdd
      let len := min (dLen d - x.pos % dLen d) (4096 - a % 4096)
      ∃ t, exec (.mvrReadIssue m) s = .next t ∧ Outside s t ∧ RegsBut s t [pg + 0x00C, pg + Reg.mover.mvrStatus] ∧
        t.hw = { s.hw with rf := s.words t, clk := t.hw.clk, mv := t.hw.mv, out := t.hw.out } ∧ s.hw.clk.now ≤ t.hw.clk.now ∧
        MvActive s t m { x with pos := x.pos + len, cycle := max s.hw.cycles (x.cycle + 1), nextId := (x.nextId + 1) % 512, reads := x.reads ++ [⟨x.nextId, a, len, x.pos, 0, [], false, false⟩] } ∧
        (∀ q, physAddr a = some q → ∃ k, Emits s t (.flit (epNode m.ep) (epNode m.ep).localPort (kindClass 2).1 k) ∧ k.kind = 2 ∧ k.dst = (physEp q).1 ∧ leAt k.data 0 8 = (physEp q).2 ∧ leAt k.data 8 4 = len)) ∧
    (let off := fun (o : Nat) => pdCounter n o
     let obj := s.hw.obj (dHandle d)
     let pol := s.hw.policy d
     let useDraft := s.hw.mayDraft d
     let refused := bitOf pol 2 && ((obj.map (·.hasDraft)).getD false) && !dFlag d 0
     let useAlt := !useDraft && bitOf pol 1 && ((obj.map fun o => o.hasAlt || decide (o.altNode ≠ 0xFFFF)).getD false)
     let y := { x with late := true, draft := x.draft || useDraft, alt := x.alt || useAlt, reorder := bitOf pol 0, refused := refused }
     ((x.late = true ∨ dDeadline d = 0 ∨ (s.hw.stride : Int) < deadlineStride s.hw.stride (dDeadline d) ∨ x.live = false ∨ (x.finished = true ∧ x.quiet = true)) → exec (.deadlineLate m) s = .next s) ∧
     (x.late = false → dDeadline d ≠ 0 → deadlineStride s.hw.stride (dDeadline d) < (s.hw.stride : Int) → x.live = true → x.reads = [] → s.hw.codedSource n d = none →
      (bitOf pol 0 = false ∨ s.hw.hostOf n (dF d 0x38 4 % 512) = none) →
      let which := if useDraft then Reg.placeGlobal.paddock0Draft else if useAlt then Reg.placeGlobal.paddock0Alt else Reg.placeGlobal.paddock0Stall
      let up := fun (t : State) (k : Nat) => t.hw.fld k 0 32 = satAdd 32 (s.hw.fld k 0 32) 1
      (x.finished = true → x.quiet = false) →
      ∃ t, exec (.deadlineLate m) s = .next t ∧ Outside s t ∧ MvActive s t m y ∧ up t (pg + Reg.mover.mvrLateCount) ∧ t.hw.bit (pg + 0x010) 10 = true ∧ up t (off Reg.placeGlobal.paddock0Late) ∧ up t (off which) ∧
        (refused = true → up t (off Reg.placeGlobal.paddock0DraftRefused)) ∧ (∀ o, obj = some o → t.hw.obj (dHandle d) = some { o with late := satAdd 32 o.late 1 }) ∧
        t.hw = { s.hw with rf := s.wordsMsix t, mv := t.hw.mv, objs := t.hw.objs, evlog := t.hw.evlog, out := t.hw.out } ∧
        RegsBut s t ([pg + 0x00C, pg + Reg.mover.mvrStatus, pg + Reg.mover.mvrLateCount, off Reg.placeGlobal.paddock0Late, off which, off Reg.placeGlobal.paddock0DraftRefused] ++ eventRegs pg))) ∧
    (let nb := aifBlocks d
     let ready := dFormat d = 5 ∧ x.phase = 1 ∧ x.live = true ∧ nb ≤ x.own.length ∧ ∀ j, j < nb → (Tab.find x.agreed j).isSome = true
     let exceeds := ∃ j, j < nb ∧ Tab.get x.agreed j 0 < x.own.getD j 0
     (¬ ready → exec (.aifDataPhaseStart m) s = .next s) ∧
     (ready → exceeds → ∃ t, exec (.aifDataPhaseStart m) s = .next t ∧ MvOnly s t m [] ∧ MvActive s t m { x with status := some 10 }) ∧
     (ready → ¬ exceeds → ∃ t, exec (.aifDataPhaseStart m) s = .next t ∧ MvOnly s t m [] ∧
        MvActive s t m { x with phase := 2, pos := 0, inPos := 0, plainIn := 0, segDone := 0, done := 0, units := 0 })) ∧
    (let noFlush := dDstHost d = false ∨ m.hostPort = none ∨ x.flushed = true
     (x.finished = false → x.live = true → exec (.transferComplete m) s = .next s) ∧
     (noFlush → (∃ r ∈ x.reads, r.dead = false) ∨ x.acc < x.sent ∨ x.red ≠ 0 → exec (.transferComplete m) s = .next s) ∧
     (∀ p, m.hostPort = some p → dDstHost d = true → x.flushed = false → x.finished = true → x.acc ≤ x.sent →
       ∃ t, exec (.transferComplete m) s = .next t ∧ MvOnly s t m [] ∧ MvActive s t m { x with flushed := true, sent := x.sent + 1 } ∧
         ∃ a, Emits s t (.hostRead p m.ch a 0 x.nextId)) ∧
     (let st := match x.ending, x.status with | some 14, _ => 14 | _, some e => e | some e, none => e | none, none => 0
      noFlush → (x.finished = true ∨ x.live = false) → (∀ r ∈ x.reads, r.dead = true) → x.sent ≤ x.acc → x.red = 0 → x.held = [] → (s.hw.mvAt m).shadowEnd = none → MvSilent s m d → Tab.get s.hw.prov pg [] = [] →
      (∀ f c, m = .port f c → x.fromUe = false) →
      ∃ t, exec (.transferComplete m) s = .next t ∧ Outside s t ∧
        t.hw.mvAt m = { s.hw.mvAt m with active := none, idBase := x.nextId, paused := (s.hw.mvAt m).paused || s.hw.bit (pg + Reg.mover.mvrCtrl) 0, records := (s.hw.mvAt m).records ++ [⟨st + 128 * b2n x.late, b2n x.alt + 2 * b2n x.draft + 4 * b2n x.reorder + 8 * b2n x.refused, x.seq % 2 ^ 16, x.written⟩] } ∧
        (let k := pg + (if st ≤ 1 then Reg.mover.mvrDone else Reg.mover.mvrErr)
         t.hw.fld k 0 32 = satAdd 32 (s.hw.fld k 0 32) 1) ∧ (1 < st → t.hw.bit (pg + 0x010) 9 = true) ∧
        t.hw = { s.hw with rf := s.wordsMsix t, mv := t.hw.mv, prov := t.hw.prov, mon := t.hw.mon, evlog := t.hw.evlog, out := t.hw.out } ∧
        PageOnly s t (pg :: (List.finRange 16).map (pgMonitor m.field)) (eventRegs pg)))) ∧
  (∀ (x : HostId) (i : Fin 8) (s : State) (a : Xfer), let m : MvLoc := .host x i
    (s.hw.mvAt m).active = some a →
    let n : Paddock := ⟨a.pad % 4, Nat.mod_lt _ (by decide)⟩
    (∀ (k : HostCpl) (r : ReadOut), a.reads.find? (fun r => r.id = k.id) = some r →
      (dSrcHost a.desc = false → exec (.hostCompletion x i k) s = .next s) ∧
      (dSrcHost a.desc = true → k.ok = true → r.dead = false → a.live = true → r.pos ≠ a.inPos → Tab.find a.ahead a.inPos = none → a.raw = [] → a.pend = [] → dFormat a.desc = 0 →
        ∃ t, exec (.hostCompletion x i k) s = .next t ∧ MvOnly s t m [] ∧
          MvActive s t m { a with reads := (a.reads.filter fun y => y.id ≠ r.id).map fun y => if y.pos = r.pos then { y with dead := true } else y,
                                  ahead := Tab.set a.ahead r.pos (sliceD k.bytes r.skip r.len 0) })) ∧
    (∀ k : HostCpl, a.reads.find? (fun r => r.id = k.id) = none → a.flushed = true → a.acc < a.sent → k.id = a.nextId →
      ∃ t, exec (.hostCompletion x i k) s = .next t ∧ MvOnly s t m [] ∧ MvActive s t m { a with acc := a.acc + 1, status := if k.ok then a.status else a.status.or (some 8) }) ∧
    (∀ (r : ReadOut) (rest : List ReadOut), dSrcHost a.desc = true → a.reads = r :: rest → r.dead = false → (∀ y ∈ rest, y.id ≠ r.id % 512) → r.id < 512 →
      (∀ y ∈ rest, y.pos ≠ r.pos) → s.hw.obj (dHandle a.desc) = none →
      ∃ t, exec (.completionTimeout x i) s = .next t ∧ Outside s t ∧ MvActive s t m { a with reads := rest, status := a.status.or (some 8) } ∧
        a.startAt + 50000000 ≤ t.hw.clk.now ∧ RegsBut s t [m.page + 0x00C, m.page + Reg.mover.mvrStatus, pdCounter n Reg.placeGlobal.paddock0ReadFail])) ∧
  (∀ (m : MvLoc) (x : HostId) (i : Fin 8) (k : HostCpl) (s : State), (s.hw.mvAt m).active = none → (s.hw.mvAt (.host x i)).active = none →
    exec (.mvrReadIssue m) s = .next s ∧ exec (.deadlineLate m) s = .next s ∧ exec (.aifDataPhaseStart m) s = .next s ∧ exec (.transferComplete m) s = .next s ∧
    exec (.hostCompletion x i k) s = .next s ∧ exec (.completionTimeout x i) s = .next s) ∧
  (∀ (l : ClLoc) (t : BitVec 8) (le : BitVec 16) (s : State),
    let q := s.hw.sqAt l
    let cnt := fun (u : State) (off : Nat) => ∀ n, s.hw.paddockOfCluster l = some n → u.hw.fld (pdCounter n off) 0 32 = satAdd 32 (s.hw.fld (pdCounter n off) 0 32) 1 ∧ RegsBut s u [pdCounter n off]
    (q.head le.toNat = none → exec (.lateNotice l t le) s = .next s) ∧
    (∀ e, q.head le.toNat = some e →
      let on := e.tokIn = t.toNat ∧ Tab.get q.tok e.tokIn 0 < e.tokCount ∧ bitOf e.flags 1 = true
      (¬ on → exec (.lateNotice l t le) s = .next s) ∧
      (on → s.hw.slackReady l le.toNat = none → ∃ u, exec (.lateNotice l t le) s = .next u ∧ Outside s u ∧ u.hw = { s.hw with rf := s.words u } ∧ cnt u Reg.placeGlobal.paddock0Stall) ∧
      (∀ i y, on → s.hw.slackReady l le.toNat = some i → q.slack[i]? = some y → y.tokCount = 0 →
        ∃ u, exec (.lateNotice l t le) s = .next u ∧ Outside s u ∧ (u.hw.sqAt l).slackRun = i :: q.slackRun ∧ Emits s u (.slackBegin l i) ∧ cnt u Reg.placeGlobal.paddock0Reorder)))

/-- RANGE_ARRIVED, SWEEP_START, DEFERRED_ENTRY_START, UPDATE_WINDOW_EXPIRE, the Calliope commands, PLAN_TAKE_UP (R39, R246 to R248, R254, R255, R266, R267, R270, R283, R360). -/
def Obligations.ArrivalsSweepsGroupsAndPlansMoveOn : Prop :=
  (∀ (f : Field) (i : Nat) (s : State),
    let u := s.hw.ucAt f
    let st := pgUpdate f + Reg.ucomplex.ucStatus
    ((u.ranges[i]? = none ∨ ∃ r, u.ranges[i]? = some r ∧ (r.arrived = true ∨ r.count < r.len)) → exec (.rangeArrived f i) s = .next s) ∧
    (∀ r : ArrRange, u.ranges[i]? = some r → r.arrived = false → r.len ≤ r.count → r.fwd = 0xFFFF →
      let r' := { r with arrived := decide (r.kind ≠ 2), count := if r.kind = 2 then r.count - r.len else r.count }
      let all := r.kind ≠ 2 ∧ (∀ x ∈ u.ranges.set i r', x.kind = 2 ∨ x.arrived = true) ∧ s.hw.bit st 1 = false
      ∃ t, exec (.rangeArrived f i) s = .next t ∧ Outside s t ∧ t.hw.ucAt f = { u with ranges := u.ranges.set i r' } ∧ (∀ g : Field, g ≠ f → t.hw.ucAt g = s.hw.ucAt g) ∧
        t.hw = { s.hw with rf := s.wordsMsix t, uc := t.hw.uc, sq := t.hw.sq, evlog := t.hw.evlog, out := t.hw.out } ∧
        (all → t.hw.bit st 1 = true ∧ t.hw.bit (pgUpdate f + 0x010) 8 = true) ∧ (¬ all → t.hw.evlog = s.hw.evlog ∧ t.hw.out = s.hw.out) ∧
        (r.token = 0 → t.hw.sq = s.hw.sq ∧ RegsBut s t (st :: eventRegs (pgUpdate f))) ∧
        (∀ (n : Paddock) (l : ClLoc), r.token ≠ 0 → s.hw.paddockOfField f = some n → s.hw.hostOf n (bitsOf r.token 0 9) = some l → s.hw.fencedPage l.page = false →
          let k := bitsOf r.token 16 8
          ∀ j, Tab.get (t.hw.sqAt l).tok j 0 = if j = k then min (Tab.get (s.hw.sqAt l).tok k 0 + 1) 65535 else Tab.get (s.hw.sqAt l).tok j 0))) ∧
  (∀ (n : Paddock) (f : Field) (s : State),
    let u := s.hw.ucAt f
    let pg := pgUpdate f
    let st := pg + Reg.ucomplex.ucStatus
    let idx := fun (e : Fin 4) => (List.range u.entries.length).filter fun i => eF (u.entries.getD i 0) 21 1 = e.val
    (f.val ∉ (s.hw.scAt n).sweepDue → exec (.sweepStart n f) s = .next s) ∧
    (f.val ∈ (s.hw.scAt n).sweepDue → u.entries ≠ [] → s.hw.SweepInT1 f →
      ∃ t, exec (.sweepStart n f) s = .next t ∧ OutsideBytes s t (ueSram f 0x3FF0000) 0x110 ∧ memNat t.mem (ueSram f digestOff) 16 = 0 ∧
        t.hw = { s.hw with rf := s.words t, uc := t.hw.uc, ve := t.hw.ve, errMark := t.hw.errMark, sc := t.hw.sc } ∧
        t.hw.scAt n = { s.hw.scAt n with sweepDue := (s.hw.scAt n).sweepDue.erase f.val } ∧
        (∀ e : Fin 4, (t.hw.ueAt f e).running = (idx e).head? ∧ (t.hw.ueAt f e).todo = (idx e).tail ∧ (t.hw.ueAt f e).deferred = []) ∧ (t.hw.ucAt f).done = [] ∧
        (t.hw.ucAt f).entries = u.entries ∧ t.hw.bit st 0 = true ∧ t.hw.bit st 3 = false ∧ t.hw.bit st 4 = false ∧ t.hw.blkState pg = 2 ∧
        t.hw.reg64 (pg + Reg.ucomplex.ucSweepStartLo) = s.hw.stride ∧ PageOnly s t (pg :: (List.finRange 4).map fun e => (VeLoc.update f e).page) [])) ∧
  (∀ (f : Field) (e : Fin 4) (s : State),
    let q := s.hw.ueAt f e
    let u := s.hw.ucAt f
    ((q.stopped = true ∨ q.running ≠ none ∨ q.todo ≠ [] ∨ q.deferred = []) → exec (.deferredEntryStart f e) s = .next s) ∧
    (∀ (i : Nat) (rest : List Nat) (o : Obj), q.stopped = false → q.running = none → q.todo = [] → q.deferred = i :: rest → s.hw.obj (eF (u.entries.getD i 0) 0 6) = some o →
      (o.state ≠ .t1 → o.state ≠ .t2 → exec (.deferredEntryStart f e) s = .next s) ∧
      (o.state = .t1 → ∃ t, exec (.deferredEntryStart f e) s = .next t ∧ OutsideBytes s t (ueSram f (0x3FF0000 + 64 * e.val)) 64 ∧
        (t.hw.ueAt f e).running = some i ∧ (t.hw.ueAt f e).wasDeferred = true ∧ (t.hw.ueAt f e).deferred = rest ∧ (t.hw.ueAt f e).todo = [] ∧
        t.hw.regN ((VeLoc.update f e).page + Reg.ve.vePc) = eF (u.entries.getD i 0) 28 4 ∧ t.hw.bit ((VeLoc.update f e).page + Reg.ve.veStatus) 0 = true ∧
        (t.hw.veAt (.update f e)).xr 1 = 0x3FF0000 + 64 * e.val ∧ PageOnly s t [pgUpdate f, (VeLoc.update f e).page] []))) ∧
  (∀ (f : Field) (s : State),
    let k := pgUpdate f + Reg.ucomplex.ucStatus
    let c := pgUpdate f + Reg.ucomplex.ucNotReadyCount
    let due := s.hw.bit k 0 = true ∧ s.hw.bit k 4 = false ∧ s.hw.reg64 (pgUpdate f + Reg.ucomplex.ucSweepStartLo) + (s.hw.ucAt f).window ≤ s.hw.stride
    (¬ due → exec (.updateWindowExpire f) s = .next s) ∧
    (due → ∃ t, exec (.updateWindowExpire f) s = .next t ∧ Outside s t ∧ ({ s.hw with uc := t.hw.uc } : Hw).Reports t.hw ([k, c] ++ eventRegs (pgUpdate f)) ∧ t.hw.bit k 4 = true ∧
      t.hw.bit (pgUpdate f + 0x010) 10 = true ∧ t.hw.ucAt f = { s.hw.ucAt f with nrStep := some (s.hw.fieldStep f) } ∧ (∀ g : Field, g ≠ f → t.hw.ucAt g = s.hw.ucAt g) ∧
      t.hw.fld c 0 32 = if (s.hw.ucAt f).nrStep = some (s.hw.fieldStep f) then s.hw.fld c 0 32 else satAdd 32 (s.hw.fld c 0 32) 1)) ∧
  (∀ (p : Path) (n : Paddock) (s : State),
    let pg := pgCalliope n
    let i := s.hw.calSel n
    let g := s.hw.calGroup n i
    let one := fun (t : State) (g' : CalGroup) => t.hw.calGroup n i = g' ∧ (∀ (m : Paddock) (j : Nat), j < 64 → (m ≠ n ∨ j ≠ i) → t.hw.calGroup m j = s.hw.calGroup m j) ∧
      t.hw = { s.hw with rf := s.words t, cal := t.hw.cal } ∧ RegsBut s t [pg + 0x020]
    (CmdOpen s p pg [0, 1, 2] →
      (∃ t, exec (.stageLoad p n) s = .next t ∧ Outside s t ∧ one t { g with stag := g.eff } ∧ t.hw.reg (pg + 0x020) = resultWord p 1 .ok) ∧
      (∃ t, exec (.apply p n) s = .next t ∧ Outside s t ∧ one t { g with apply := some g.stag } ∧ t.hw.reg (pg + 0x020) = resultWord p 2 .ok)) ∧
    (CmdOpen s p pg [0, 2] → ∃ t, exec (.setCount p n) s = .next t ∧ Outside s t ∧ t.hw.calCount n = s.hw.reg64 (pg + Reg.calliope.calArgLo) ∧ t.hw.blkState pg = 3 ∧
      Tab.get t.hw.calBack n.val 0 = s.hw.blkState pg ∧ t.hw.reg (pg + 0x020) = resultWord p 3 .ok ∧ t.hw.cal = s.hw.cal ∧
      RegsBut s t [pg + 0x020, pg + 0x00C, pg + Reg.calliope.calCountLo, pg + Reg.calliope.calCountLo + 4]) ∧
    (s.hw.blkState pg ≠ 3 → exec (.setCountDone n) s = .next s) ∧
    (s.hw.blkState pg = 3 → ∃ t, exec (.setCountDone n) s = .next t ∧ Outside s t ∧ t.hw.blkState pg = Tab.get s.hw.calBack n.val 0 % 256 ∧ t.hw.bit (pg + 0x010) 10 = true ∧
      (∀ j, j < 64 → let a := s.hw.calGroup n j
        t.hw.calGroup n j = if a.on then { a with p1 := (calProducts a.eff (s.hw.calCount n)).1, p2 := (calProducts a.eff (s.hw.calCount n)).2 } else a) ∧
      (∀ m : Paddock, m ≠ n → ∀ j, j < 64 → t.hw.calGroup m j = s.hw.calGroup m j) ∧ RegsBut s t ((pg + 0x00C) :: eventRegs pg))) ∧
  (∀ (n : Paddock) (s : State),
    let k := psReg n Reg.hostGlobal.ps0Status
    let st := s.hw.slotState n
    let fails := fun (r : Nat) => ∃ t, exec (.planTakeUp n) s = .next t ∧ Outside s t ∧ t.hw.slotState n = 0 ∧ t.hw.fld k 4 4 = r % 16 ∧ t.hw.fld k 8 8 = 0 ∧ t.hw.pad n = PadState.empty
    ((st ≠ 1 → st ≠ 2 → exec (.planTakeUp n) s = .next s) ∧ (st = 1 → s.hw.stride = (s.hw.pad n).pendAt → exec (.planTakeUp n) s = .next s)) ∧
    (st = 1 → s.hw.stride ≠ (s.hw.pad n).pendAt →
      (s.planImage n = none → fails 11) ∧ (∀ b r, s.planImage n = some b → s.planCheck n b = .inl r → fails r) ∧
      (∀ b h', s.planImage n = some b → s.planCheck n b = .inr h' → leAt b (leAt b 0x24 4) 4 = 0 →
        ∃ t, exec (.planTakeUp n) s = .next t ∧ Outside s t ∧ t.hw.slotState n = 3 ∧ t.hw.fld k 4 4 = 0 ∧ t.hw.reg64 (psReg n Reg.hostGlobal.ps0PlanIdLo) = leAt b 0x30 8 ∧
          (t.hw.pad n).stepGap = leAt b 0x16 2 ∧ (t.hw.pad n).stepStrides = leAt b 0x18 4 ∧ (t.hw.pad n).stepBase = (s.hw.stride + 1 + leAt b 0x16 2) % 2 ^ 48 ∧
          (t.hw.scAt n).on = true ∧ t.hw.blkState (pgCommit n) = 1)))

/-- Step votes, prepare rounds, digests (R274, R277, R278, R280, R284 to R286). -/
def Obligations.StepVotesPreparesAndDigests : Prop :=
  (∀ (n : Paddock) (s : State),
    let pg := pgCommit n
    let x := s.hw.scAt n
    let voted := fun (t : State) (arrived : Bool) => Outside s t ∧ t.hw = { s.hw with rf := s.wordsMsix t, clk := t.hw.clk, sc := t.hw.sc, evlog := t.hw.evlog, out := t.hw.out } ∧
      t.hw.scAt n = { x with voted := true, loss := s.hw.voteLoss n, waiting := some ⟨s.hw.openStep n, s.hw.progress n 0 8, 1, 0⟩, votedAt := t.hw.clk.now, contAt := none } ∧
      t.hw.blkState pg = 2 ∧ UnitSent s t n 1 0 (s.hw.voteFlags n arrived) ∧ (∀ r ∈ s.hw.paddockRings n, t.hw.bit (pgWatch r + Reg.watch.nwSnapStatus) 1 = true) ∧
      PageOnly s t (pg :: (s.hw.paddockRings n).map pgWatch) (eventRegs pg)
    ((s.hw.mayVote n && s.hw.allArrived n) = false → exec (.stepVoteContribute n) s = .next s) ∧
    (s.hw.mayVote n = true → s.hw.allArrived n = true → s.hw.voteHub n ≠ none → ∃ t, exec (.stepVoteContribute n) s = .next t ∧ voted t true ∧ t.hw.clk = s.hw.clk) ∧
    (let e := (s.hw.pad n).stepBase + (s.hw.pad n).stepStrides
     let due := s.hw.mayVote n = true ∧ s.hw.allArrived n = false ∧ (s.hw.pad n).baseInForce = true ∧ e ≤ s.hw.stride
     (¬ due → exec (.arrivalTimeout n) s = .next s) ∧
     (due → s.hw.voteHub n ≠ none → ∃ t, exec (.arrivalTimeout n) s = .next t ∧ voted t false ∧ s.hw.tickTime e + s.hw.voteTimeout n ≤ t.hw.clk.now)) ∧
    (∀ (p : Path) (v : Word), s.hw.mayWrite p pg Reg.stepCommit.lossIn = true →
      (x.voted = true → ∃ t, exec (.lossInWrite p n v) s = .next t ∧ Outside s t ∧ s.hw.Reports t.hw (eventRegs pg) ∧ t.hw.bit (pg + 0x010) 18 = true) ∧
      (x.voted = false → ∃ t, exec (.lossInWrite p n v) s = .next t ∧ Outside s t ∧ t.hw = { s.hw with rf := s.words t } ∧ t.hw.reg (pg + Reg.stepCommit.lossIn) = v ∧
        t.hw.bit (pg + Reg.stepCommit.lossCount) 31 = true ∧ t.hw.fld (pg + Reg.stepCommit.lossCount) 0 31 = s.hw.fld (pg + Reg.stepCommit.lossCount) 0 31 ∧
        RegsBut s t [pg + Reg.stepCommit.lossIn, pg + Reg.stepCommit.lossCount]))) ∧
  (∀ (n : Paddock) (s : State),
    let pg := pgCommit n
    let x := s.hw.scAt n
    let inst := s.hw.progress n 16 16
    let prepared := fun (t : State) => ScOnly s t n [pg + 0x00C] ∧ t.hw.blkState pg = 4 ∧ UnitSent s t n 2 inst (s.hw.prepareFlags n) ∧
      t.hw.scAt n = { x with last := some (s.hw.scReady n, x.digestOk), waiting := some ⟨s.hw.openStep n, s.hw.progress n 0 8, 2, inst⟩, votedAt := t.hw.clk.now, contAt := none }
    (let due := s.hw.mayPrepare n = true ∧ x.last = none ∧ (x.digestOk ≠ none ∨ x.noRestore = true ∨ s.hw.notReady n = true)
     (¬ due → exec (.prepareContribute n) s = .next s) ∧ (due → s.hw.voteHub n ≠ none → ∃ t, exec (.prepareContribute n) s = .next t ∧ prepared t ∧ t.hw.clk = s.hw.clk)) ∧
    ((x.contAt = none ∨ s.hw.mayPrepare n = false) → exec (.prepareRecontribute n) s = .next s) ∧
    (∀ at_, x.contAt = some at_ → s.hw.mayPrepare n = true → s.hw.voteHub n ≠ none →
      let now := (s.hw.scReady n = true ∧ x.digestOk = some true) ∨ x.last ≠ some (s.hw.scReady n, x.digestOk) ∨ x.noRestore = true
      ∃ t, exec (.prepareRecontribute n) s = .next t ∧ prepared t ∧ (now → t.hw.clk = s.hw.clk) ∧ (¬ now → at_ + 1000000 ≤ t.hw.clk.now))) ∧
  (∀ (n : Paddock) (k : DigestMsg) (s : State),
    let pg := pgCommit n
    let x := s.hw.scAt n
    let run := s.hw.progress n 9 5
    let took := x.on = true ∧ k.group = s.hw.scCfg n Reg.stepCommit.scGroup % 2 ^ 16 ∧ s.hw.partnerNode n ≠ 0xFFFF
    let regs := (List.range 4).map fun i => pg + Reg.stepCommit.scPartnerDigest0 + 4 * i
    let open_ := took ∧ x.formed = run ∧ run ≠ 0 ∧ x.digestOk = none ∧ x.double = false ∧ k.step = s.hw.openStep n ∧ k.attempt = s.hw.progress n 0 8 ∧ k.run = run
    (¬ took → exec (.digest n k) s = .next s) ∧
    (took → x.formed = 0 → ∃ t, exec (.digest n k) s = .next t ∧ ScOnly s t n [] ∧ t.hw.scAt n = { x with partner := (k :: x.partner).take 32 }) ∧
    (open_ → k.digest.toNat = s.hw.shardDigest n → x.digest1 = s.hw.shardDigest n → ∃ t, exec (.digest n k) s = .next t ∧ ScOnly s t n regs ∧
      t.hw.reg128 (pg + Reg.stepCommit.scPartnerDigest0) = k.digest.toNat ∧ t.hw.scAt n = { x with partner := (k :: x.partner).take 32, digestOk := some true }) ∧
    (open_ → k.digest.toNat ≠ s.hw.shardDigest n → run ≤ s.hw.resweepMax n → ∃ t, exec (.digest n k) s = .next t ∧ ScOnly s t n (regs ++ eventRegs pg) ∧ t.hw.bit (pg + 0x010) 11 = true ∧
      t.hw.scAt n = { x with partner := (k :: x.partner).take 32, digestOk := some false, rerun := true })) ∧
  (∀ (n : Paddock) (s : State),
    let pg := pgCommit n
    let x := s.hw.scAt n
    let run := s.hw.progress n 9 5
    let due := x.on = true ∧ x.formed ≠ 0 ∧ x.formed = run ∧ x.digestOk = none ∧ x.double = false ∧ x.rerun = false ∧ s.hw.partnerDigest n = none
    (¬ due → exec (.digestTimeout n) s = .next s) ∧
    (due → ∃ t, exec (.digestTimeout n) s = .next t ∧ ScOnly s t n (eventRegs pg) ∧ x.formedAt + s.hw.voteTimeout n ≤ t.hw.clk.now ∧
      (bitOf (s.hw.scCfg n Reg.stepCommit.scCfg) 4 = true → t.hw.scAt n = { x with digestOk := some true } ∧ t.hw.bit (pg + 0x010) 17 = true) ∧
      (bitOf (s.hw.scCfg n Reg.stepCommit.scCfg) 4 = false → t.hw.scAt n = { x with double := true, rerun := true })) ∧
    ((x.rerun = false ∨ s.hw.blkState pg = 7) → exec (.sweepRerun n) s = .next s) ∧
    (x.rerun = true → s.hw.blkState pg ≠ 7 → (∀ f ∈ s.hw.paddockFields n, s.hw.SweepInT1 f) → (∃ f ∈ s.hw.paddockFields n, (s.hw.ucAt f).entries ≠ []) →
      ∃ t, exec (.sweepRerun n) s = .next t ∧ t.fuses = s.fuses ∧ t.pending = s.pending ∧ t.hw.scAt n = { x with rerun := false, digestOk := none } ∧ t.hw.blkState pg = 3 ∧
        t.hw.progress n 9 5 = (run + 1) % 32 ∧ (∀ f ∈ s.hw.paddockFields n, (s.hw.ucAt f).entries ≠ [] → t.hw.bit (pgUpdate f + Reg.ucomplex.ucStatus) 0 = true ∧
          t.hw.bit (pgUpdate f + Reg.ucomplex.ucStatus) 3 = false)))

/-- Outcomes, queries and doubt (R276, R279, R285, R288 to R291, R304). -/
def Obligations.OutcomesAreLoggedOnceAndTakeEffect : Prop :=
  (∀ (n : Paddock) (e : LogEntry) (s : State),
    let pg := pgCommit n
    let x := s.hw.scAt n
    let fresh := x.on = true ∧ x.logged e.key = none
    let mine := e.key.step = s.hw.openStep n ∧ e.key.attempt = s.hw.progress n 0 8 ∧ x.pend = none ∧ s.hw.blkState pg ≠ 7
    let ahead := 2 ^ 47 ≤ (s.hw.stride + 2 ^ 48 - e.applyAt) % 2 ^ 48
    let logged := (e :: x.log).take 64
    (¬ fresh → exec (.decision n e) s = .next s) ∧
    (fresh → ¬ mine → ∃ t, exec (.decision n e) s = .next t ∧ ScOnly s t n (outcomeRegs n) ∧ Logged s t n e ∧ t.hw.scAt n = { x with log := logged }) ∧
    (fresh → mine → e.outcome = 1 → ∃ t, exec (.decision n e) s = .next t ∧ ScOnly s t n (outcomeRegs n) ∧ Logged s t n e ∧ t.hw.blkState pg = 3 ∧
      t.hw.scAt n = { x with log := logged, waiting := none, sweepArmed := true } ∧
      t.hw.regN (psReg n Reg.hostGlobal.ps0Outcome) = (1 + e.reason <<< 4 + (e.key.step % 2 ^ 24) <<< 8) % 2 ^ 32) ∧
    (fresh → mine → e.outcome ≠ 1 → e.outcome ≠ 3 → ahead → ∃ t, exec (.decision n e) s = .next t ∧ ScOnly s t n (outcomeRegs n) ∧ Logged s t n e ∧
      t.hw.scAt n = { x with log := logged, pend := some e, waiting := none }) ∧
    (fresh → mine → e.outcome = 2 → e.reason ≠ 7 → ¬ ahead → s.hw.slotState n ≠ 5 → e.applyAt < 2 ^ 48 →
      ∃ t, exec (.decision n e) s = .next t ∧ Outside s t ∧ Logged s t n e ∧ t.hw.committed n = e.key.step % 2 ^ 64 ∧ t.hw.genSlot n = 1 - s.hw.genSlot n ∧ t.hw.progress n 0 8 = 0 ∧
        t.hw.blkState pg = 1 ∧ (t.hw.pad n).stepBase = (e.applyAt + (s.hw.pad n).stepGap) % 2 ^ 48 ∧ (t.hw.scAt n).tries = 0 ∧ (t.hw.scAt n).voted = false ∧
        t.hw.calCount n = (s.hw.calCount n + 1) % 2 ^ 64) ∧
    (fresh → mine → e.outcome = 4 → ¬ ahead → s.hw.slotState n ≠ 5 →
      ∃ t, exec (.decision n e) s = .next t ∧ Outside s t ∧ Logged s t n e ∧ t.hw.committed n = s.hw.committed n ∧ t.hw.genSlot n = s.hw.genSlot n ∧
        t.hw.progress n 0 8 = (s.hw.progress n 0 8 + 1) % 256 ∧ t.hw.blkState pg = 1 ∧ (t.hw.scAt n).tries = x.tries + 1 ∧ t.hw.bit (pg + 0x010) 9 = true) ∧
    (fresh → mine → e.outcome = 5 → ¬ ahead → s.hw.slotState n = 3 →
      ∃ t, exec (.decision n e) s = .next t ∧ Outside s t ∧ Logged s t n e ∧ t.hw.blkState pg = 7 ∧ (t.hw.scAt n).held = true ∧ t.hw.slotState n = 4)) ∧
  (∀ (n : Paddock) (r : Option LogEntry) (q : BitVec 16) (s : State),
    let x := s.hw.scAt n
    ((r = none ∨ x.waiting = none ∨ s.hw.blkState (pgCommit n) ≠ 5 ∨ ∃ e, r = some e ∧ x.waiting ≠ some e.key) → exec (.decisionReply n r q) s = .next s) ∧
    (∀ e, r = some e → x.waiting = some e.key → s.hw.blkState (pgCommit n) = 5 → x.on = true → x.logged e.key = none → e.key.step = s.hw.openStep n →
      e.key.attempt = s.hw.progress n 0 8 → x.pend = none →
      (e.outcome = 1 → ∃ t, exec (.decisionReply n r q) s = .next t ∧ ScOnly s t n (outcomeRegs n) ∧ Logged s t n e ∧ t.hw.blkState (pgCommit n) = 3 ∧
        t.hw.scAt n = { x with log := (e :: x.log).take 64, waiting := none, sweepArmed := true }) ∧
      (e.outcome ≠ 1 → e.outcome ≠ 3 → 2 ^ 47 ≤ (s.hw.stride + 2 ^ 48 - e.applyAt) % 2 ^ 48 →
        ∃ t, exec (.decisionReply n r q) s = .next t ∧ ScOnly s t n (outcomeRegs n) ∧ Logged s t n e ∧ t.hw.scAt n = { x with log := (e :: x.log).take 64, pend := some e, waiting := none }))) ∧
  (∀ (n : Paddock) (k : RoundKey) (hold : Bool) (s : State),
    let x := s.hw.scAt n
    let o := if hold then (5, 7) else s.hw.limitOutcome n (if (x.proceeded k.step k.attempt || x.retry) = true then (6, 3) else (7, 3))
    let e : LogEntry := ⟨k, o.1, o.2, (s.hw.stride + 2) % 2 ^ 48⟩
    ((x.on = false ∨ s.hw.isRoot n = false ∨ x.logged k ≠ none) → exec (.abortRequest n k hold) s = .next s) ∧
    (x.on = true → s.hw.isRoot n = true → x.logged k = none → ∃ t, exec (.abortRequest n k hold) s = .next t ∧ ScOnly s t n (outcomeRegs n) ∧ Logged s t n e ∧
      Emits s t (.toMembers n.val 0x10 (logBytes e)))) ∧
  (∀ (n : Paddock) (s : State),
    let pg := pgCommit n
    let x := s.hw.scAt n
    (x.waiting = none → exec (.roundTimeout n) s = .next s ∧ exec (.inDoubt n) s = .next s) ∧
    (s.hw.isRoot n = false → s.hw.blkState pg ≠ 5 → exec (.roundTimeout n) s = .next s) ∧
    (∀ k, x.waiting = some k → x.on = true → s.hw.isRoot n = true → s.hw.blkState pg ≠ 5 → x.logged k = none →
      ∃ t, exec (.roundTimeout n) s = .next t ∧ ScOnly s t n (outcomeRegs n) ∧ x.votedAt + s.hw.voteTimeout n ≤ t.hw.clk.now ∧ (t.hw.scAt n).missing = true ∧
        let o := s.hw.limitOutcome n (if (x.proceeded k.step k.attempt || x.retry) = true then (6, 3) else (7, 3))
        let e : LogEntry := ⟨k, o.1, o.2, (s.hw.stride + 2) % 2 ^ 48⟩
        Logged s t n e ∧ Emits s t (.toMembers n.val 0x10 (logBytes e))) ∧
    ((s.hw.blkState pg = 5 ∨ x.pend ≠ none) → exec (.inDoubt n) s = .next s) ∧
    (∀ k, x.waiting = some k → s.hw.blkState pg ≠ 5 → x.pend = none → s.hw.partnerNode n = 0xFFFF →
      let q := leBytes 2 (s.hw.groupId n) ++ keyBytes k
      ∃ t, exec (.inDoubt n) s = .next t ∧ ScOnly s t n ((pg + 0x00C) :: eventRegs pg) ∧ t.hw.sc = s.hw.sc ∧ t.hw.blkState pg = 5 ∧ t.hw.bit (pg + 0x010) 13 = true ∧
        Emits s t (.toRoot n.val 0x11 q) ∧ Emits s t (.toMembers n.val 0x11 q) ∧
        x.votedAt + s.hw.voteTimeout n + 1000 * bitsOf (s.hw.scCfg n Reg.stepCommit.scTimeout) 16 16 ≤ t.hw.clk.now)) ∧
  (∀ (n : Paddock) (k : RoundKey) (q : BitVec 16) (l : LinkLoc) (s : State),
    let payload := leBytes 2 (s.hw.groupId n) ++ leBytes 6 (s.hw.committed n) ++ leBytes 1 (s.hw.genSlot n) ++
      (match (s.hw.scAt n).logged k with | some e => leBytes 1 1 ++ logBytes e | none => leBytes 1 0 ++ keyBytes k)
    (MsgReady s.hw q.toNat l → ∃ t, exec (.decisionQuery n k q) s = .next t ∧ Outside s t ∧ t.hw = { s.hw with opl := t.hw.opl, opp := t.hw.opp, out := t.hw.out } ∧ MsgSent s t l q.toNat 0x12 payload) ∧
    (s.hw.routeOf q.toNat = none → ∃ t, exec (.decisionQuery n k q) s = .next t ∧ Outside s t ∧ t.hw = { s.hw with rf := s.words t } ∧
      let c := pgOptGlobal + Reg.optGlobal.opUnreach
      t.hw.fld c 0 32 = satAdd 32 (s.hw.fld c 0 32) 1 ∧ RegsBut s t [c]))

/-- Arbitration, rejoin, walk and the step-commit commands (R280, R282, R287, R293 to R295, R298). -/
def Obligations.ArbitrationRejoinWalkAndCommitCommands : Prop :=
  (∀ (n : Paddock) (k : ArbRequest) (l : LinkLoc) (s : State),
    let payload := leBytes 2 (s.hw.groupId n) ++ (leBytes 6 k.step ++ leBytes 1 k.attempt ++ (if k.slotA = k.slotB then leBytes 1 0 ++ leBytes 16 k.digest.toNat else leBytes 1 1))
    (MsgReady s.hw k.primary.toNat l → ∃ t, exec (.arbitrate n k) s = .next t ∧ Outside s t ∧ t.hw = { s.hw with rf := s.words t, opl := t.hw.opl, opp := t.hw.opp, out := t.hw.out } ∧
      MsgSent s t l k.primary.toNat 0x16 payload) ∧
    (s.hw.routeOf k.primary.toNat = none → MsgReady s.hw k.partner.toNat l →
      ∃ t, exec (.arbitrate n k) s = .next t ∧ Outside s t ∧ t.hw = { s.hw with rf := s.words t, opl := t.hw.opl, opp := t.hw.opp, out := t.hw.out } ∧ MsgSent s t l k.partner.toNat 0x16 payload)) ∧
  (∀ (n : Paddock) (k : ArbAnswer) (s : State),
    let pg := pgCommit n
    let x := s.hw.scAt n
    let c := pg + Reg.stepCommit.scDigestEvents
    let dg := (List.range 4).map fun i => pg + Reg.stepCommit.scDigest0 + 4 * i
    let mine := x.arbAt ≠ none ∧ k.step = s.hw.openStep n ∧ k.attempt = s.hw.progress n 0 8
    let settled := fun (t : State) => t.hw.scAt n = { x with digestOk := some true, arbAt := none } ∧ t.hw.blkState pg = 3 ∧ t.hw.fld c 16 16 = satAdd 16 (s.hw.fld c 16 16) 1 ∧
      t.hw.fld c 0 16 = s.hw.fld c 0 16
    let failed := fun (t : State) => ScOnly s t n [pg + 0x00C] ∧ t.hw.scAt n = { x with noRestore := true, arbAt := none } ∧ t.hw.blkState pg = 3
    (¬ mine → exec (.arbReply n k) s = .next s) ∧
    (mine → (k.digest = none ∨ ∃ d, k.digest = some d ∧ d.toNat ≠ s.hw.shardDigest n ∧ s.hw.partnerDigest n ≠ some d.toNat) → ∃ t, exec (.arbReply n k) s = .next t ∧ failed t) ∧
    (∀ d, mine → k.digest = some d → d.toNat = s.hw.shardDigest n → ∃ t, exec (.arbReply n k) s = .next t ∧ ScOnly s t n [pg + 0x00C, c] ∧ settled t) ∧
    (∀ d, mine → k.digest = some d → d.toNat ≠ s.hw.shardDigest n → s.hw.partnerDigest n = some d.toNat → k.slots = [] →
      ∃ t, exec (.arbReply n k) s = .next t ∧ ScOnly s t n ([pg + 0x00C, c] ++ dg) ∧ settled t ∧ t.hw.shardDigest n = d.toNat) ∧
    (x.arbAt = none → exec (.arbTimeout n) s = .next s) ∧
    (∀ at_, x.arbAt = some at_ → ∃ t, exec (.arbTimeout n) s = .next t ∧ failed t ∧ at_ + s.hw.waitLimit n / 2 ≤ t.hw.clk.now)) ∧
  (∀ (n : Paddock) (s : State),
    let pg := pgCommit n
    let x := s.hw.scAt n
    (¬ (s.hw.committed n = 0 ∧ x.log = []) → exec (.rejoin n none) s = .next s) ∧
    (s.hw.committed n = 0 → x.log = [] → s.hw.slotState n = 0 → ∃ t, exec (.rejoin n none) s = .next t ∧ Outside s t ∧ t.hw.blkState pg = 7 ∧ (t.hw.scAt n).held = false ∧
      t.hw.bit (pg + 0x010) 16 = true ∧ RegsBut s t ((pg + 0x00C) :: eventRegs pg)) ∧
    (∀ p : PeerState, s.hw.blkState pg ≠ 5 → p.step = s.hw.committed n → exec (.rejoin n (some p)) s = .next s) ∧
    (∀ p : PeerState, s.hw.blkState pg ≠ 5 → p.step ≠ s.hw.committed n → p.slots = [] →
      ∃ t, exec (.rejoin n (some p)) s = .next t ∧ Outside s t ∧ t.hw = { s.hw with rf := s.words t } ∧ t.hw.committed n = p.step % 2 ^ 64 ∧ t.hw.genSlot n = b2n p.slot ∧
        t.hw.calCount n = p.calCount.toNat ∧ t.hw.lossExp n = p.exp.toInt ∧ t.hw.reg (pg + Reg.stepCommit.lossEma) = p.ema ∧ t.hw.shardDigest n = p.digest.toNat)) ∧
  (∀ (n : Paddock) (k : ChunkReport) (s : State),
    let pg := pgCommit n
    let x := s.hw.scAt n
    let cfg := if x.on then s.hw.scCfg n Reg.stepCommit.scCfg else s.hw.regN (pg + Reg.stepCommit.scCfg)
    (s.hw.obj k.handle.toNat = none → exec (.walkChunk n k) s = .next s) ∧
    (∀ o : Obj, s.hw.obj k.handle.toNat = some o →
      let off := k.chunk <<< 20
      let walks := bitOf cfg 6 = true ∧ s.hw.partnerNode n ≠ 0xFFFF ∧ (∀ f ∈ s.hw.paddockFields n, s.hw.bit (pgUpdate f + Reg.ucomplex.ucStatus) 0 = false) ∧ o.inT1 = true ∧ off < o.size / 2 ∧ k.step = s.hw.committed n
      let bytes := memBytes s.mem (o.t1Da + s.hw.genSlot n * (o.size / 2) + off) (min (1 <<< 20) (o.size / 2 - off))
      let same := walkDigest off bytes = k.digest.toNat
      let id := (k.handle.toNat, k.chunk)
      let frame := fun (t : State) => Outside s t ∧ t.hw = { s.hw with rf := s.wordsMsix t, sc := t.hw.sc, evlog := t.hw.evlog, out := t.hw.out } ∧
        PageOnly s t (pg :: (List.finRange 96).map sitePage) (eventRegs pg)
      let up := fun (t : State) (r : Nat) => t.hw.fld (pg + r) 0 32 = satAdd 32 (s.hw.fld (pg + r) 0 32) 1
      (¬ walks → exec (.walkChunk n k) s = .next s) ∧
      (walks → same → ∃ t, exec (.walkChunk n k) s = .next t ∧ frame t ∧ up t Reg.stepCommit.scWalkPos ∧ t.hw.scAt n = { x with walkAgain := none }) ∧
      (walks → ¬ same → x.walkAgain ≠ some id → ∃ t, exec (.walkChunk n k) s = .next t ∧ frame t ∧ t.hw.scAt n = { x with walkAgain := some id }) ∧
      (walks → ¬ same → x.walkAgain = some id → ∃ t, exec (.walkChunk n k) s = .next t ∧ frame t ∧ up t Reg.stepCommit.scWalkMismatch ∧ t.hw.bit (pg + 0x010) 15 = true ∧
        (t.hw.scAt n).walkAgain = none ∧ ((t.hw.scAt n).walkBad = true ∨ (t.hw.scAt n).noRestore = true)))) ∧
  (∀ (p : Path) (n : Paddock) (s : State),
    let pg := pgCommit n
    let arg := s.hw.regN (pg + Reg.stepCommit.scArg)
    (CmdOpen s p pg [7] →
      ((s.hw.scAt n).held = false → ∃ t, exec (.resume p n) s = .next t ∧ Outside s t ∧ t.hw.reg (pg + 0x020) = resultWord p 1 .illegal ∧ t.hw.bit (pg + 0x010) 0 = true ∧
        s.hw.Reports t.hw ((pg + 0x020) :: eventRegs pg)) ∧
      ((s.hw.scAt n).held = true → 1 < arg → ∃ t, exec (.resume p n) s = .next t ∧ Outside s t ∧ t.hw = { s.hw with rf := s.words t } ∧ t.hw.reg (pg + 0x020) = resultWord p 1 .badArg ∧ RegsBut s t [pg + 0x020]) ∧
      ((s.hw.scAt n).held = true → arg ≤ 1 → ∃ t, exec (.resume p n) s = .next t ∧ Outside s t ∧ t.hw.reg (pg + 0x020) = resultWord p 1 .ok ∧ t.hw.blkState pg = 1 ∧ t.hw.slotState n = 3 ∧
        t.hw.progress n 0 8 = (s.hw.progress n 0 8 + 1) % 256 ∧ t.hw.committed n = s.hw.committed n ∧ (t.hw.scAt n).tries = 0 ∧
        (t.hw.pad n).stepBase = (s.hw.stride + 1 + (s.hw.pad n).stepGap) % 2 ^ 48)) ∧
    (CmdOpen s p pg [0, 7] →
      let ls := s.hw.scCfg n Reg.stepCommit.scLossScale
      (∃ t, exec (.setLossExp p n) s = .next t ∧ Outside s t ∧ t.hw.reg (pg + 0x020) = resultWord p 2 .ok ∧ t.hw = { s.hw with rf := s.words t, sc := t.hw.sc } ∧
        t.hw.lossExp n = max (signOf 8 (bitsOf ls 0 8)) (min (signOf 8 (bitsOf ls 8 8)) (signOf 8 arg)) ∧ RegsBut s t [pg + 0x020, pgCalliope n + Reg.calliope.calLossExp]) ∧
      (∃ t, exec (.resetLoss p n) s = .next t ∧ Outside s t ∧ t.hw.reg (pg + 0x020) = resultWord p 3 .ok ∧ t.hw = { s.hw with rf := s.words t } ∧
        t.hw.regN (pg + Reg.stepCommit.lossEma) = 0 ∧ t.hw.regN (pg + Reg.stepCommit.lossCount) = 0 ∧ RegsBut s t [pg + 0x020, pg + Reg.stepCommit.lossEma, pg + Reg.stepCommit.lossCount])))

/-- Error reports and the Farrier (R47, R48, R302, R304, R306 to R309, R312, R317 to R319). -/
def Obligations.FarrierRecordsFencesAndRepairs : Prop :=
  (∀ (l : ClLoc) (k : ErrReport) (s : State),
    let page := k.page.toNat - daOff k.page.toNat
    let u := unitOfPage page
    let q := s.hw.sqAt l
    let c := l.page + Reg.score.sqErrCount
    let st := l.page + Reg.score.sqErrStatus
    (∀ i, blockAt page ≠ some (.uengine, i)) →
    ∃ t, exec (.errorReport l k) s = .next t ∧ Outside s t ∧ t.hw.fld c 0 32 = satAdd 32 (s.hw.fld c 0 32) 1 ∧
      (s.hw.bit st 8 = false → t.hw.regN st = k.cause.toNat + 256 + k.leid.toNat <<< 16 ∧ t.hw.reg (l.page + Reg.score.sqErrItem) = BitVec.ofNat 32 k.item ∧ (t.hw.sqAt l).itemError = true) ∧
      (s.hw.bit st 8 = true → t.hw.reg st = s.hw.reg st ∧ t.hw.reg (l.page + Reg.score.sqErrItem) = s.hw.reg (l.page + Reg.score.sqErrItem)) ∧
      (let recent := s.hw.stride :: (Tab.get s.hw.fr.reports u []).filter fun n => decide (s.hw.stride < n + s.hw.fld (pgFarrier + Reg.farrier.frCfg) 16 16)
       let sure := (q.replayed = true ∧ u ∈ q.errUnits) ∨ s.hw.fld (pgFarrier + Reg.farrier.frCfg) 8 8 ≤ recent.length
       k.cause.toNat ≠ 7 → k.cause.toNat ≠ 9 → Tab.get t.hw.fr.reports u [] = recent ∧
         (sure → u ∈ t.hw.fr.todo ∧ Tab.get t.hw.fr.persistent u 0 = min (Tab.get s.hw.fr.persistent u 0 + 1) 65535 ∧ t.hw.bit (pgFarrier + 0x010) 9 = true) ∧
         (¬ sure → t.hw.fr.todo = s.hw.fr.todo ∧ t.hw.bit (pgFarrier + 0x010) 8 = true ∧
           t.hw.fld (pgFarrier + Reg.farrier.frTransients) 0 32 = satAdd 32 (s.hw.fld (pgFarrier + Reg.farrier.frTransients) 0 32) 1))) ∧
  (∀ (p : Path) (l : ClLoc) (s : State), s.hw.deadFor p l.page = false → s.hw.fencedPage l.page = false → s.hw.stateCode l.page ≤ 7 →
    (s.hw.mayCommand p l.page none = true →
      (s.hw.paddockOfScore l = none → ∃ t, exec (.errClear p l) s = .next t ∧ Outside s t ∧ t.hw.reg (l.page + 0x020) = resultWord p 0x10 .illegal ∧ s.hw.Reports t.hw ((l.page + 0x020) :: eventRegs l.page)) ∧
      (s.hw.paddockOfScore l ≠ none → ∃ t, exec (.errClear p l) s = .next t ∧ Outside s t ∧ t.hw.reg (l.page + 0x020) = resultWord p 0x10 .ok ∧
        t.hw.regN (l.page + Reg.score.sqErrStatus) = 0 ∧ t.hw.regN (l.page + Reg.score.sqErrCount) = 0 ∧ (∀ i, i < 8 → t.hw.regN (l.page + Reg.score.sqTaint0 + 4 * i) = 0) ∧
        t.hw.fld (l.page + Reg.score.sqReplays) 0 16 = 0 ∧ t.hw.sqAt l = { s.hw.sqAt l with itemError := false, errUnits := [], replayed := false } ∧
        t.hw = { s.hw with rf := s.words t, sq := t.hw.sq, syncTaint := t.hw.syncTaint } ∧ PageOnly s t [l.page] [])) ∧
    ((p = .rm ∨ p = .score l) →
      (s.hw.paddockOfScore l = none → ∃ t, exec (.abortReq p l) s = .next t ∧ Outside s t ∧ t.hw.reg (l.page + 0x020) = resultWord p 0x11 .illegal ∧ s.hw.Reports t.hw ((l.page + 0x020) :: eventRegs l.page)) ∧
      (∀ n, s.hw.paddockOfScore l = some n → (s.hw.scAt n).on = true → s.hw.blkState (pgCommit n) ≠ 7 →
        let hold := s.hw.repairPending n || decide ((s.hw.scAt n).want = some true)
        ∃ t, exec (.abortReq p l) s = .next t ∧ Outside s t ∧ t.hw.reg (l.page + 0x020) = resultWord p 0x11 .ok ∧ t.hw.scAt n = { s.hw.scAt n with want := some hold } ∧
          Emits s t (.abortAsk n.val hold) ∧ RegsBut s t [l.page + 0x020]))) ∧
  (∀ (p : Path) (s : State),
    let k := s.hw.frSel
    let n := s.hw.unitPaddock k
    let a := pgFarrier + Reg.farrier.frCountsA
    let b := pgFarrier + Reg.farrier.frCountsB
    let v := s.hw.fld (pgFarrier + Reg.farrier.frArg) 0 16
    (∀ (i : Instr) (code : Nat), (i = .farrierFence p ∧ code = 1 ∨ i = .retire p ∧ code = 6) → FrOpen s p n [0, 1, 2, 3] → unitOk k = false →
      ∃ t, exec i s = .next t ∧ Outside s t ∧ t.hw = { s.hw with rf := s.words t } ∧ t.hw.reg (pgFarrier + 0x020) = resultWord p code .badArg ∧ RegsBut s t [pgFarrier + 0x020]) ∧
    (FrOpen s p n [0, 1, 2, 3] → unitOk k = true → plainUnit k →
      (∃ t, exec (.farrierFence p) s = .next t ∧ FrDone s t p 1 ∧ t.mem = s.mem ∧ UnitFence t k true) ∧
      (unitWhole k ∉ s.hw.flash.service → ∃ t, exec (.retire p) s = .next t ∧ FrDone s t p 6 ∧ t.mem = s.mem ∧ UnitFence t k true ∧ t.hw.flash.service = s.hw.flash.service ++ [unitWhole k] ∧
        t.hw.retired k = true ∧ t.hw.fld b 0 16 = satAdd 16 (s.hw.fld b 0 16) 1) ∧
      (unitWhole k ∈ s.hw.flash.service → ∃ t, exec (.retire p) s = .next t ∧ FrDone s t p 6 ∧ t.mem = s.mem ∧ t.hw = { s.hw with rf := s.words t })) ∧
    (FrOpen s p n [0] → unitOk k = true →
      (s.hw.unitHalted k = false → ∃ t, exec (.unfence p) s = .next t ∧ FrIllegal s t p 2) ∧
      (s.hw.unitHalted k = true → plainUnit k → ∃ t, exec (.unfence p) s = .next t ∧ FrDone s t p 2 ∧ t.mem = s.mem ∧ UnitFence t k false) ∧
      (s.hw.anyPlan = true → ∃ t, exec (.unretire p) s = .next t ∧ FrIllegal s t p 9) ∧
      (s.hw.anyPlan = false → ∃ t, exec (.unretire p) s = .next t ∧ FrDone s t p 9 ∧ t.mem = s.mem ∧ t.hw = { s.hw with rf := s.words t, flash := t.hw.flash } ∧
        t.hw.flash = { s.hw.flash with service := s.hw.flash.service.filter fun x => decide (x ≠ unitWhole k) }) ∧
      (let f := fieldOf (unitField k)
       let may := f.val ∈ s.hw.outFields ∧ (f.val ∈ s.hw.pw.hotOut ∨ s.hw.fld (pgFieldPower f + Reg.fieldPower.ptFuse) 1 2 = 3) ∧ s.hw.fieldQuiet f = true ∧ s.hw.fieldCool f = true
       (¬ may → ∃ t, exec (.readmitField p) s = .next t ∧ FrIllegal s t p 8) ∧
       (may → ∃ t, exec (.readmitField p) s = .next t ∧ FrDone s t p 8 ∧ t.hw.outFields = s.hw.outFields.erase f.val ∧
         t.hw.bit (pgFarrier + Reg.farrier.frFieldOutLo + 4 * (f.val / 32)) (f.val % 32) = false ∧ ∀ q, memRead t.mem q = if fieldOfPhys q = f.val then 0 else memRead s.mem q))) ∧
    (FrOpen s p n [0, 3] → unitOk k = true →
      let me := unitMe k
      (¬ (s.hw.fencedMe k = true ∧ s.hw.fr.test = none) → ∃ t, exec (.arrayTest p) s = .next t ∧ FrIllegal s t p 3) ∧
      (s.hw.fencedMe k = true → s.hw.fr.test = none → ∃ t, exec (.arrayTest p) s = .next t ∧ FrDone s t p 3 ∧ t.mem = s.mem ∧ t.hw.fr = { s.hw.fr with test := some (me.page, s.hw.clk.now) } ∧
        t.hw.blkState me.page = 4 ∧ t.hw.blkState me.mc.page = 5 ∧ t.hw.blkState pgFarrier = 3) ∧
      (¬ (s.hw.fencedMe k = true ∧ s.hw.softFree me v = true) → ∃ t, exec (.softRepair p) s = .next t ∧ FrIllegal s t p 4) ∧
      (s.hw.fencedMe k = true → s.hw.softFree me v = true → ∃ t, exec (.softRepair p) s = .next t ∧ FrDone s t p 4 ∧ t.mem = s.mem ∧ t.hw.softMap me = softAdd (s.hw.softMap me) v ∧
        t.hw.fld a 16 16 = satAdd 16 (s.hw.fld a 16 16) 1 ∧ t.hw.fld a 0 16 = s.hw.fld a 0 16)) ∧
    (FrOpen s p n [0, 1] → unitOk k = true →
      let m := unitMc k
      let spare := (clSlots m.cl).find? fun x => decide (x ≠ m) && s.hw.isSpare x
      (¬ (unitIsMc k = true ∧ s.hw.unitHalted k = true ∧ s.hw.servedBy m ≠ none ∧ spare ≠ none) → ∃ t, exec (.swapSpare p) s = .next t ∧ FrIllegal s t p 5) ∧
      (∀ l i x, unitIsMc k = true → s.hw.unitHalted k = true → s.hw.servedBy m = some (l, i) → spare = some x →
        ∃ t, exec (.swapSpare p) s = .next t ∧ FrDone s t p 5 ∧ t.hw.mcoreSlot l i = some x ∧ t.hw.fencedPage m.page = true ∧ t.hw.fld a 0 16 = satAdd 16 (s.hw.fld a 0 16) 1)) ∧
    (let pd : Paddock := ⟨s.hw.fld (pgFarrier + Reg.farrier.frArg) 0 2 % 4, Nat.mod_lt _ (by decide)⟩
     FrOpen s p (some pd) [0, 1, 2, 3] → (s.hw.scAt pd).on = true → s.hw.blkState (pgCommit pd) ≠ 7 →
      ∃ t, exec (.requestHold p) s = .next t ∧ FrDone s t p 7 ∧ t.mem = s.mem ∧ t.hw.scAt pd = { s.hw.scAt pd with want := some true } ∧ Emits s t (.abortAsk pd.val true)) ∧
    (let ks := [Reg.farrier.frCountsA, Reg.farrier.frCountsB, Reg.farrier.frTransients, Reg.farrier.frTickMissed]
     FrOpen s p n [0, 1, 2, 3] → ∃ t, exec (.frClearCounters p) s = .next t ∧ FrDone s t p 10 ∧ t.mem = s.mem ∧ t.hw = { s.hw with rf := s.words t } ∧ (∀ o ∈ ks, t.hw.regN (pgFarrier + o) = 0) ∧
       RegsBut s t ([pgFarrier + 0x020, pgFarrier + Reg.farrier.frLastAction, pgFarrier + Reg.farrier.frLastUnit] ++ ks.map (pgFarrier + ·)))) ∧
  (∀ (l : MeLoc) (k : TestResult) (s : State),
    ((s.hw.fr.test = none ∨ ∃ pg at_, s.hw.fr.test = some (pg, at_) ∧ pg ≠ l.page) → exec (.arrayTestDone l k) s = .next s) ∧
    (∀ at_, s.hw.fr.test = some (l.page, at_) → ∃ t, exec (.arrayTestDone l k) s = .next t ∧ Outside s t ∧ t.hw.fr.test = none ∧ at_ + 113778 ≤ t.hw.clk.now ∧
      t.hw.blkState l.page = 3 ∧ t.hw.blkState l.mc.page = 3 ∧ t.hw.bit (l.page + Reg.me.meTestResult) 0 = true ∧ t.hw.bit (l.page + Reg.me.meTestResult) 1 = k.pass ∧
      t.hw.bit (l.page + Reg.me.meTestResult) 2 = k.multi ∧ t.hw.bit (l.page + 0x010) 10 = true ∧ (k.pass = false → unitOfPage l.page ∈ t.hw.fr.todo ∧ t.hw.bit (pgFarrier + 0x010) 9 = true))) ∧
  (∀ (u : UnitSel) (s : State),
    let sel := unitKey u.field.val u.cluster.val u.unit.val u.engine.val
    let st := pgFarrier + Reg.farrier.frStatus
    (∀ a, s.hw.fr.act = some a → (a.unit % 2 ^ 16 ≠ sel ∨ ∃ n : Paddock, n.val ∈ a.pads ∧ s.hw.planRunning n = true) → exec (.farrierMainPath u) s = .next s) ∧
    (s.hw.fr.act = none → (∀ k ∈ s.hw.fr.todo, k % 2 ^ 16 ≠ sel) → exec (.farrierMainPath u) s = .next s) ∧
    (∀ (k : Nat) (n : Paddock), s.hw.fr.act = none → s.hw.fr.todo.find? (fun k => k % 2 ^ 16 = sel) = some k →
      (s.hw.bit (pgFarrier + Reg.farrier.frCfg) 0 = false → unitCluster k ≠ 7 → exec (.farrierMainPath u) s = .next s) ∧
      (s.hw.bit (pgFarrier + Reg.farrier.frCfg) 0 = true → s.hw.affected k = [n] → s.hw.slotState n = 3 → (s.hw.scAt n).on = true → s.hw.blkState (pgCommit n) ≠ 7 →
        ∃ t, exec (.farrierMainPath u) s = .next t ∧ Outside s t ∧ t.hw.fr = { s.hw.fr with todo := s.hw.fr.todo.erase k, act := some ⟨k, s.hw.clk.now, [n.val]⟩ } ∧
          t.hw.bit st 0 = true ∧ t.hw.bit st 2 = false ∧ t.hw.bit st (8 + n.val) = true ∧ t.hw.blkState pgFarrier = 1 ∧ Emits s t (.abortAsk n.val true) ∧
          (t.hw.scAt n).want = some true ∧ RegsBut s t [st, pgFarrier + 0x00C])) ∧
    (∀ a, s.hw.fr.act = some a → a.unit % 2 ^ 16 = sel → a.pads = [] → unitCluster a.unit ≠ 7 →
      (2 ^ 16 ≤ a.unit → ∃ t, exec (.farrierMainPath u) s = .next t ∧ Outside s t ∧ t.hw.fr = { s.hw.fr with act := none } ∧ t.hw.bit st 0 = false ∧ t.hw.bit st 2 = true ∧
        t.hw.bit (pgFarrier + 0x010) 10 = true ∧ RegsBut s t ([st, pgFarrier + 0x00C, pgFarrier + Reg.farrier.frRepairMs] ++ eventRegs pgFarrier)) ∧
      (a.unit < 2 ^ 16 → unitIsMc a.unit = true → unitEngine a.unit = 7 → s.hw.servedBy (unitMc a.unit) = none →
        ∃ t, exec (.farrierMainPath u) s = .next t ∧ Outside s t ∧ t.hw.fr = { s.hw.fr with act := none } ∧ UnitFence t a.unit true ∧ unitWhole a.unit ∈ t.hw.flash.service))) ∧
  (∀ (l : McLoc) (a b : List TestResult) (s : State),
    let k := mcKey l
    let passes := fun (ts : List TestResult) => ∀ e : Fin 4, (ts.getD e.val ⟨false, none, none⟩).pass = true
    ((k ∉ s.hw.fr.retest ∨ s.hw.fr.test ≠ none) → exec (.spareRetest l a b) s = .next s) ∧
    (k ∈ s.hw.fr.retest → s.hw.fr.test = none →
      (passes a → passes b → s.hw.slotFaults l < 2 → ∃ t, exec (.spareRetest l a b) s = .next t ∧ Outside s t ∧ t.hw.fencedPage l.page = false ∧ t.hw.blkState l.page = 4 ∧
        t.hw.fr.retest = s.hw.fr.retest.erase k ∧ t.hw.flash = s.hw.flash) ∧
      ((∃ e : Fin 4, (a.getD e.val ⟨false, none, none⟩).multi = true) → ∃ t, exec (.spareRetest l a b) s = .next t ∧ Outside s t ∧ k ∈ t.hw.flash.service ∧
        t.hw.fr.retest = s.hw.fr.retest.erase k ∧ (k ∉ s.hw.flash.service → t.hw.fencedPage l.page = true))))

/-- FRAME_FLIT, FRAME_OBJ, FRAME_REPLAY_TIMEOUT, CONTEXT_FREE, REMOTE_TIMEOUT, BUNDLE_SEND (R325 to R339). -/
def Obligations.FramesAreSequencedDeliveredAndPassedOn : Prop :=
  (∀ (c : Instr) (k : LinkLoc) (z : Frame), carried c = some (k, z) → ∀ s : State,
    let l := s.hw.opLink k
    let f := k.port
    let freed := fun t => BufferFreed s t k z
    let z' := z.put 96 8 (z.f 96 8 - 1)
    let unreach := pgOptGlobal + Reg.optGlobal.opUnreach
    let transit := pgPort f + Reg.port.opTransit
    (l.up = false → l.state ≠ 4 → exec c s = .next s) ∧
    (l.up = true → z.crcOk = false → ∃ t y, exec c s = .next t ∧ Outside s t ∧ t.hw = { s.hw with opl := t.hw.opl, out := s.hw.out ++ [.frame k y] } ∧ LinkOnly s t k ∧
      t.hw.opLink k = { l with dropping := true, crcErr := satAdd 32 l.crcErr 1 } ∧ y.kind = 0 ∧ y.f 32 1 = 1 ∧ y.f 20 12 = l.rxSeq % 4096 ∧ y.crcOk = true) ∧
    (l.up = true → l.outq = [] → z.crcOk = true → z.f 32 1 = 0 → z.f 8 12 ≠ (l.rxSeq + 1) % 4096 →
      let ahead := (z.f 8 12 + 4096 - l.rxSeq) % 4096 < 2048 ∧ z.f 8 12 ≠ l.rxSeq
      ∃ t, exec c s = .next t ∧ Outside s t ∧ LinkOnly s t k ∧ AckTaken s t k z ∧ t.hw = { s.hw with opl := t.hw.opl, out := t.hw.out } ∧ (t.hw.opLink k).rxSeq = l.rxSeq ∧
        (¬ ahead → t.hw.out = s.hw.out ∧ (t.hw.opLink k).dropping = l.dropping) ∧
        (ahead → (t.hw.opLink k).dropping = true ∧ ∃ y, t.hw.out = s.hw.out ++ [.frame k y] ∧ y.kind = 0 ∧ y.f 32 1 = 1)) ∧
    (FrameNext s k z → z.dst ≠ s.hw.nodeId →
      (∀ g mask k2, z.f 96 8 ≠ 0 → s.hw.routeOf z.dst = some (g, mask) → s.hw.chooseLink g mask = some k2 →
        (g ≠ f → ∃ t, exec c s = .next t ∧ Outside s t ∧ LinkOnly s t k ∧ AckTaken s t k z ∧ freed t ∧ (t.hw.opLink k).rxSeq = z.f 8 12 ∧
          (∃ b ∈ (t.hw.opPort f).bundles, b.dest = g.val ∧ b.ctrl = z.ctrl ∧ z' ∈ b.frames) ∧ (∀ q : Field, q ≠ f → t.hw.opPort q = s.hw.opPort q) ∧
          t.hw.fld transit 0 32 = satAdd 32 (s.hw.fld transit 0 32) 1 ∧ RegsBut s t [transit] ∧ t.hw = { s.hw with rf := s.words t, opl := t.hw.opl, opp := t.hw.opp }) ∧
        (g = f → LinkReady s.hw k2 (z.f 4 3) 1 → (k2 ≠ k ∨ z.f 33 3 ≠ z.f 4 3) →
          ∃ t y, exec c s = .next t ∧ Outside s t ∧ freed t ∧ (t.hw.opLink k).rxSeq = z.f 8 12 ∧ (∀ m : LinkLoc, m ≠ k → m ≠ k2 → t.hw.opLink m = s.hw.opLink m) ∧
            t.hw.fld transit 0 32 = satAdd 32 (s.hw.fld transit 0 32) 1 ∧ RegsBut s t [transit] ∧
            t.hw = { s.hw with rf := s.words t, opl := t.hw.opl, opp := t.hw.opp, out := s.hw.out ++ [.frame k2 y] } ∧
            y.kind = z.kind ∧ y.dst = z.dst ∧ y.src = z.src ∧ y.group = z.group ∧ y.f 96 8 = z.f 96 8 - 1 ∧ y.f 112 77 = z.f 112 77 ∧ y.f 192 32 = z.f 192 32 ∧
            y.payload = z.payload ∧ y.crcOk = true)) ∧
      ((z.f 96 8 = 0 ∨ ∀ g mask, s.hw.routeOf z.dst = some (g, mask) → s.hw.chooseLink g mask = none) → (z.kind ≠ 1 ∨ (z.flit.kind ≠ 1 ∧ z.flit.kind ≠ 2)) →
        ∃ t, exec c s = .next t ∧ Outside s t ∧ LinkOnly s t k ∧ freed t ∧ t.hw.fld unreach 0 32 = satAdd 32 (s.hw.fld unreach 0 32) 1 ∧ RegsBut s t [transit, unreach] ∧
          t.hw = { s.hw with rf := s.words t, opl := t.hw.opl }) ∧
      (z.f 96 8 = 0 → z.kind = 1 → (z.flit.kind = 1 ∨ z.flit.kind = 2) → z.src = s.hw.nodeId →
        ∃ t, exec c s = .next t ∧ Outside s t ∧ freed t ∧ t.hw.fld unreach 0 32 = satAdd 32 (s.hw.fld unreach 0 32) 1 ∧
          t.hw.out = s.hw.out ++ [respSent f z.flit.src z.flit.tag 2 (frameFlits z) (retOff z.flit)]))) ∧
  (∀ (k : LinkLoc) (z : Frame) (s : State),
    let l := s.hw.opLink k
    let f := k.port
    let ok := fun (t : State) => exec (.frameFlit k z) s = .next t ∧ Outside s t ∧ (t.hw.opLink k).rxSeq = z.f 8 12 ∧ (t.hw.opLink k).dropping = false
    let only := fun (t : State) => LinkOnly s t k ∧ AckTaken s t k z
    (z.kind = 0 → (l.up = true ∨ l.state = 4) → l.outq = [] → z.crcOk = true →
      ∃ t, exec (.frameFlit k z) s = .next t ∧ Outside s t ∧ only t ∧ t.hw = { s.hw with opl := t.hw.opl, out := t.hw.out } ∧
        let m := t.hw.opLink k
        t.hw.out = s.hw.out ++ (if z.f 32 1 = 1 then m.replay.map (fun y => Emission.frame k (l.stamp y)) else []) ∧
        m = { l with replay := m.replay, cred := m.cred, ackAt := m.ackAt, replays := if z.f 32 1 = 1 then satAdd 32 l.replays m.replay.length else l.replays }) ∧
    (FrameNext s k z → z.dst = s.hw.nodeId →
      (z.kind = 5 → ∃ t, ok t ∧ only t ∧ BufferFreed s t k z ∧ t.hw = { s.hw with opl := t.hw.opl, out := s.hw.out ++ [.message z.src (z.f 192 8) (sliceD z.payload 0 256 0)] }) ∧
      (z.kind = 1 →
        (z.flit.kind = 1 ∨ z.flit.kind = 2 →
          (∀ i c, s.hw.groupOk z = true → s.hw.ctxFor f z = some (i, c) →
            ∃ t, ok t ∧ only t ∧ BufferFreed s t k z ∧ t.hw = { s.hw with opl := t.hw.opl, opp := t.hw.opp, out := s.hw.out ++ [proxied f z i] } ∧
              Tab.find (t.hw.opPort f).ctxs i = some { c with out := c.out + frameFlits z, last := s.hw.clk.now } ∧
              (∀ j, j ≠ i → Tab.find (t.hw.opPort f).ctxs j = Tab.find (s.hw.opPort f).ctxs j) ∧ (∀ q : Field, q ≠ f → t.hw.opPort q = s.hw.opPort q)) ∧
          (s.hw.groupOk z = true → s.hw.ctxFor f z = none →
            let r := pgPort f + Reg.port.opInbound
            ∃ t, ok t ∧ only t ∧ (t.hw.opLink k).freed = l.freed ∧ (t.hw.opPort f).waiting = (s.hw.opPort f).waiting ++ [z.put 8 12 k.link.val] ∧
              t.hw.fld r 16 16 = satAdd 16 (s.hw.fld r 16 16) 1 ∧ RegsBut s t [r] ∧ t.hw = { s.hw with rf := s.words t, opl := t.hw.opl, opp := t.hw.opp }) ∧
          (∀ mask k2, s.hw.groupOk z = false → z.src ≠ s.hw.nodeId → s.hw.routeOf z.src = some (f, mask) → s.hw.chooseLink f mask = some k2 → LinkReady s.hw k2 0 1 →
            (k2 ≠ k ∨ z.f 33 3 ≠ 0) →
            let r := pgPort f + Reg.port.opReject
            ∃ t y, ok t ∧ BufferFreed s t k z ∧ t.hw.fld r 0 16 = satAdd 16 (s.hw.fld r 0 16) 1 ∧ RegsBut s t [r] ∧
              t.hw = { s.hw with rf := s.words t, opl := t.hw.opl, opp := t.hw.opp, out := s.hw.out ++ [.frame k2 y] } ∧
              FlitFrame s.hw y z.src z.group (respFlit z.flit.dst z.flit.src z.flit.tag 5 (frameFlits z) (retOff z.flit)))) ∧
        (z.flit.kind = 3 ∨ z.flit.kind = 4 →
          let d := z.flit.dst
          let n := if z.flit.kind = 4 then leAt z.flit.data 0 4 else 1
          let tag := if z.flit.kind = 4 then leAt z.flit.data 5 1 % 64 else z.flit.tag
          ∃ t, ok t ∧ only t ∧ BufferFreed s t k z ∧ t.hw = { s.hw with opl := t.hw.opl, opp := t.hw.opp, out := s.hw.out ++ [.flit (.hub f) (RtrLoc.hub f).localPort .a (z.flit.put 0 3 0)] } ∧
            (∀ q : Field, q.val ≠ d % 64 → t.hw.opPort q = s.hw.opPort q) ∧
            (∀ q : Field, q.val = d % 64 → ∀ x ∈ (s.hw.opPort q).streams,
              (x.ep = d → x.tag = tag → n < x.out → { x with out := x.out - n } ∈ (t.hw.opPort q).streams) ∧
              ((x.ep ≠ d ∨ x.tag ≠ tag) → 0 < x.out → x ∈ (t.hw.opPort q).streams))) ∧
        (z.flit.kind = 6 ∨ z.flit.kind = 7 ∨ z.flit.kind = 9 ∨ z.flit.kind = 10 →
          ∃ t, ok t ∧ only t ∧ BufferFreed s t k z ∧ t.hw = { s.hw with opl := t.hw.opl, out := s.hw.out ++ [.flit (.hub f) 6 (kindClass z.flit.kind).1
            (Flit.sealed (((z.flit.put 53 13 (epNum f.val 6 3)).put 66 6 63).put 0 3 (kindClass z.flit.kind).2))] })))) ∧
  (∀ (k : LinkLoc) (z : Frame) (mask : Nat) (k2 : LinkLoc) (s : State),
    let f := k.port
    let op := bitsOf (z.f 192 32) 11 4
    let off := 256 * (z.f 160 29 + (z.f 192 32 % 2 ^ 11) <<< 29)
    let len := leAt z.payload 0 4
    let n := (len + 255) / 256
    let ep := leAt z.payload 16 2 % 2 ^ 13
    let tag := leAt z.payload 18 1 % 64
    let ret := leAt z.payload 28 4
    let group := if op = 3 then z.group else 0
    let rej := pgPort f + Reg.port.opReject
    let answered := fun (st count i : Nat) (t : State) (ys : List Frame) => exec (.frameObj k z) s = .next t ∧ Outside s t ∧ BufferFreed s t k z ∧
      t.hw = { s.hw with rf := s.words t, opl := t.hw.opl, opp := t.hw.opp, out := s.hw.out ++ ys.map fun y => Emission.frame k2 y } ∧ ys.length = i + 1 ∧
      ∃ y, ys[i]? = some y ∧ FlitFrame s.hw y z.src group (respFlit (epNum f.val 6 3) ep tag st count (readMark ret))
    FrameNext s k z → z.kind = 6 → z.dst = s.hw.nodeId → k2.port = f → s.hw.routeOf z.src = some (f, mask) → (∀ i : Fin 8, (bitOf mask i.val = true ∧ (s.hw.opLink ⟨f, i⟩).up = true) ↔ (⟨f, i⟩ : LinkLoc) = k2) →
    (k2 ≠ k ∨ z.f 33 3 ≠ 0) →
    (∀ o a bytes, op = 3 → s.hw.obj (z.f 112 48) = some o → z.group = s.hw.groupId o.own → (bitOf (z.f 192 32) 15 = true → leAt z.payload 4 6 = s.hw.committed o.own) →
      altBytes s.mem o off len = some (a, bytes) → LinkReady s.hw k2 0 (n + 1) →
      ∃ t ys, answered 0 n n t ys ∧ ∀ i, i < n → ∃ y, ys[i]? = some y ∧
        FlitFrame s.hw y z.src group (mkFlit 3 (decide (i + 1 = n)) ep (epNum f.val 6 3) tag (ret + 16 * i) ((bytes.drop (256 * i)).take 256))) ∧
    (LinkReady s.hw k2 0 1 →
      ((op ≠ 3 ∨ s.hw.obj (z.f 112 48) = none ∨ ∃ o, s.hw.obj (z.f 112 48) = some o ∧ z.group ≠ s.hw.groupId o.own) →
        ∃ t ys, answered 5 (if op = 2 then 1 else n) 0 t ys ∧ t.hw.fld rej 0 16 = satAdd 16 (s.hw.fld rej 0 16) 1 ∧ RegsBut s t [rej]) ∧
      (∀ o, op = 3 → s.hw.obj (z.f 112 48) = some o → z.group = s.hw.groupId o.own → bitOf (z.f 192 32) 15 = true → leAt z.payload 4 6 ≠ s.hw.committed o.own →
        ∃ t ys, answered 6 n 0 t ys ∧ t.hw.fld rej 16 16 = satAdd 16 (s.hw.fld rej 16 16) 1 ∧ RegsBut s t [rej]))) ∧
  (∀ (k : LinkLoc) (s : State),
    let l := s.hw.opLink k
    ((l.up = false ∨ l.replay = []) → exec (.frameReplayTimeout k) s = .next s) ∧
    (l.up = true → l.replay ≠ [] → ∃ t, exec (.frameReplayTimeout k) s = .next t ∧ Outside s t ∧ LinkOnly s t k ∧ t.hw.clk.now = max s.hw.clk.now (l.ackAt + 8000) ∧
      t.hw.opLink k = { l with replays := satAdd 32 l.replays l.replay.length, ackAt := t.hw.clk.now } ∧
      t.hw = { s.hw with clk := { s.hw.clk with now := t.hw.clk.now }, opl := t.hw.opl, out := s.hw.out ++ l.replay.map fun y => Emission.frame k (l.stamp y) })) ∧
  (∀ (f : Field) (i : Fin 64) (s : State),
    let p := s.hw.opPort f
    (Tab.find p.ctxs i.val = none → exec (.contextFree f i) s = .next s) ∧
    (∀ c, Tab.find p.ctxs i.val = some c → c.out ≠ 0 → exec (.contextFree f i) s = .next s) ∧
    (∀ c, Tab.find p.ctxs i.val = some c → c.out = 0 →
      (p.waiting = [] → ∃ t, exec (.contextFree f i) s = .next t ∧ Outside s t ∧ t.hw = { s.hw with clk := { s.hw.clk with now := max s.hw.clk.now (c.last + 36) }, opp := t.hw.opp } ∧
        t.hw.opPort f = { p with ctxs := Tab.erase p.ctxs i.val } ∧ ∀ q : Field, q ≠ f → t.hw.opPort q = s.hw.opPort q) ∧
      (∀ z rest, p.waiting = z :: rest → ∃ t j, exec (.contextFree f i) s = .next t ∧ Outside s t ∧ t.hw.clk = { s.hw.clk with now := max s.hw.clk.now (c.last + 36) } ∧
        t.hw = { s.hw with clk := t.hw.clk, opl := t.hw.opl, opp := t.hw.opp, out := t.hw.out } ∧ Emits s t (proxied f z j) ∧ (t.hw.opPort f).waiting.length < p.waiting.length ∧
        ∀ q : Field, q ≠ f → t.hw.opPort q = s.hw.opPort q))) ∧
  (∀ (f : Field) (i : Nat) (s : State),
    let p := s.hw.opPort f
    (p.streams[i]? = none → exec (.remoteTimeout f i) s = .next s) ∧
    (∀ x, p.streams[i]? = some x →
      (x.out = 0 → exec (.remoteTimeout f i) s = .next s) ∧
      (x.out ≠ 0 → ∃ t, exec (.remoteTimeout f i) s = .next t ∧ Outside s t ∧ t.hw.opPort f = { p with streams := p.streams.eraseIdx i } ∧ (∀ q : Field, q ≠ f → t.hw.opPort q = s.hw.opPort q) ∧
        t.hw.clk = { s.hw.clk with now := max s.hw.clk.now (x.last + 1000 * s.hw.fld (pgOptGlobal + Reg.optGlobal.opLimits) 16 16) } ∧
        Emits s t (respSent f x.ep x.tag 2 x.out 0) ∧ t.hw.bit (pgPort f + 0x010) 14 = true ∧ RegsBut s t (eventRegs (pgPort f)) ∧
        t.hw = { s.hw with rf := s.wordsMsix t, clk := t.hw.clk, opp := t.hw.opp, evlog := t.hw.evlog, out := t.hw.out }))) ∧
  (∀ (f g : Field) (b : Bool) (s : State),
    let p := s.hw.opPort f
    let mine := p.bundles.find? fun x => x.dest = g.val && x.ctrl = b
    (mine = none → exec (.bundleSend f g b) s = .next s) ∧
    (∀ x, mine = some x →
      let n := x.frames.length
      let id := p.nextBundle % 2 ^ 24
      ∃ (t : State) (ys : List Flit), exec (.bundleSend f g b) s = .next t ∧ Outside s t ∧ t.hw.opPort f = { p with bundles := p.bundles.erase x, nextBundle := (id + 1) % 2 ^ 24 } ∧
        (∀ q : Field, q ≠ f → t.hw.opPort q = s.hw.opPort q) ∧
        t.hw = { s.hw with clk := { s.hw.clk with now := if 8 ≤ n then s.hw.clk.now else max s.hw.clk.now (x.first + 9) }, opp := t.hw.opp, out := s.hw.out ++ ys.map fun y => Emission.flit (.hub f) 6 .a y } ∧
        ys.length = n + 1 ∧ (∀ y ∈ ys, y.kind = 1 ∧ y.dst = epNum g.val 6 3 ∧ y.src = epNum f.val 6 3 ∧ y.f 0 3 = if b then 3 else 0) ∧
        (∃ y, ys[0]? = some y ∧ y.off = id + 2 ^ 27 ∧ y.payload = sliceD (x.frames.flatMap fun z => leBytes 28 z.head.toNat) 0 256 0) ∧
        (∀ i z, i < 8 → x.frames[i]? = some z → ∃ y, ys[i + 1]? = some y ∧ y.off = id + i * 2 ^ 24 ∧ y.payload = sliceD z.payload 0 256 0)))

/-- The optical links' bring-up, health and registers (R321 to R333, R340, R345, R346, R390). -/
def Obligations.LinksComeUpBeatFailAndGoDown : Prop :=
  (∀ (k : LinkLoc) (s : State),
    let l := s.hw.opLink k
    let alone := fun (t : State) (m : OpLink) => Outside s t ∧ LinkOnly s t k ∧ t.hw.opLink k = m
    (∀ a b,
      (l.up = false → l.state ≠ 4 → exec (.frameDelay k a b) s = .next s) ∧
      ((l.up = true ∨ l.state = 4) → ∃ t, exec (.frameDelay k a b) s = .next t ∧ alone t { l with delay := (a - b) / 2 % 2 ^ 28, delayAt := s.hw.clk.now } ∧ t.hw = { s.hw with opl := t.hw.opl })) ∧
    (l.up = false → exec (.delayMeasure k) s = .next s) ∧
    (l.up = true → ∃ t y, exec (.delayMeasure k) s = .next t ∧ alone t { l with delayAt := t.hw.clk.now } ∧ t.hw.clk = { s.hw.clk with now := max s.hw.clk.now (l.delayAt + 10000000) } ∧
      t.hw = { s.hw with clk := t.hw.clk, opl := t.hw.opl, out := s.hw.out ++ [.frame k y] } ∧ y.kind = 3 ∧ y.dst = l.peerNode % 2 ^ 16 ∧ y.src = s.hw.nodeId ∧ y.crcOk = true) ∧
    (∀ x : PeerId,
      let m := { l with peerNode := x.node.toNat, peerPort := x.port.toNat, peerLink := x.link.toNat, peerBoot := x.boot.toNat, hbAt := s.hw.clk.now }
      let same := x.node.toNat = s.hw.nodeId
      (l.up = false → l.state ≠ 4 → exec (.heartbeat k x) s = .next s) ∧
      ((l.up = true ∨ l.state = 4) →
        (¬ same → ∃ t, exec (.heartbeat k x) s = .next t ∧ alone t m ∧ t.hw = { s.hw with opl := t.hw.opl }) ∧
        (same → ∃ t, exec (.heartbeat k x) s = .next t ∧ LinkFell s t k 7 [] ∧ t.hw.bit (pgPort k.port + 0x010) 13 = true ∧ (t.hw.opLink k).peerNode = s.hw.nodeId)) ∧
      ((s.hw.linkMayRun k = false ∨ l.state = 0 ∨ 4 < l.state) → exec (.linkBringupAdvance k x) s = .next s) ∧
      (s.hw.linkMayRun k = true →
        (l.state = 1 → ∃ t, exec (.linkBringupAdvance k x) s = .next t ∧ alone t { l with state := 2, failed := 0 } ∧ t.hw = { s.hw with opl := t.hw.opl }) ∧
        (l.state = 2 ∨ l.state = 3 → ∃ t, exec (.linkBringupAdvance k x) s = .next t ∧ alone t { l with state := l.state + 1 } ∧ t.hw = { s.hw with opl := t.hw.opl }) ∧
        (l.state = 4 → same → ∃ t, exec (.linkBringupAdvance k x) s = .next t ∧ LinkFell s t k 7 [] ∧ t.hw.bit (pgPort k.port + 0x010) 13 = true) ∧
        (l.state = 4 → ¬ same → ∃ t, exec (.linkBringupAdvance k x) s = .next t ∧ Outside s t ∧ LinkOnly s t k ∧ t.hw.bit (pgPort k.port + 0x010) 8 = true ∧ RegsBut s t (eventRegs (pgPort k.port)) ∧
          t.hw = { s.hw with rf := s.wordsMsix t, opl := t.hw.opl, evlog := t.hw.evlog, out := t.hw.out } ∧
          (s.hw.tb.best = none → t.hw.opLink k = { m with state := 5, rxSeq := 4095, dropping := false, txSeq := 0, replay := [], outq := [], sent := [], cred := [], freed := [], delayAt := s.hw.clk.now }) ∧
          (∀ c, s.hw.tb.best = some c → (t.hw.opLink k).state = 5 ∧ (t.hw.opLink k).rxSeq = 4095 ∧ (t.hw.opLink k).outq = [] ∧
            ∃ y, Emits s t (.frame k y) ∧ y.kind = 5 ∧ y.f 192 32 = 3 ∧ y.f 8 12 = 0 ∧ leAt y.payload 0 1 = c.1 % 256 ∧ leAt y.payload 1 2 = c.2 % 2 ^ 16)))) ∧
    (l.up = false → exec (.heartbeatTimeout k) s = .next s) ∧
    (l.up = true → ∃ t, exec (.heartbeatTimeout k) s = .next t ∧ LinkFell s t k 4 [] ∧
      t.hw.clk = { s.hw.clk with now := max s.hw.clk.now (l.hbAt + 1000 * s.hw.fld (pgPort k.port + Reg.port.opHb) 16 16) }) ∧
    (∀ (b : BitVec 8) (c : Bool),
      let failed := l.failed ||| b.toNat
      let lo := failed % 16 ≠ 0
      let hi := failed / 16 ≠ 0
      let degraded := fun (t : State) (m : OpLink) => alone t m ∧ (l.state = 5 → t.hw.bit (pgPort k.port + 0x010) 10 = true) ∧ RegsBut s t (eventRegs (pgPort k.port)) ∧
        t.hw = { s.hw with rf := s.wordsMsix t, opl := t.hw.opl, evlog := t.hw.evlog, out := t.hw.out }
      ((l.up = false ∨ (failed = 0 ∧ (c = false ∨ l.state = 6))) → ∃ t, exec (.laneFailRetrain k b c) s = .next t ∧ alone t { l with failed := failed } ∧ t.hw = { s.hw with opl := t.hw.opl }) ∧
      (l.up = true → lo → hi → ∃ t, exec (.laneFailRetrain k b c) s = .next t ∧ LinkFell s t k 1 [] ∧ (t.hw.opLink k).failed = failed) ∧
      (l.up = true → ¬ (lo ∧ hi) → failed ≠ 0 → ∃ t, exec (.laneFailRetrain k b c) s = .next t ∧ degraded t { l with failed := failed, state := 6, half := true, upper := decide lo }) ∧
      (l.state = 5 → failed = 0 → c = true → ∃ t, exec (.laneFailRetrain k b c) s = .next t ∧ degraded t { l with failed := 0, state := 6 })) ∧
    (∀ w : LinkDownCause,
      let st := if w = .los then 1 else 3
      let falls := l.up = true ∨ (st < l.state ∧ l.state ≤ 4)
      (¬ falls → exec (.opticalLinkDown k w) s = .next s) ∧
      (falls → ∃ t, exec (.opticalLinkDown k w) s = .next t ∧ LinkFell s t k st []))) ∧
  (∀ (f : Field) (s : State),
    let at_ := max s.hw.clk.now ((s.hw.opPort f).hbSent + 1000 * s.hw.fld (pgPort f + Reg.port.opHb) 0 16)
    ∃ t, exec (.heartbeatSend f) s = .next t ∧ Outside s t ∧ t.hw.clk = { s.hw.clk with now := at_ } ∧ t.hw.opPort f = { s.hw.opPort f with hbSent := at_ } ∧
      (∀ q : Field, q ≠ f → t.hw.opPort q = s.hw.opPort q) ∧ (∀ k : LinkLoc, (k.port ≠ f ∨ (s.hw.opLink k).up = false) → t.hw.opLink k = s.hw.opLink k) ∧
      t.hw = { s.hw with clk := t.hw.clk, opl := t.hw.opl, opp := t.hw.opp, out := t.hw.out } ∧
      ∀ i : Fin 8, LinkReady s.hw ⟨f, i⟩ 3 1 → ∃ y, Emits s t (.frame ⟨f, i⟩ y) ∧ y.kind = 4 ∧ y.crcOk = true ∧
        y.payload = sliceD (leBytes 2 s.hw.nodeId ++ leBytes 1 f.val ++ leBytes 1 i.val ++ leBytes 4 (s.hw.regN (pgOptGlobal + Reg.optGlobal.opBootCount))) 0 256 0) ∧
  (∀ (f : Field) (i : Fin 2) (j : Fin 8) (v : BitVec 16) (s : State),
    let th := s.hw.regN (pgPort f + Reg.port.opLaserThresh)
    let low := v.toInt < signOf 16 (bitsOf th 0 16)
    let los := v.toInt < signOf 16 (bitsOf th 16 16)
    ∃ t, exec (.laserPowerLow f i j v) s = .next t ∧ Outside s t ∧ Tab.get (t.hw.opPort f).laser (8 * i.val + j.val) 0 = v.toNat ∧
      (low → t.hw.bit (pgPort f + 0x010) 11 = true) ∧ (los → t.hw.bit (pgPort f + 0x010) 12 = true) ∧
      (¬ low → ¬ los → t.hw = { s.hw with opp := t.hw.opp }) ∧
      (¬ los → t.hw.opl = s.hw.opl ∧ RegsBut s t (eventRegs (pgPort f)) ∧ t.hw = { s.hw with rf := s.wordsMsix t, opp := t.hw.opp, evlog := t.hw.evlog, out := t.hw.out } ∧
        (∀ q : Field, q ≠ f → t.hw.opPort q = s.hw.opPort q) ∧ t.hw.opPort f = { s.hw.opPort f with laser := (t.hw.opPort f).laser } ∧
        ∀ n, n ≠ 8 * i.val + j.val → Tab.get (t.hw.opPort f).laser n 0 = Tab.get (s.hw.opPort f).laser n 0) ∧
      (los → ∀ k : LinkLoc,
        let l := s.hw.opLink k
        let m := t.hw.opLink k
        let x := l.failed ||| 2 ^ j.val
        let fed := k.port = f ∧ k.link.val / 4 = i.val
        (¬ fed → m.failed = l.failed ∧ m.state = l.state) ∧
        (fed → m.failed = x ∧ (l.up = false → m.state = l.state) ∧ (l.up = true → m.state = if x % 16 ≠ 0 ∧ x / 16 ≠ 0 then 1 else 6)))) ∧
  (∀ (p : Path) (f : Field) (s : State),
    let pg := pgPort f
    let sel : LinkLoc := ⟨f, ⟨s.hw.fld (pg + Reg.port.opSel) 0 3 % 8, Nat.mod_lt _ (by decide)⟩⟩
    let td := s.hw.regN (pg + Reg.port.opTreeData)
    let refused := fun (t : State) (code : Nat) => Outside s t ∧ t.hw.reg (pg + 0x020) = resultWord p code .illegal ∧ t.hw.bit (pg + 0x010) 0 = true ∧ s.hw.Reports t.hw ((pg + 0x020) :: eventRegs pg)
    CmdOpen s p pg [1] →
    (∃ t, exec (.opClearCounters p f) s = .next t ∧ Outside s t ∧ t.hw.reg (pg + 0x020) = resultWord p 1 .ok ∧ t.hw.fld (pg + Reg.port.opInbound) 16 16 = 0 ∧
      t.hw.fld (pg + Reg.port.opInbound) 0 16 = s.hw.fld (pg + Reg.port.opInbound) 0 16 ∧ t.hw.regN (pg + Reg.port.opReject) = 0 ∧ t.hw.regN (pg + Reg.port.opTransit) = 0 ∧
      t.hw.regN (pg + Reg.port.opTbMissed) = 0 ∧ (∀ i : Fin 8, t.hw.opLink ⟨f, i⟩ = { s.hw.opLink ⟨f, i⟩ with crcErr := 0, replays := 0, fecCorr := [], fecUncorr := [] }) ∧
      (∀ k : LinkLoc, k.port ≠ f → t.hw.opLink k = s.hw.opLink k) ∧ t.hw = { s.hw with rf := s.words t, opl := t.hw.opl } ∧
      RegsBut s t [pg + 0x020, pg + Reg.port.opReject, pg + Reg.port.opTransit, pg + Reg.port.opTbMissed, pg + Reg.port.opInbound]) ∧
    (s.hw.linkMayRun sel = true → ∃ t, exec (.retrain p f) s = .next t ∧ LinkFell s t sel 2 [pg + 0x020] ∧ t.hw.reg (pg + 0x020) = resultWord p 2 .ok) ∧
    (s.hw.linkMayRun sel = false → ∃ t, exec (.retrain p f) s = .next t ∧ refused t 2) ∧
    (∀ n : Paddock, n.val = bitsOf td 8 2 →
      (s.hw.planRunning n = true → ∃ t, exec (.writeTree p f) s = .next t ∧ refused t 3) ∧
      (s.hw.planRunning n = false → ∃ t, exec (.writeTree p f) s = .next t ∧ Outside s t ∧ t.hw.reg (pg + 0x020) = resultWord p 3 .ok ∧ RegsBut s t [pg + 0x020] ∧
        t.hw = { s.hw with rf := s.words t, opp := t.hw.opp } ∧ t.hw.opPort f = { s.hw.opPort f with trees := (t.hw.opPort f).trees } ∧ (∀ q : Field, q ≠ f → t.hw.opPort q = s.hw.opPort q) ∧
        ∀ i, Tab.get (t.hw.opPort f).trees i 0 = if i = s.hw.fld (pg + Reg.port.opTreeSel) 0 10 then td % 2 ^ 10 else Tab.get (s.hw.opPort f).trees i 0))) ∧
  (∀ (p : Path) (v : Word) (s : State),
    (WriteOpen s p pgOptGlobal Reg.optGlobal.opNodeId →
      ((∃ k : LinkLoc, (s.hw.opLink k).up = true) → ∃ t, exec (.opNodeIdWrite p v) s = .next t ∧ Outside s t ∧ t.hw.bit (pgOptGlobal + 0x010) 0 = true ∧ s.hw.Reports t.hw (eventRegs pgOptGlobal)) ∧
      ((∀ k : LinkLoc, (s.hw.opLink k).up = false) → ∃ t, exec (.opNodeIdWrite p v) s = .next t ∧ Outside s t ∧ t.hw.nodeId = v.toNat % 2 ^ 16 ∧ t.hw = { s.hw with rf := s.words t, opl := t.hw.opl } ∧
        (∀ k : LinkLoc, (t.hw.opLink k).state = if t.hw.linkMayRun k = true then (if (s.hw.opLink k).state = 0 then 1 else (s.hw.opLink k).state) else 0) ∧
        (∀ f : Field, t.hw.blkState (pgPort f) = if s.hw.blkState (pgPort f) = 0 ∧ s.hw.fld (pgPort f + Reg.port.opLinkEn) 0 8 ≠ 0 ∧ s.hw.blkState pgTimebase ≠ 0 then 1 else s.hw.blkState (pgPort f)) ∧
        RegsBut s t ((pgOptGlobal + Reg.optGlobal.opNodeId) :: (List.finRange 48).map fun f => pgPort f + 0x00C))) ∧
    (WriteOpen s p pgOptGlobal Reg.optGlobal.opRtData → ∃ t, exec (.opRtDataWrite p v) s = .next t ∧ Outside s t ∧ t.hw = { s.hw with routes := t.hw.routes } ∧
      ∀ n, Tab.get t.hw.routes n 0 = if n = s.hw.fld (pgOptGlobal + Reg.optGlobal.opRtSel) 0 12 then v &&& 0x8000FF3F else Tab.get s.hw.routes n 0) ∧
    (∀ f : Field, WriteOpen s p (pgPort f) Reg.port.opLinkEn → ∃ t, exec (.opLinkEnWrite p f v) s = .next t ∧ Outside s t ∧ t.hw.regN (pgPort f + Reg.port.opLinkEn) = v.toNat % 256 ∧
      (∀ k : LinkLoc, k.port = f →
        ((t.hw.opLink k).state = if t.hw.linkMayRun k = true then (if (s.hw.opLink k).state = 0 then 1 else (s.hw.opLink k).state) else 0) ∧
        ((s.hw.opLink k).up = true → t.hw.linkMayRun k = false → t.hw.bit (pgPort f + 0x010) 9 = true ∧ (t.hw.opLink k).replay = [] ∧ (t.hw.opLink k).outq = [])) ∧
      (∀ k : LinkLoc, k.port ≠ f → (t.hw.opLink k).state = (s.hw.opLink k).state) ∧
      ((∀ k : LinkLoc, k.port = f → (s.hw.opLink k).up = true → t.hw.linkMayRun k = true) → (∀ k : LinkLoc, k.port ≠ f → t.hw.opLink k = s.hw.opLink k) ∧
        t.hw = { s.hw with rf := s.words t, opl := t.hw.opl } ∧ RegsBut s t [pgPort f + Reg.port.opLinkEn, pgPort f + 0x00C])))

/-- TIMING_SEND, STRETCH_REQ, TB_REPORT, TB_LOST, TB_TIMING_TIMEOUT, TIMEBASE_SELF_MASTER, ELECT, ELECTION_SETTLE, FRAME_TIMING (R29, R32, R43, R158, R341 to R344, R390). -/
def Obligations.TimebaseSymbolsElectionsAndHoldover : Prop :=
  (∀ s : State,
    let h := s.hw
    let m := max (h.tb.sentTo + 1) (h.stride + 1)
    let at_ := h.predict m
    let due := h.tbRole = 1 ∧ h.blkState pgTimebase = 2 ∧ at_ - h.tbLead ≤ h.clk.tickAt + h.curLen
    (¬ due → exec .timingSend s = .next s) ∧
    (due → ∃ t, exec .timingSend s = .next t ∧ Outside s t ∧ t.hw.clk = { h.clk with now := max h.clk.now (at_ - h.tbLead) } ∧
      t.hw.tb = { h.tb with sentTo := m, lens := Tab.set h.tb.lens m (h.lenOf m) } ∧ t.hw = { h with clk := t.hw.clk, tb := t.hw.tb, opl := t.hw.opl, out := t.hw.out } ∧
      (∀ k : LinkLoc, t.hw.opLink k = h.opLink k) ∧
      ∀ k : LinkLoc, (h.opLink k).up = true → h.tb.up ≠ some k.key →
        TimingOut s t k (timingBytes m (h.lenOf m) (16 * (at_ - t.hw.clk.now)) h.nodeId h.tb.epoch 0 (h.fld (pgOptGlobal + Reg.optGlobal.tbPrio) 0 8) h.tb.pend))) ∧
  (∀ (a : BitVec 48) (s : State),
    let h := s.hw
    let st := h.blkState pgTimebase
    let w := pgTimebase + Reg.timebase.stretchWithheld
    let m := max (h.tb.sentTo + 1) (h.stride + 1)
    (st = 3 → ∃ t, exec (.stretchReq a) s = .next t ∧ Outside s t ∧ t.hw = { h with rf := s.words t } ∧ t.hw.fld w 0 32 = satAdd 32 (h.fld w 0 32) 1 ∧ RegsBut s t [w]) ∧
    (st ≠ 2 → st ≠ 3 → exec (.stretchReq a) s = .next s) ∧
    (st = 2 → h.tbRole = 1 → ∃ t, exec (.stretchReq a) s = .next t ∧ Outside s t ∧ t.hw = { h with tb := { h.tb with stretched := t.hw.tb.stretched } } ∧
      ∀ x, x ∈ t.hw.tb.stretched ↔ x = m ∨ x ∈ h.tb.stretched) ∧
    (st = 2 → h.tbRole ≠ 1 → (a.toNat ∈ h.tb.forwarded ∨ h.masterLink = none) → exec (.stretchReq a) s = .next s) ∧
    (∀ k, st = 2 → h.tbRole ≠ 1 → a.toNat ∉ h.tb.forwarded → h.masterLink = some k → LinkReady h k 3 1 →
      ∃ t, exec (.stretchReq a) s = .next t ∧ Outside s t ∧ LinkOnly s t k ∧ t.hw.tb = { h.tb with forwarded := (a.toNat :: h.tb.forwarded).take 256 } ∧ MsgOut s t k 1 (leBytes 6 a.toNat) ∧
        t.hw = { h with tb := t.hw.tb, opl := t.hw.opl, out := t.hw.out })) ∧
  (∀ (a : Nat) (s : State),
    let h := s.hw
    let lead := pgTimebase + Reg.timebase.timebaseLeadNs
    let m := max h.tb.report a
    (h.tbRole = 1 → ∃ t, exec (.tbReport a) s = .next t ∧ Outside s t ∧ t.hw = { h with rf := s.words t, tb := { h.tb with report := m } } ∧ RegsBut s t [lead] ∧
      t.hw.tbLead = ((m + 1000 + 999) / 1000 * 1000) % 2 ^ 20) ∧
    (h.tbRole ≠ 1 → h.masterLink = none → exec (.tbReport a) s = .next s) ∧
    (∀ k, h.tbRole ≠ 1 → h.masterLink = some k → LinkReady h k 3 1 →
      ∃ t, exec (.tbReport a) s = .next t ∧ Outside s t ∧ LinkOnly s t k ∧ MsgOut s t k 4 (leBytes 4 a) ∧ t.hw = { h with opl := t.hw.opl, out := t.hw.out })) ∧
  (∀ s : State,
    let h := s.hw
    (h.blkState pgTimebase ≠ 2 → exec .tbLost s = .next s) ∧
    (h.blkState pgTimebase = 2 → ∃ t, exec .tbLost s = .next t ∧ HeldOver s t ∧ t.hw.clk = h.clk) ∧
    ((h.tbRole ≠ 2 ∨ h.blkState pgTimebase ≠ 2) → exec .tbTimingTimeout s = .next s) ∧
    (h.tbRole = 2 → h.blkState pgTimebase = 2 →
      (∀ k, h.masterLink = some k → (h.opLink k).up = true → ∃ t, exec .tbTimingTimeout s = .next t ∧ HeldOver s t ∧ t.hw.clk = { h.clk with now := max h.clk.now (h.tb.lastTiming + 2 * h.period) }) ∧
      ((∀ k, h.masterLink = some k → (h.opLink k).up = false) → ∃ t, exec .tbTimingTimeout s = .next t ∧ HeldOver s t ∧ t.hw.clk = h.clk)) ∧
    ((h.tb.stageAt = none ∨ h.blkState pgTimebase ≠ 1 ∨ ∃ k : LinkLoc, (h.opLink k).up = true) → exec .timebaseSelfMaster s = .next s) ∧
    (∀ a, h.tb.stageAt = some a → h.blkState pgTimebase = 1 → (∀ k : LinkLoc, (h.opLink k).up = false) →
      let now := max h.clk.now (a + 10000000000)
      ∃ t, exec .timebaseSelfMaster s = .next t ∧ Outside s t ∧ t.hw.clk = { h.clk with now := now, tickAt := now, ticks := [now] } ∧ t.hw.stride = 0 ∧ t.hw.tbRole = 1 ∧
        t.hw.blkState pgTimebase = 2 ∧ t.hw.bit (pgTimebase + 0x010) 8 = true ∧ t.hw.tb = { h.tb with electing := false, best := h.ownCandidate, sentTo := 0, up := none } ∧
        RegsBut s t ([pgTimebase + Reg.timebase.strideCountLo, pgTimebase + Reg.timebase.strideCountLo + 4, pgTimebase + Reg.timebase.tbRole, pgTimebase + 0x00C] ++ eventRegs pgTimebase) ∧
        t.hw = { h with rf := s.wordsMsix t, clk := t.hw.clk, tb := t.hw.tb, evlog := t.hw.evlog, out := t.hw.out })) ∧
  (∀ (k : ElectMsg) (s : State),
    let h := s.hw
    let c := (k.prio.toNat, k.node.toNat)
    let hops := k.hops + 1
    let delay := k.delay + (h.opLink k.link).delay / 16
    let taken := k.prio.toNat ≠ 0xFF ∧ (h.opLink k.link).up = true
    let better := ∀ b, h.tb.best = some b → c.1 < b.1 ∨ (c.1 = b.1 ∧ c.2 < b.2)
    let kept := fun (t : State) (epoch : Nat) => t.hw.tb.electing = true ∧ t.hw.tb.best = some c ∧ t.hw.tb.heard = [(k.link.key, (hops, delay))] ∧ t.hw.tb.changedAt = h.clk.now ∧
      t.hw.tb.epoch = max epoch k.epoch.toNat
    (¬ taken → exec (.elect k) s = .next s) ∧
    (taken → better → h.tb.electing = true → ∃ t, exec (.elect k) s = .next t ∧ Outside s t ∧ kept t h.tb.epoch ∧ t.hw = { h with tb := { h.tb with best := some c, heard := t.hw.tb.heard, changedAt := h.clk.now, epoch := t.hw.tb.epoch }, opl := t.hw.opl, out := t.hw.out } ∧
      ∀ q : LinkLoc, LinkReady h q 3 1 → (c.2 ≠ h.nodeId → hops < 255 → MsgOut s t q 3 (electBytes c t.hw.tb.epoch hops delay)) ∧ (c.2 = h.nodeId → MsgOut s t q 3 (electBytes c t.hw.tb.epoch 0 0))) ∧
    (taken → better → h.tb.electing = false → ∃ t, exec (.elect k) s = .next t ∧ Outside s t ∧ kept t ((h.tb.epoch + 1) % 2 ^ 16) ∧ t.hw.clk = h.clk ∧
      t.hw.blkState pgTimebase = (if h.blkState pgTimebase = 2 then 3 else h.blkState pgTimebase) ∧ RegsBut s t ((pgTimebase + 0x00C) :: eventRegs pgTimebase) ∧
      t.hw = { h with rf := s.wordsMsix t, tb := t.hw.tb, opl := t.hw.opl, evlog := t.hw.evlog, out := t.hw.out } ∧
      ∀ q : LinkLoc, LinkReady h q 3 3 → MsgOut s t q 2 [] ∧ (c.2 ≠ h.nodeId → hops < 255 → MsgOut s t q 3 (electBytes c t.hw.tb.epoch hops delay))) ∧
    (taken → h.tb.best = some c → h.tb.electing = true → ∃ t, exec (.elect k) s = .next t ∧ Outside s t ∧
      t.hw = { h with tb := { h.tb with heard := Tab.set h.tb.heard k.link.key (hops, delay), epoch := max h.tb.epoch k.epoch.toNat } }) ∧
    (taken → h.tb.best = some c → h.tb.electing = false → exec (.elect k) s = .next s) ∧
    (taken → ¬ better → h.tb.best ≠ some c → h.tb.electing = true → exec (.elect k) s = .next s) ∧
    (∀ b, taken → ¬ better → h.tb.best = some b → b ≠ c → h.tb.electing = false → LinkReady h k.link 3 1 →
      ∃ t, exec (.elect k) s = .next t ∧ Outside s t ∧ LinkOnly s t k.link ∧ t.hw = { h with opl := t.hw.opl, out := t.hw.out } ∧ MsgOut s t k.link 3 (electBytes b h.tb.epoch h.tbPath.1 h.tbPath.2))) ∧
  (∀ s : State,
    let h := s.hw
    let now := max h.clk.now (h.tb.changedAt + 200000)
    let up := fun (x : Nat × Nat × Nat) => ∃ k : LinkLoc, k.key = x.1 ∧ (h.opLink k).up = true
    let regs := [pgTimebase + Reg.timebase.tbRole, pgTimebase + 0x00C, pgOptGlobal + Reg.optGlobal.tbEpoch, pgOptGlobal + Reg.optGlobal.tbPathDelay] ++ eventRegs pgTimebase
    let only := fun (t : State) => Outside s t ∧ RegsBut s t regs ∧ t.hw = { h with rf := s.wordsMsix t, clk := t.hw.clk, tb := t.hw.tb, opl := t.hw.opl, evlog := t.hw.evlog, out := t.hw.out }
    ((h.tb.electing = false ∨ h.blkState pgTimebase = 0) → exec .electionSettle s = .next s) ∧
    (h.tb.electing = true → h.blkState pgTimebase ≠ 0 →
      ((h.tb.best = none ∨ ∃ c, h.tb.best = some c ∧ c.2 ≠ h.nodeId ∧ ∀ x ∈ h.tb.heard, ¬ up x) → ∃ t, exec .electionSettle s = .next t ∧ only t ∧ t.hw.tbRole = 0 ∧ t.hw.clk = { h.clk with now := now } ∧
        t.hw.tb = { h.tb with electing := false, up := none } ∧ t.hw.blkState pgTimebase = h.blkState pgTimebase ∧ t.hw.opl = h.opl) ∧
      (∀ c, h.tb.best = some c → c.2 = h.nodeId →
        let tick := if h.blkState pgTimebase = 1 then now else h.clk.tickAt
        ∃ t, exec .electionSettle s = .next t ∧ only t ∧ t.hw.tbRole = 1 ∧ t.hw.blkState pgTimebase = 2 ∧ t.hw.clk.now = now ∧ t.hw.clk.tickAt = tick ∧ t.hw.opl = h.opl ∧
          t.hw.regN (pgOptGlobal + Reg.optGlobal.tbPathDelay) = 0 ∧ t.hw.regN (pgOptGlobal + Reg.optGlobal.tbEpoch) = h.tb.epoch % 2 ^ 32 ∧
          (h.blkState pgTimebase ≠ 2 → t.hw.bit (pgTimebase + 0x010) 8 = true) ∧
          t.hw.tb = { h.tb with electing := false, due := [], slewing := false, up := none, sentTo := h.stride + (now + h.tbLead - tick) / max 1 h.period }) ∧
      (∀ c x, h.tb.best = some c → c.2 ≠ h.nodeId → x ∈ h.tb.heard → up x →
        (∀ y ∈ h.tb.heard, up y → x.2.1 < y.2.1 ∨ (x.2.1 = y.2.1 ∧ (x.2.2 < y.2.2 ∨ (x.2.2 = y.2.2 ∧ x.1 ≤ y.1)))) →
        ∃ t, ∃ k : LinkLoc, exec .electionSettle s = .next t ∧ only t ∧ k.key = x.1 ∧ LinkOnly s t k ∧ t.hw.clk = { h.clk with now := now } ∧
          t.hw.regN (pgTimebase + Reg.timebase.tbRole) = 2 + k.port.val * 2 ^ 8 + 2 ^ 31 ∧ t.hw.blkState pgTimebase = h.blkState pgTimebase ∧
          t.hw.tb = { h.tb with electing := false, lastTiming := now, up := some k.key } ∧ t.hw.regN (pgOptGlobal + Reg.optGlobal.tbPathDelay) = x.2.2 % 2 ^ 24 ∧
          t.hw.regN (pgOptGlobal + Reg.optGlobal.tbEpoch) = (h.tb.epoch + x.2.1 % 256 * 2 ^ 16) % 2 ^ 32 ∧ (LinkReady h k 3 1 → MsgOut s t k 4 (leBytes 4 x.2.2))))) ∧
  (∀ (k : LinkLoc) (z : Frame) (s : State),
    let h := s.hw
    let b := z.payload
    let m := leAt b 0 6
    let len := leAt b 6 3
    let fire := (16 * h.clk.now + leAt b 12 4 - (h.opLink k).delay) / 16
    let st := h.blkState pgTimebase
    let p := h.predict m
    let far := p + h.period / 2 < fire ∨ fire + h.period / 2 < p ∨ m ≤ h.stride
    let mine := h.tbRole = 2 ∧ h.tb.up = some k.key ∧ st ≠ 0
    ((h.opLink k).up = false → (h.opLink k).state ≠ 4 → exec (.frameTiming k z) s = .next s) ∧
    ((h.opLink k).up = true → (h.opLink k).outq = [] → z.crcOk = true → z.kind = 2 → z.f 32 1 = 0 →
      (¬ mine → ∃ t, exec (.frameTiming k z) s = .next t ∧ Outside s t ∧ LinkOnly s t k ∧ AckTaken s t k z ∧ t.hw = { h with opl := t.hw.opl }) ∧
      (mine → st = 3 → far → h.anyPlan = true → ∃ t, exec (.frameTiming k z) s = .next t ∧ Outside s t ∧ LinkOnly s t k ∧ AckTaken s t k z ∧ t.hw.bit (pgTimebase + 0x010) 13 = true ∧
        RegsBut s t (eventRegs pgTimebase) ∧ t.hw = { h with rf := s.wordsMsix t, opl := t.hw.opl, tb := { h.tb with lastTiming := h.clk.now }, evlog := t.hw.evlog, out := t.hw.out }) ∧
      (mine → ¬ (st = 3 ∧ far ∧ h.anyPlan = true) →
        let adopt := st = 1 ∨ (st = 3 ∧ far)
        let slew := ¬ adopt ∧ (st = 3 ∨ h.tb.slewing = true) ∧ (p + 1 < fire ∨ fire + 1 < p)
        let due := if slew then (if p < fire then p + 1 else p - 1) else fire
        let pend := if leAt b 24 4 = 0 then h.tb.pend else some (leAt b 24 4, leAt b 28 4, leAt b 32 6)
        ∃ t, exec (.frameTiming k z) s = .next t ∧ Outside s t ∧ LinkOnly s t k ∧ AckTaken s t k z ∧ t.hw.blkState pgTimebase = 2 ∧ (st ≠ 2 → t.hw.bit (pgTimebase + 0x010) 8 = true) ∧
          t.hw.clk = (if adopt then { h.clk with tickAt := h.clk.now } else h.clk) ∧ (adopt → t.hw.stride = (m + 2 ^ 48 - 1) % 2 ^ 48) ∧ (¬ adopt → t.hw.stride = h.stride) ∧
          t.hw.tb = { h.tb with lastTiming := h.clk.now, slewing := decide slew, due := Tab.set (if adopt then [] else h.tb.due) m due, lens := Tab.set (if adopt then [] else h.tb.lens) m len, epoch := leAt b 18 2, pend := pend } ∧
          t.hw.regN (pgOptGlobal + Reg.optGlobal.tbEpoch) = leAt b 18 2 + (leAt b 20 1 + 1) % 256 * 2 ^ 16 ∧
          RegsBut s t ([pgTimebase + Reg.timebase.strideCountLo, pgTimebase + Reg.timebase.strideCountLo + 4, pgTimebase + 0x00C, pgOptGlobal + Reg.optGlobal.tbEpoch] ++ eventRegs pgTimebase) ∧
          t.hw = { h with rf := s.wordsMsix t, clk := t.hw.clk, opl := t.hw.opl, tb := t.hw.tb, evlog := t.hw.evlog, out := t.hw.out } ∧
          (∀ q : LinkLoc, (h.opLink q).up = true → q ≠ k → TimingOut s t q (timingBytes m len (16 * (due - h.clk.now)) (leAt b 16 2) (leAt b 18 2) (leAt b 20 1 + 1) (leAt b 21 1) pend)) ∧
          (∀ f, h.tickRoot = some f → Emits s t (.flit (.hub f) (RtrLoc.hub f).localPort .a
            ((mkFlit 8 true (epNum f.val 6 15) (epNum f.val 6 15) 0 0 (leBytes 6 m ++ leBytes 3 len ++ leBytes 8 due)).put 0 3 3))))))

/-- The hosts' commands and the ports' events (R349 to R367, R434). -/
def Obligations.HostsUseAperturesLeasesSlotsAndPorts : Prop :=
  (∀ (p : HostId) (a : BitVec 36) (x : MeshStatus) (s : State),
    let pg := pgHostPort p
    let c := pg + Reg.hostPort.hpApFault
    let faulted := fun (t : State) (lo : Nat) => t.hw.fld c lo 16 = satAdd 16 (s.hw.fld c lo 16) 1 ∧ t.hw.bit (pg + 0x010) 11 = true
    let only := fun (t : State) => Outside s t ∧ t.hw = { s.hw with rf := s.wordsMsix t, evlog := t.hw.evlog, out := t.hw.out }
    let few := fun (t : State) => RegsBut s t (c :: eventRegs pg)
    (∀ n,
      let ones := List.replicate n (255 : Byte)
      (s.hw.apTarget p a.toNat = none → ∃ t, exec (.apertureRead p a n x) s = .next t ∧ only t ∧ few t ∧ faulted t 0 ∧ Emits s t (.readData (hostPath p) ones)) ∧
      (∀ ap da room, s.hw.apTarget p a.toNat = some (ap, da, room) →
        let k := min room n
        (k ≠ 0 → x = .failed → ∃ t, exec (.apertureRead p a n x) s = .next t ∧ only t ∧ few t ∧ faulted t 16 ∧ (room < n → faulted t 0) ∧ Emits s t (.readData (hostPath p) ones)) ∧
        ((k = 0 ∨ x ≠ .failed) → ∃ t, exec (.apertureRead p a n x) s = .next t ∧ only t ∧ (room < n → faulted t 0) ∧ (n ≤ room → t.hw.fld c 0 16 = s.hw.fld c 0 16 ∧ t.hw.evlog = s.hw.evlog) ∧
          Emits s t (.readData (hostPath p) (memBytes s.mem da k ++ List.replicate (n - k) 255))))) ∧
    (∀ d : List Byte,
      ((s.hw.apTarget p a.toNat = none ∨ ∃ ap da room, s.hw.apTarget p a.toNat = some (ap, da, room) ∧ ap.write = false) →
        ∃ t, exec (.apertureWrite p a d x) s = .next t ∧ only t ∧ few t ∧ faulted t 0) ∧
      (∀ ap da room, s.hw.apTarget p a.toNat = some (ap, da, room) → ap.write = true →
        (room ≠ 0 → x = .failed → ∃ t, exec (.apertureWrite p a d x) s = .next t ∧ only t ∧ few t ∧ faulted t 16 ∧ (room < d.length → faulted t 0)) ∧
        ((room = 0 ∨ x ≠ .failed) → ∃ t, exec (.apertureWrite p a d x) s = .next t ∧ t.fuses = s.fuses ∧ t.pending = s.pending ∧ t.mem = memPut s.mem da (d.take room) ∧
          (room < d.length → faulted t 0) ∧ t.hw = { s.hw with rf := s.wordsMsix t, nw := t.hw.nw, uc := t.hw.uc, evlog := t.hw.evlog, out := t.hw.out })))) ∧
  (∀ (p : Path) (x : HostId) (v : Word) (s : State), WriteOpen s p (pgHostPort x) Reg.hostPort.hpFieldWin →
    let f := v.toNat % 64
    let r := pgHostPort x + Reg.hostPort.hpFieldWin
    ((f < 48 ∨ f = 0x3E) → ∃ t, exec (.hpFieldWinWrite p x v) s = .next t ∧ Outside s t ∧ t.hw.regN r = f ∧ t.hw = { s.hw with rf := s.words t } ∧ RegsBut s t [r]) ∧
    (48 ≤ f → f ≠ 0x3E → exec (.hpFieldWinWrite p x v) s = .next s)) ∧
  (∀ (p : Path) (x : HostId) (s : State),
    let pg := pgHostPort x
    let cfg := s.hw.regN (pg + Reg.hostPort.hpApCfg)
    let sel := s.hw.fld (pg + Reg.hostPort.hpApSel) 0 4
    let arg := s.hw.regN (pg + Reg.hostPort.hpArg)
    CmdOpen s p pg [2] →
    (s.hw.ready = false → (∃ t, exec (.bindAp p x) s = .next t ∧ HostRefused s t p pg 1 .illegal) ∧ ∃ t, exec (.assignChannel p x) s = .next t ∧ HostRefused s t p pg 3 .illegal) ∧
    (s.hw.ready = true →
      (Tab.find s.hw.hp.binding x.val ≠ none → ∃ t, exec (.bindAp p x) s = .next t ∧ HostRefused s t p pg 1 .busy) ∧
      (Tab.find s.hw.hp.binding x.val = none → ∃ t, exec (.bindAp p x) s = .next t ∧ Outside s t ∧ HostResult t p pg 1 .busy ∧ RegsBut s t [pg + 0x020] ∧
        t.hw = { s.hw with rf := s.wordsHost t, hp := { s.hw.hp with binding := t.hw.hp.binding } } ∧ Tab.find t.hw.hp.binding (otherPort x).val = Tab.find s.hw.hp.binding (otherPort x).val ∧
        Tab.find t.hw.hp.binding x.val = some (sel, p.code, { handle := s.hw.reg64 (pg + Reg.hostPort.hpApHandleLo) % 2 ^ 48, tier := bitsOf cfg 0 1, write := bitOf cfg 1, pad := bitsOf cfg 2 2, offset := s.hw.reg64 (pg + Reg.hostPort.hpApOffsetLo) })) ∧
      (s.hw.holds x (bitsOf arg 4 2) = false → ∃ t, exec (.assignChannel p x) s = .next t ∧ HostRefused s t p pg 3 .badArg) ∧
      (∀ c : Fin 8, c.val = arg % 8 → s.hw.holds x (bitsOf arg 4 2) = true →
        let m := MvLoc.host x c
        (s.hw.blkState m.page ≠ 0 → ∃ t, exec (.assignChannel p x) s = .next t ∧ HostRefused s t p pg 3 .illegal) ∧
        (s.hw.blkState m.page = 0 → ∃ t, exec (.assignChannel p x) s = .next t ∧ Outside s t ∧ HostResult t p pg 3 .ok ∧ t.hw.fld (m.page + Reg.mover.mvrCtrl) 4 2 = bitsOf arg 4 2 ∧
          (t.hw.mvPaddock m).map (·.val) = some (bitsOf arg 4 2) ∧ t.hw = { s.hw with rf := s.wordsHost t } ∧ RegsBut s t [pg + 0x020, m.page + Reg.mover.mvrCtrl]))) ∧
    (Tab.sorted s.hw.hp.aps = true → ∃ t, exec (.unbindAp p x) s = .next t ∧ Outside s t ∧ HostResult t p pg 2 .ok ∧ RegsBut s t [pg + 0x020] ∧
      (∀ k, Tab.find t.hw.hp.aps k = if k = apKey x sel then none else Tab.find s.hw.hp.aps k) ∧ t.hw = { s.hw with rf := s.wordsHost t, objs := t.hw.objs, hp := { s.hw.hp with aps := t.hw.hp.aps } } ∧
      ∀ d, t.hw.obj d = match Tab.find s.hw.hp.aps (apKey x sel) with
        | some ap => if d = ap.handle then (s.hw.obj d).map fun o => { o with pins := o.pins - 1 } else s.hw.obj d
        | none => s.hw.obj d)) ∧
  (∀ (x : HostId) (s : State),
    let pg := pgHostPort x
    (Tab.find s.hw.hp.binding x.val = none → exec (.bindApDone x) s = .next s) ∧
    (∀ w code ap, Tab.find s.hw.hp.binding x.val = some (w, code, ap) →
      let p := pathOf code
      let ends := fun (t : State) (r : CmdRes) => exec (.bindApDone x) s = .next t ∧ Outside s t ∧ HostResult t p pg 1 r ∧ Tab.find t.hw.hp.binding x.val = none ∧
        RegsBut s t ((pg + 0x020) :: eventRegs pg) ∧ t.hw = { s.hw with rf := s.wordsHost t, objs := t.hw.objs, hp := { s.hw.hp with binding := t.hw.hp.binding, aps := t.hw.hp.aps }, evlog := t.hw.evlog, out := t.hw.out }
      let not := fun (r : CmdRes) => ∃ t, ends t r ∧ t.hw.objs = s.hw.objs ∧ t.hw.hp.aps = s.hw.hp.aps ∧ (r = .illegal → t.hw.bit (pg + 0x010) 0 = true)
      (s.hw.obj ap.handle = none → not .badArg) ∧
      (∀ o, s.hw.obj ap.handle = some o →
        let bad := s.hw.holds x ap.pad = false ∨ (o.owner ≠ ap.pad ∧ bitOf o.share ap.pad = false) ∨ (ap.write = true ∧ (o.owner ≠ ap.pad ∨ o.cls = 3 ∨ o.comp = true)) ∨ ap.offset % 65536 ≠ 0
        let illegal := Tab.find s.hw.hp.aps (apKey x w) ≠ none ∨ (ap.tier = 0 ∧ o.inT0 = false) ∨ (ap.tier ≠ 0 ∧ o.inT1 = false) ∨ o.state.resident = false
        let limit := 255 ≤ o.pins ∨ o.size ≤ ap.offset
        (bad → not .badArg) ∧ (¬ bad → illegal → not .illegal) ∧ (¬ bad → ¬ illegal → limit → not .limit) ∧
        (¬ bad → ¬ illegal → ¬ limit → ∃ t, ends t .ok ∧ Tab.find t.hw.hp.aps (apKey x w) = some ap ∧ (∀ k, k ≠ apKey x w → Tab.find t.hw.hp.aps k = Tab.find s.hw.hp.aps k) ∧
          t.hw.obj ap.handle = some { o with pins := o.pins + 1 } ∧ ∀ d, d ≠ ap.handle → t.hw.obj d = s.hw.obj d)))) ∧
  (∀ (p : Path) (x : HostId) (s : State), LeaseOpen s p x →
    let idx := s.hw.hpArgG p
    let run := fun (t : State) (i : Fin 5) => Tab.find t.hw.hp.leases i.val = some ⟨s.hw.clk.now, s.hw.leasePeriod⟩ ∧ t.hw.bit (leaseReg i.val) 2 = false ∧ t.hw.holder i.val = x.val + 1 ∧
      (∀ j, j ≠ i.val → Tab.find t.hw.hp.leases j = Tab.find s.hw.hp.leases j) ∧ RegsBut s t ([leaseReg i.val, pgHostGlobal + 0x020] ++ eventRegs pgHostGlobal) ∧
      t.hw = { s.hw with rf := s.wordsHost t, hp := { s.hw.hp with leases := t.hw.hp.leases }, evlog := t.hw.evlog, out := t.hw.out }
    (5 ≤ idx → (∃ t, exec (.claim p) s = .next t ∧ HostRefused s t p pgHostGlobal 1 .badArg) ∧ (∃ t, exec (.renew p) s = .next t ∧ HostRefused s t p pgHostGlobal 2 .badArg) ∧
      ∃ t, exec (.release p) s = .next t ∧ HostRefused s t p pgHostGlobal 3 .badArg) ∧
    (∀ i : Fin 5, i.val = idx →
      (s.hw.holds (otherPort x) i.val = true → ∃ t, exec (.claim p) s = .next t ∧ HostRefused s t p pgHostGlobal 1 .illegal) ∧
      (s.hw.holds x i.val = true → (∃ t, exec (.claim p) s = .next t ∧ Outside s t ∧ HostResult t p pgHostGlobal 1 .ok ∧ run t i ∧ t.hw.out = s.hw.out) ∧
        (∃ t, exec (.renew p) s = .next t ∧ Outside s t ∧ HostResult t p pgHostGlobal 2 .ok ∧ run t i ∧ t.hw.out = s.hw.out) ∧
        ∃ t, exec (.release p) s = .next t ∧ HostResult t p pgHostGlobal 3 .ok ∧ LeaseEnded s t i x false) ∧
      (s.hw.holder i.val = 0 → ∃ t, exec (.claim p) s = .next t ∧ Outside s t ∧ HostResult t p pgHostGlobal 1 .ok ∧ run t i ∧ t.hw.bit (pgHostGlobal + 0x010) 8 = true ∧ (∀ y : HostId, Notified s t y 5) ∧
        ∀ n : Paddock, n.val = i.val → s.hw.slotState n ≠ 0 → Notified s t x (8 + 4 * n.val)) ∧
      (s.hw.holds x i.val = false → (∃ t, exec (.renew p) s = .next t ∧ HostRefused s t p pgHostGlobal 2 .illegal) ∧ ∃ t, exec (.release p) s = .next t ∧ HostRefused s t p pgHostGlobal 3 .illegal))) ∧
  (∀ (i : Fin 5) (s : State),
    ((Tab.find s.hw.hp.leases i.val = none ∨ s.hw.bit (leaseReg i.val) 2 = true) → exec (.leaseWarn i) s = .next s) ∧
    ((Tab.find s.hw.hp.leases i.val = none ∨ s.hw.holderHost i.val = []) → exec (.leaseExpire i) s = .next s) ∧
    (∀ l, Tab.find s.hw.hp.leases i.val = some l →
      (s.hw.bit (leaseReg i.val) 2 = false → ∃ t, exec (.leaseWarn i) s = .next t ∧ Outside s t ∧ t.hw.clk = { s.hw.clk with now := max s.hw.clk.now (l.at_ + l.period * 3 / 4) } ∧ t.hw.bit (leaseReg i.val) 2 = true ∧
        t.hw.holder i.val = s.hw.holder i.val ∧ RegsBut s t (leaseReg i.val :: eventRegs pgHostGlobal) ∧ t.hw = { s.hw with rf := s.wordsMsix t, clk := t.hw.clk, out := t.hw.out } ∧
        ∀ x : HostId, i.val < 4 → s.hw.holds x i.val = true → Notified s t x (10 + 4 * i.val)) ∧
      (∀ x : HostId, s.hw.holds x i.val = true → ∃ t, exec (.leaseExpire i) s = .next t ∧ LeaseEnded s t i x true ∧ t.hw.clk = { s.hw.clk with now := max s.hw.clk.now (l.at_ + l.period + 1) }))) ∧
  (∀ (p : Path) (n : Paddock) (s : State), SlotOpen s p n →
    let pg := pgHostGlobal
    let st := s.hw.slotState n
    let off := s.hw.regN (psReg n Reg.hostGlobal.ps0Offset)
    let k := psReg n Reg.hostGlobal.ps0Status
    (st ≠ 0 → st ≠ 4 → ∃ t, exec (.submit p) s = .next t ∧ HostRefused s t p pg 0x10 .illegal) ∧
    (st = 0 ∨ st = 4 →
      (s.hw.ready = false → ∃ t, exec (.submit p) s = .next t ∧ HostRefused s t p pg 0x10 .illegal) ∧
      (s.hw.ready = true → off % 256 ≠ 0 → ∃ t, exec (.submit p) s = .next t ∧ HostRefused s t p pg 0x10 .badArg) ∧
      (s.hw.ready = true → off % 256 = 0 → Tab.find s.hw.hp.submit n.val ≠ none → ∃ t, exec (.submit p) s = .next t ∧ HostRefused s t p pg 0x10 .busy) ∧
      (s.hw.ready = true → off % 256 = 0 → Tab.find s.hw.hp.submit n.val = none → ∃ t, exec (.submit p) s = .next t ∧ Outside s t ∧ HostResult t p pg 0x10 .busy ∧ RegsBut s t [pg + 0x020] ∧
        Tab.find t.hw.hp.submit n.val = some ⟨p.code, s.hw.reg64 (psReg n Reg.hostGlobal.ps0HandleLo) % 2 ^ 48, off⟩ ∧ (∀ j, j ≠ n.val → Tab.find t.hw.hp.submit j = Tab.find s.hw.hp.submit j) ∧
        t.hw = { s.hw with rf := s.wordsHost t, hp := { s.hw.hp with submit := t.hw.hp.submit } })) ∧
    (st ≠ 1 → ∃ t, exec (.withdraw p) s = .next t ∧ HostRefused s t p pg 0x11 .illegal) ∧
    (st = 1 → (∃ t, exec (.withdraw p) s = .next t ∧ HostResult t p pg 0x11 .ok ∧ Outside s t ∧ t.hw.slotState n = 0 ∧ t.hw.fld k 4 4 = 0 ∧ t.hw.pad n = PadState.empty ∧
        RegsBut s t ([k, pg + 0x020] ++ eventRegs pg) ∧ t.hw = { s.hw with rf := s.wordsHost t, objs := t.hw.objs, pads := t.hw.pads, evlog := t.hw.evlog, out := t.hw.out } ∧
        ∀ (d : Nat) (o : Obj), (s.hw.pad n).pinned = [d] → s.hw.obj d = some o → t.hw.obj d = some { o with pins := o.pins - 1 }) ∧
      ∃ t, exec (.psStop p) s = .next t ∧ HostResult t p pg 0x12 .ok ∧ Outside s t ∧ t.hw.slotState n = 0 ∧ t.hw.fld k 4 4 = 0 ∧ t.hw.pad n = PadState.empty) ∧
    (st ≠ 1 → st ≠ 3 → st ≠ 4 → ∃ t, exec (.psStop p) s = .next t ∧ HostRefused s t p pg 0x12 .illegal) ∧
    (st = 3 → ∃ t, exec (.psStop p) s = .next t ∧ HostResult t p pg 0x12 .ok ∧ Outside s t ∧ t.hw.slotState n = 5 ∧ t.hw.bit (pg + 0x010) 9 = true ∧ RegsBut s t ([k, pg + 0x020] ++ eventRegs pg) ∧
      t.hw = { s.hw with rf := s.wordsHost t, evlog := t.hw.evlog, out := t.hw.out }) ∧
    (st = 4 → ∃ t, exec (.psStop p) s = .next t ∧ HostResult t p pg 0x12 .ok ∧ Outside s t ∧ t.hw.slotState n = 0 ∧ t.hw.fld k 4 4 = 12 ∧ t.hw.pad n = PadState.empty ∧ t.hw.bit (pg + 0x010) 9 = true)) ∧
  (∀ (n : Paddock) (s : State),
    let pg := pgHostGlobal
    let st := s.hw.slotState n
    let seq := psReg n Reg.hostGlobal.ps0Seq
    (Tab.find s.hw.hp.submit n.val = none → exec (.submitDone n) s = .next s) ∧
    (∀ x, Tab.find s.hw.hp.submit n.val = some x →
      let p := pathOf x.path
      let not := fun (r : CmdRes) => ∃ t, exec (.submitDone n) s = .next t ∧ Outside s t ∧ HostResult t p pg 0x10 r ∧ Tab.find t.hw.hp.submit n.val = none ∧ t.hw.slotState n = st ∧
        RegsBut s t ((pg + 0x020) :: eventRegs pg) ∧ t.hw = { s.hw with rf := s.wordsHost t, hp := { s.hw.hp with submit := t.hw.hp.submit }, evlog := t.hw.evlog, out := t.hw.out }
      (st ≠ 0 → st ≠ 4 → not .illegal) ∧
      (st = 0 ∨ st = 4 → (s.hw.obj x.handle = none → not .badArg) ∧
        ∀ o, s.hw.obj x.handle = some o →
          (255 ≤ o.pins → not .limit) ∧
          (o.pins < 255 → ∃ t, exec (.submitDone n) s = .next t ∧ Outside s t ∧ HostResult t p pg 0x10 .ok ∧ Tab.find t.hw.hp.submit n.val = none ∧ t.hw.slotState n = 1 ∧
            Tab.find t.hw.hp.image n.val = some (x.handle, x.offset) ∧ (t.hw.pad n).pinned = [x.handle] ∧ (t.hw.pad n).pendAt = s.hw.stride ∧ t.hw.bit (pg + 0x010) 9 = true ∧
            t.hw.fld seq 0 16 = (s.hw.fld seq 0 16 + 1) % 2 ^ 16 ∧
            (st = 0 → t.hw.obj x.handle = some { o with pins := o.pins + 1 } ∧ (∀ d, d ≠ x.handle → t.hw.obj d = s.hw.obj d) ∧ RegsBut s t ([psReg n Reg.hostGlobal.ps0Status, seq, pg + 0x020] ++ eventRegs pg)))))) ∧
  (∀ (x : HostId) (s : State),
    let pg := pgHostPort x
    let lk := pg + Reg.hostPort.hpLink
    let peer := pgHostPort (otherPort x) + Reg.hostPort.hpPeer
    let st := s.hw.blkState pg
    (s.hw.bit lk 11 = true → exec (.perstAssert x) s = .next s) ∧
    (s.hw.bit lk 11 = false → ∃ t, exec (.perstAssert x) s = .next t ∧ Outside s t ∧ HostGone s t x ∧ t.hw.regN lk = 2 ^ 11 ∧ t.hw.blkState pg = 0 ∧ PeerShown s t x 2 ∧
      (∀ o, o < 2 ^ 20 → Tab.find t.hw.rf.msix (msixKey x o) = none) ∧
      ∀ m ∈ hostChannels x, ((t.hw.mvAt m).shadow ≠ none → (t.hw.mvAt m).active ≠ none ∧ (t.hw.mvAt m).shadowEnd ≠ none) ∧ ∀ a, (t.hw.mvAt m).active = some a → a.ending ≠ none ∧ (dSrcHost a.desc = true → a.reads = [])) ∧
    (∀ b,
      (st ≠ 0 → exec (.perstDeassert x b) s = .next s) ∧
      (st = 0 → ∃ t, exec (.perstDeassert x b) s = .next t ∧ Outside s t ∧ t.hw.regN lk = 0 ∧ t.hw.blkState pg = 1 ∧ PeerShown s t x 0 ∧ Tab.find t.hw.hp.common x.val = some b ∧
        Tab.find t.hw.hp.common (otherPort x).val = Tab.find s.hw.hp.common (otherPort x).val ∧ RegsBut s t ([lk, pg + 0x00C, peer] ++ eventRegs pg) ∧
        t.hw = { s.hw with rf := s.wordsMsix t, hp := { s.hw.hp with common := t.hw.hp.common }, out := t.hw.out })) ∧
    (∀ k : PcieLink,
      let below := k.rate.toNat < 5 ∨ k.width.toNat < 8
      (st ≠ 1 → exec (.dlUp x k) s = .next s) ∧
      (st = 1 → ∃ t, exec (.dlUp x k) s = .next t ∧ Outside s t ∧ t.hw.blkState pg = 2 ∧ t.hw.fld lk 0 3 = k.rate.toNat ∧ t.hw.fld lk 3 5 = k.width.toNat ∧ t.hw.bit lk 8 = true ∧ t.hw.bit lk 9 = k.flit ∧
        t.hw.bit lk 10 = decide below ∧ t.hw.bit lk 11 = false ∧ t.hw.bit (pg + 0x010) 8 = true ∧ (below → t.hw.bit (pg + 0x010) 10 = true) ∧ PeerShown s t x 1 ∧
        RegsBut s t ([lk, pg + 0x00C, peer] ++ eventRegs pg) ∧ t.hw = { s.hw with rf := s.wordsMsix t, evlog := t.hw.evlog, out := t.hw.out })) ∧
    (st ≠ 2 → exec (.dlDown x) s = .next s) ∧
    (st = 2 → ∃ t, exec (.dlDown x) s = .next t ∧ Outside s t ∧ HostGone s t x ∧ t.hw.regN lk = 0 ∧ t.hw.blkState pg = 1 ∧ t.hw.bit (pg + 0x010) 9 = true ∧ PeerShown s t x 0 ∧
      ∀ m ∈ hostChannels x, ∀ a, (s.hw.mvAt m).active = some a → (dSrcHost a.desc = true ∨ dDstHost a.desc = true) →
        ∃ b, (t.hw.mvAt m).active = some b ∧ b.status = a.status.or (some 5) ∧ (dSrcHost a.desc = true → b.reads = [])))

/-- Power, heat, gaits and the power latch (R369 to R385, R403, R433). -/
def Obligations.PowerHeatGaitsAndTheLatch : Prop :=
  (∀ (l : ClLoc) (a : Nat) (s : State),
    ((2 < s.hw.clusterGait l ∨ s.hw.fencedPage l.page = true) → exec (.vdroopSample l a) s = .next s) ∧
    (s.hw.clusterGait l ≤ 2 → s.hw.fencedPage l.page = false → ∃ t, exec (.vdroopSample l a) s = .next t ∧ Outside s t ∧ SampleTaken s t l.f 4 l.c.val a ∧
      t.hw = { s.hw with rf := s.wordsMsix t, mon := t.hw.mon, evlog := t.hw.evlog, out := t.hw.out })) ∧
  (∀ (v w : Nat) (k : List Nat) (s : State),
    let gain := fun (code x : Nat) => ((x : Int) * (1000000 + s.hw.calEff code 0) / 1000000).toNat
    let volt := gain 9 v
    let bad := volt < 7000 ∨ 8800 < volt
    ∃ t, exec (.inputSample v w k) s = .next t ∧ Outside s t ∧ t.hw.fld (pgPower + Reg.powerGlobal.ptInputV) 0 16 = volt % 2 ^ 16 ∧
      t.hw.fld (pgPower + Reg.powerGlobal.ptInputP) 0 16 = gain 10 w % 2 ^ 16 ∧ (7000 ≤ volt → volt < 7200 → t.hw.bit (pgPower + 0x010) 8 = true) ∧
      (8600 < volt → volt ≤ 8800 → t.hw.bit (pgPower + 0x010) 9 = true) ∧ t.hw.pw = { s.hw.pw with inputBad := if bad then s.hw.pw.inputBad.or (some s.hw.clk.now) else none } ∧
      t.hw = { s.hw with rf := s.wordsMsix t, mon := t.hw.mon, pw := t.hw.pw, evlog := t.hw.evlog, out := t.hw.out } ∧
      ∀ (f : Field) (m : Fin 16), let pg := pgMonitor f m
        (s.hw.fieldOn f = false → t.hw.monAt pg = s.hw.monAt pg ∧ t.hw.regN (pg + Reg.monitor.monLiveCount) = s.hw.regN (pg + Reg.monitor.monLiveCount)) ∧
        (s.hw.fieldOn f = true → s.hw.blkState pg = 2 → monWants (s.hw.reg (pg + Reg.monitor.monSrc)) 7 0 ≠ monWants (s.hw.reg (pg + Reg.monitor.monSrc)) 7 1 →
          t.hw.regN (pg + Reg.monitor.monLiveCount) = satAdd 32 (s.hw.regN (pg + Reg.monitor.monLiveCount)) 1)) ∧
  (∀ (a : Nat) (k : List Nat) (s : State),
    let watt := ((a : Int) * (1000000 + s.hw.calEff 10 0) / 1000000).toNat
    let pk := pgPower + Reg.powerGlobal.ptInputPeak
    let cap := s.hw.fld (pgPower + Reg.powerGlobal.ptPowerCap) 0 16
    let p := s.hw.pw
    ∃ t, exec (.powerAverage a k) s = .next t ∧ Outside s t ∧ t.hw.fld (pgPower + Reg.powerGlobal.ptInputP) 16 16 = watt % 2 ^ 16 ∧ t.hw.fld pk 0 16 = max (s.hw.fld pk 0 16) (min watt 65535) ∧
      (∀ f : Field, let kk := pgFieldPower f + Reg.fieldPower.ptPower
        let tc := pgFieldPower f + Reg.fieldPower.ptThrottleCount
        t.hw.fld kk 0 16 = min (k.getD f.val 0) 65535 ∧ t.hw.fld kk 16 16 = max (s.hw.fld kk 16 16) (min (k.getD f.val 0) 65535) ∧
        t.hw.fld tc 16 16 = if s.hw.gaitFld f 12 = 1 ∨ s.hw.gaitFld f 12 = 2 then satAdd 16 (s.hw.fld tc 16 16) 1 else s.hw.fld tc 16 16) ∧
      t.hw = { s.hw with rf := s.wordsMsix t, pw := { p with powerDown := t.hw.pw.powerDown, powerUp := t.hw.pw.powerUp, lowAverages := t.hw.pw.lowAverages }, evlog := t.hw.evlog, out := t.hw.out } ∧
      (cap < watt → t.hw.bit (pgPower + 0x010) 12 = true ∧ t.hw.pw.powerUp = [] ∧ t.hw.pw.lowAverages = 0 ∧
        ∀ f : Field, f.val ∈ t.hw.pw.powerDown ↔ ∃ n, s.hw.paddockOfField f = some n ∧ 3 ≤ s.hw.slotState n) ∧
      (watt ≤ cap → t.hw.pw.powerDown = p.powerDown ∧ t.hw.evlog = s.hw.evlog) ∧
      (watt ≤ cap → 9 * cap ≤ 10 * watt → t.hw.pw.lowAverages = 0 ∧ t.hw.pw.powerUp = p.powerUp) ∧
      (watt ≤ cap → 10 * watt < 9 * cap → (p.lowAverages < 99 → t.hw.pw.lowAverages = p.lowAverages + 1 ∧ t.hw.pw.powerUp = p.powerUp) ∧
        (99 ≤ p.lowAverages → t.hw.pw.lowAverages = 0 ∧ ∀ f : Field, f.val ∈ t.hw.pw.powerUp ↔ 0 < s.hw.gaitFld f 8))) ∧
  (∀ (f : Field) (s : State),
    let pg := pgFieldPower f
    let c := s.hw.gaitFld f 4
    let planned := ∃ n, s.hw.paddockOfField f = some n ∧ 3 ≤ s.hw.slotState n
    (Tab.find s.hw.pw.stepAt f.val = none → exec (.throttleStep f) s = .next s) ∧
    (∀ a, Tab.find s.hw.pw.stepAt f.val = some a →
      let now := max s.hw.clk.now (a + 1000000)
      ∃ t, exec (.throttleStep f) s = .next t ∧ Outside s t ∧ t.hw.clk = { s.hw.clk with now := now } ∧ Tab.find t.hw.pw.stepAt f.val = some now ∧
        (2 ≤ c → t.hw = { s.hw with clk := t.hw.clk, pw := { s.hw.pw with stepAt := t.hw.pw.stepAt } }) ∧
        (c < 2 → t.hw.gaitFld f 4 = c + 1 ∧ t.hw.bit (pg + 0x010) 9 = true ∧ t.hw.fld (pg + Reg.fieldPower.ptThrottleCount) 0 16 = satAdd 16 (s.hw.fld (pg + Reg.fieldPower.ptThrottleCount) 0 16) 1 ∧
          t.hw.bit (pgModule + Reg.module.glbStatus) 2 = true ∧ (s.hw.fieldOn f = true → ∀ i : Fin 6, c + 1 ≤ t.hw.clusterGait ⟨f, i⟩) ∧
          ∀ g : Field, g ≠ f → t.hw.gaitFld g 4 = s.hw.gaitFld g 4 ∧ ∀ i : Fin 6, t.hw.clusterGait ⟨g, i⟩ = s.hw.clusterGait ⟨g, i⟩)) ∧
    ((Tab.find s.hw.pw.coolSince f.val = none ∨ c = 0 ∨ f.val ∈ s.hw.pw.thermUp) → exec (.ceilRelease f) s = .next s) ∧
    (∀ a, Tab.find s.hw.pw.coolSince f.val = some a → c ≠ 0 → f.val ∉ s.hw.pw.thermUp →
      let now := max s.hw.clk.now (a + 10000000)
      ∃ t, exec (.ceilRelease f) s = .next t ∧ Outside s t ∧ t.hw.clk = { s.hw.clk with now := now } ∧ Tab.find t.hw.pw.coolSince f.val = some now ∧
        (planned → t.hw = { s.hw with clk := t.hw.clk, pw := { s.hw.pw with coolSince := t.hw.pw.coolSince, thermUp := s.hw.pw.thermUp ++ [f.val] } }) ∧
        (¬ planned → t.hw.gaitFld f 4 = c - 1 ∧ t.hw.bit (pg + 0x010) 10 = true)) ∧
    ((∀ cls, cls = 1 ∨ cls = 2 → let i := if cls = 1 then Instr.fuseShort f else Instr.fuseOverload f
      (s.hw.bit (pg + Reg.fieldPower.ptFuse) 0 = true → exec i s = .next s) ∧
      (s.hw.bit (pg + Reg.fieldPower.ptFuse) 0 = false → ∃ t, exec i s = .next t ∧ Tripped s t f cls))) ∧
    (Tab.find s.hw.pw.ramps f.val = none → exec (.railRampDone f) s = .next s) ∧
    (∀ g a, Tab.find s.hw.pw.ramps f.val = some (g, a) → ∃ t, exec (.railRampDone f) s = .next t ∧ Outside s t ∧ t.hw.clk = { s.hw.clk with now := max s.hw.clk.now (a + 200000) } ∧
      t.hw.pw = { s.hw.pw with ramps := Tab.erase s.hw.pw.ramps f.val, gov := t.hw.pw.gov } ∧ (∀ q ∈ t.hw.pw.gov, q ∈ s.hw.pw.gov ∨ (q.field = f.val ∧ q.target = s.hw.effGait f)) ∧ t.hw = { s.hw with rf := s.words t, clk := t.hw.clk, pw := t.hw.pw } ∧
      RegsBut s t [pg + Reg.fieldPower.ptGait, pg + Reg.fieldPower.ptClusterGait] ∧
      ∀ i : Fin 6, let old := s.hw.clusterGait ⟨f, i⟩
        t.hw.clusterGait ⟨f, i⟩ = if old ≤ 2 ∧ max g (s.hw.effGait f) < old then max g (s.hw.effGait f) else old)) ∧
  (∀ (f : Field) (x : FieldTemps) (u : HarnessTemps) (s : State),
    let pg := pgFieldPower f
    let cal := fun (inst : Nat) (v : Int) => v + s.hw.calEff 5 inst
    let sen := fun (i : Nat) => cal (5 * f.val + i) (x.s.getD i 0)
    let j := max (max (max (max (sen 0) (sen 1)) (sen 2)) (sen 3)) (sen 4)
    let st := max (cal (240 + 2 * f.val) (x.stackT.getD 0 0)) (cal (241 + 2 * f.val) (x.stackT.getD 1 0))
    let optic := cal (336 + f.val) x.optic
    let stage := cal (384 + f.val) x.stage
    let die := cal 432 u.die
    let th := fun (i : Nat) => 16 * (s.hw.fld (pgPower + Reg.powerGlobal.ptThresh) (8 * i) 8 : Int)
    let seen := fun (i : Nat) => Tab.get s.hw.pw.tripSamples i 0
    let c := s.hw.gaitFld f 4
    (1760 ≤ die → 1 ≤ seen 192 → ∃ t, exec (.tempSample f x u) s = .next t ∧ PoweredOff s t s.hw.boot.pwrEn) ∧
    ((die < 1760 ∨ seen 192 = 0) → s.hw.fieldOn f = true →
      let trips := (th 3 ≤ j ∧ 1 ≤ seen (4 * f.val)) ∨ (1680 ≤ st ∧ 1 ≤ seen (4 * f.val + 1)) ∨ (1760 ≤ stage ∧ 1 ≤ seen (4 * f.val + 2))
      (trips → s.hw.bit (pg + Reg.fieldPower.ptFuse) 0 = false → ∃ t, exec (.tempSample f x u) s = .next t ∧ Tripped s t f 3) ∧
      (¬ trips → ∃ t, exec (.tempSample f x u) s = .next t ∧ Outside s t ∧
        t.hw.fld (pg + Reg.fieldPower.ptTemp01) 0 16 = twos 16 (sen 0) ∧ t.hw.fld (pg + Reg.fieldPower.ptTemp01) 16 16 = twos 16 (sen 1) ∧ t.hw.fld (pg + Reg.fieldPower.ptTemp23) 0 16 = twos 16 (sen 2) ∧
        t.hw.fld (pg + Reg.fieldPower.ptTemp23) 16 16 = twos 16 (sen 3) ∧ t.hw.fld (pg + Reg.fieldPower.ptTemp4) 0 16 = twos 16 (sen 4) ∧ t.hw.fld (pg + Reg.fieldPower.ptTemp4) 16 16 = twos 16 j ∧
        t.hw.fld (pg + Reg.fieldPower.ptTempPeak) 0 16 = twos 16 (max j (signOf 16 (s.hw.fld (pg + Reg.fieldPower.ptTempPeak) 0 16))) ∧
        ((th 0 ≤ j ∨ 1440 ≤ st ∨ 1200 ≤ optic) → t.hw.bit (pg + 0x010) 8 = true) ∧ ((th 2 ≤ j ∨ 1600 ≤ st ∨ 1360 ≤ optic) → t.hw.bit (pg + 0x010) 11 = true) ∧
        (j < th 1 → Tab.find t.hw.pw.stepAt f.val = none) ∧ (j < th 1 → j < th 2 → t.hw.gaitFld f 4 = c) ∧
        (th 1 ≤ j → j < th 2 → Tab.find s.hw.pw.stepAt f.val = none → t.hw.gaitFld f 4 = max c (min 2 (c + 1)) ∧ (Tab.find t.hw.pw.stepAt f.val).isSome = true) ∧
        (th 2 ≤ j → c ≠ 2 → t.hw.gaitFld f 4 = max c 2) ∧ (th 2 ≤ j → c = 2 → s.hw.blkState pg = 2 → t.hw.blkState pg = 3 ∧ fieldUnit f.val ∈ t.hw.fr.todo) ∧
        (1600 ≤ st → s.hw.blkState pg = 2 → t.hw.blkState pg = 3 ∧ fieldUnit f.val ∈ t.hw.fr.todo) ∧
        (1360 ≤ optic → f.val ∉ s.hw.pw.opticOff → f.val ∈ t.hw.pw.opticOff ∧ ∀ i : Fin 8, (t.hw.opLink ⟨f, i⟩).state = 0)))) ∧
  (∀ s : State,
    let p := s.hw.pw
    let g := pgPower + Reg.powerGlobal.ptGov
    let lim := s.hw.fld (pgPower + Reg.powerGlobal.ptGovLimit) 0 16
    (∃ t, exec .govSlot s = .next t ∧ Outside s t ∧ t.hw.clk = { s.hw.clk with now := max s.hw.clk.now (p.slotAt + 100000) } ∧ t.hw.pw = { p with slot := p.slot + 1, slotAt := t.hw.clk.now, charged := 0 } ∧
      t.hw = { s.hw with rf := s.words t, clk := t.hw.clk, pw := t.hw.pw } ∧ RegsBut s t [g] ∧ t.hw.fld g 16 16 = if p.gov = [] then s.hw.fld g 16 16 else satAdd 16 (s.hw.fld g 16 16) 1) ∧
    (∃ t, exec .govAdmit s = .next t ∧ Outside s t ∧ t.hw = { s.hw with rf := s.words t, pw := t.hw.pw } ∧ RegsBut s t (g :: (List.finRange 48).map fun f => pgFieldPower f + Reg.fieldPower.ptWakeSpacing) ∧
      (p.charged ≤ lim → t.hw.pw.charged ≤ lim) ∧ p.charged ≤ t.hw.pw.charged ∧ t.hw.pw.gov.length ≤ p.gov.length ∧
      (∀ q rest, p.gov = q :: rest →
        let r := s.hw.govEval q
        let f := fieldOf q.field
        let near := r.2.2 = true ∧ ∃ a, Tab.find p.lastWake f.val = some a ∧ s.hw.clk.now < a + 10000
        (¬ near → p.charged + r.2.1 ≤ lim → p.charged + r.2.1 ≤ t.hw.pw.charged ∧ t.hw.pw.gov.length < p.gov.length ∧
          (∀ c, q.cluster = some c → Tab.find t.hw.pw.lastWake f.val = some s.hw.clk.now ∧
            Tab.find t.hw.pw.wakes (clOf q.field c).idx = some ⟨r.1, decide (s.hw.clusterGait (clOf q.field c) = 4), s.hw.clk.now⟩) ∧
          (q.cluster = none → (Tab.find t.hw.pw.ramps f.val).isSome = true)) ∧
        ((near ∨ lim < p.charged + r.2.1) → ∃ q', q' ∈ t.hw.pw.gov ∧ q' = { q with spaced := q'.spaced })))) ∧
  (∀ (l : ClLoc) (s : State),
    let same := fun (t : State) => ∀ m : ClLoc, m ≠ l → t.hw.clusterGait m = s.hw.clusterGait m
    let asks := fun (t : State) => ∀ q ∈ t.hw.pw.gov, q ∈ s.hw.pw.gov ∨ (q.field = l.f.val ∧ q.target = s.hw.effGait l.f)
    let w := Tab.find s.hw.pw.wakes l.idx
    (w = none → exec (.restWakeDone l) s = .next s ∧ exec (.walkWakeDone l) s = .next s) ∧
    (∀ x, w = some x →
      (x.fromRest = false → exec (.restWakeDone l) s = .next s) ∧ ((x.fromRest = true ∨ 2 < x.target) → exec (.walkWakeDone l) s = .next s) ∧
      (x.fromRest = true → ∃ t, exec (.restWakeDone l) s = .next t ∧ t.fuses = s.fuses ∧ t.pending = s.pending ∧ t.hw.clusterGait l = 3 ∧ same t ∧
        (∀ q, memRead t.mem q = if daRegion q = 2 ∧ daField q = l.f.val ∧ daCluster q = l.c.val then 0 else memRead s.mem q) ∧
        t.hw.clk = { s.hw.clk with now := max s.hw.clk.now (x.since + 100000) } ∧ Tab.find t.hw.pw.wakes l.idx = (if x.target ≤ 2 ∧ s.hw.effGait l.f ≤ 2 then some ⟨x.target, false, t.hw.clk.now⟩ else none) ∧
        t.hw = { s.hw with rf := s.words t, clk := t.hw.clk, pw := { s.hw.pw with wakes := t.hw.pw.wakes, gov := t.hw.pw.gov } } ∧ asks t ∧
        RegsBut s t [pgFieldPower l.f + Reg.fieldPower.ptGait, pgFieldPower l.f + Reg.fieldPower.ptClusterGait]) ∧
      (x.fromRest = false → x.target ≤ 2 → ∃ t, exec (.walkWakeDone l) s = .next t ∧ Outside s t ∧ same t ∧ t.hw.clk = { s.hw.clk with now := max s.hw.clk.now (x.since + 2000) } ∧
        t.hw.pw = { s.hw.pw with wakes := Tab.erase s.hw.pw.wakes l.idx, gov := t.hw.pw.gov } ∧ asks t ∧ t.hw = { s.hw with rf := s.words t, clk := t.hw.clk, pw := t.hw.pw } ∧
        (s.hw.runningClusters l.f = [] → t.hw.clusterGait l = max x.target (min 3 (s.hw.effGait l.f))) ∧
        (∀ m r, s.hw.runningClusters l.f = m :: r → t.hw.clusterGait l = s.hw.clusterGait m)))) ∧
  (∀ s : State,
    let latch := pgPower + Reg.powerGlobal.ptLatch
    let boot := s.hw.boot
    (boot.on = false → exec .estopAssert s = .next s) ∧
    (boot.on = true → s.hw.latched = true → ∃ t, exec .estopAssert s = .next t ∧ Outside s t ∧ t.hw = { s.hw with rf := s.words t } ∧ t.hw.bit latch 0 = false ∧ t.hw.latched = true ∧ RegsBut s t [latch]) ∧
    (boot.on = true → s.hw.latched = false → ∃ t, exec .estopAssert s = .next t ∧ Latched s t 1 ∧ t.hw.bit latch 0 = false) ∧
    (∀ b, ((boot.on = false ∨ s.hw.latched = true) → exec (.inputFault b) s = .next s) ∧
      (boot.on = true → s.hw.latched = false → ∃ t, exec (.inputFault b) s = .next t ∧ Latched s t (if b then 3 else 2) ∧ ∀ a, s.hw.pw.inputBad = some a → a + 100000 ≤ t.hw.clk.now)) ∧
    (∃ t, exec .pwrEnDeassert s = .next t ∧ PoweredOff s t false) ∧ (∃ t, exec .hbPowerLoss s = .next t ∧ PoweredOff s t boot.pwrEn) ∧
    (∀ v,
      let good := boot.on = false ∧ 7200 ≤ v ∧ v ≤ 8600
      (¬ good → ∃ t, exec (.pwrEnAssert v) s = .next t ∧ Outside s t ∧ t.hw = { s.hw with boot := { boot with pwrEn := true } }) ∧
      (good → ∃ t, exec (.pwrEnAssert v) s = .next t ∧ PoweredOn s t v true) ∧
      (¬ (good ∧ boot.pwrEn = true) → exec (.inputReturn v) s = .next s) ∧ (good → boot.pwrEn = true → ∃ t, exec (.inputReturn v) s = .next t ∧ PoweredOn s t v true)) ∧
    (∀ (p : Path) (x : HostId), p.host = some x → s.hw.deadFor p pgPower = false → s.hw.fencedPage pgPower = false → s.hw.stateCode pgPower = 0 →
      let volt := s.hw.fld (pgPower + Reg.powerGlobal.ptInputV) 0 16
      let good := s.hw.latched = true ∧ 7200 ≤ volt ∧ volt ≤ 8600
      (s.hw.holds x 4 = false → ∃ t, exec (.estopClear p) s = .next t ∧ Outside s t ∧ t.hw.reg (pgPower + 0x020) = resultWord p 1 .badArg ∧ t.hw.latched = s.hw.latched) ∧
      (s.hw.holds x 4 = true →
        (¬ good → ∃ t, exec (.estopClear p) s = .next t ∧ Outside s t ∧ t.hw.reg (pgPower + 0x020) = resultWord p 1 .illegal ∧ t.hw.bit (pgPower + 0x010) 0 = true ∧
          s.hw.Reports t.hw ((pgPower + 0x020) :: eventRegs pgPower)) ∧
        (good → ∃ t, exec (.estopClear p) s = .next t ∧ Outside s t ∧ t.hw.reg (pgPower + 0x020) = resultWord p 1 .ok ∧ t.hw.regN latch = 1 ∧ t.hw.bit (pgModule + Reg.module.glbStatus) 3 = false ∧
          (boot.waiting = true → t.hw.stage = 4 ∧ t.hw.boot.waiting = false ∧
            ∀ f : Field, s.hw.bit (pgFieldPower f + Reg.fieldPower.ptFuse) 0 = false → f.val ∉ s.hw.outFields → t.hw.blkState (pgFieldPower f) = 1 ∧ t.hw.gaitFld f 4 = 0 ∧ t.hw.gaitFld f 8 = 0))))) ∧
  (∀ (p : Path) (v : Word) (s : State),
    let k := pgPower + Reg.powerGlobal.ptRingRest
    WriteOpen s p pgPower Reg.powerGlobal.ptRingRest → ∃ t, exec (.ptRingRestWrite p v) s = .next t ∧ Outside s t ∧ t.hw.regN k = v.toNat % 16 ∧
      ∀ f : Field,
        (s.hw.paddockOfField f = none → t.hw.gaitFld f 0 = (if bitOf v.toNat (ringOf f).val = true then 4 else 3) ∧
          (s.hw.fieldOn f = true → bitOf v.toNat (ringOf f).val = true → ∀ i : Fin 6, t.hw.clusterGait ⟨f, i⟩ = 4)) ∧
        (s.hw.paddockOfField f ≠ none → t.hw.gaitFld f 0 = s.hw.gaitFld f 0 ∧ ∀ i : Fin 6, t.hw.clusterGait ⟨f, i⟩ = s.hw.clusterGait ⟨f, i⟩)) ∧
  (∀ (p : Path) (f : Field) (s : State), CmdOpen s p (pgFieldPower f) [2] →
    let pg := pgFieldPower f
    ∃ t, exec (.ptClearCounters p f) s = .next t ∧ Outside s t ∧ t.hw.reg (pg + 0x020) = resultWord p 2 .ok ∧ t.hw.regN (pg + Reg.fieldPower.ptTempPeak) = 0 ∧
      t.hw.regN (pg + Reg.fieldPower.ptThrottleCount) = 0 ∧ t.hw.regN (pg + Reg.fieldPower.ptWakeSpacing) = 0 ∧ t.hw.fld (pg + Reg.fieldPower.ptPower) 16 16 = 0 ∧
      t.hw.fld (pg + Reg.fieldPower.ptPower) 0 16 = s.hw.fld (pg + Reg.fieldPower.ptPower) 0 16 ∧ t.hw = { s.hw with rf := s.words t } ∧
      RegsBut s t [pg + 0x020, pg + Reg.fieldPower.ptTempPeak, pg + Reg.fieldPower.ptThrottleCount, pg + Reg.fieldPower.ptWakeSpacing, pg + Reg.fieldPower.ptPower])

/-- Bring-up and the security engine (R386 to R401). -/
def Obligations.BringUpRunsAndSecurityCommandsAct : Prop :=
  (∀ (k : StageReport) (s : State),
    let h := s.hw
    let now := h.clk.now
    let n := h.stage
    let blocked := h.boot.on = false ∨ h.boot.stopped = true ∨ h.boot.waiting = true ∨ n = 0 ∨ 10 ≤ n ∨ h.bit (pgSecurity + Reg.security.secBoot) 9 = true ∨
      (n = 8 ∧ h.bit (pgSecurity + Reg.security.secCtrl) 0 = true)
    let boot := pgSecurity + Reg.security.secBoot
    let powers := fun (t : State) => (h.latched = true → t.hw.boot.waiting = true) ∧
      (h.latched = false → ∀ f : Field, h.bit (pgFieldPower f + Reg.fieldPower.ptFuse) 0 = false → f.val ∉ h.outFields → t.hw.blkState (pgFieldPower f) = 1)
    (blocked → exec (.stageDone k) s = .next s) ∧
    ((h.boot.on = false ∨ h.boot.waiting = true) → exec (.stageBudgetExpire k) s = .next s) ∧
    (h.boot.on = true → h.boot.waiting = false → ∃ t, exec (.stageBudgetExpire k) s = .next t ∧
      exec (.stageDone k) { s with hw := { h with clk := { h.clk with now := max now (h.boot.stageAt + stageBudget n) } } } = .next t) ∧
    (StageRuns s 1 → ∃ t, exec (.stageDone k) s = .next t ∧ Outside s t ∧ (k.base = true → StageBegun s t 2) ∧ (k.base = false → StageStopped s t 1)) ∧
    (StageRuns s 2 → k.base = false → ∃ t, exec (.stageDone k) s = .next t ∧ Outside s t ∧ StageStopped s t 2) ∧
    (StageRuns s 2 → k.base = true → Tab.sorted h.flash.config = true →
      (∀ x ∈ h.flash.config, x.1 % 4096 = 0x008 ∨ x.1 = pgSecurity + Reg.security.secPolicy ∨ x.1 = pgOptGlobal + Reg.optGlobal.opNodeId ∨ x.1 = pgOptGlobal + Reg.optGlobal.tbPrio ∨
        x.1 = pgSecurity + Reg.security.secCtrl ∨ (∃ f : Field, x.1 = pgFieldPower f + Reg.fieldPower.ptFuseLimit) ∨ ∃ f : Field, x.1 = pgPort f + Reg.port.opLinkEn) →
      ∃ t, exec (.stageDone k) s = .next t ∧ t.mem = s.mem ∧ StageBegun s t 3 ∧ (∀ x ∈ h.flash.config, t.hw.reg x.1 = x.2) ∧ (∀ b ∈ s.fuses.buckets, b ∈ t.fuses.buckets) ∧ t.hw.sec.leaf = 0 ∧
        (∀ m, h.flash.sigTree = some m → (∀ b ∈ s.fuses.buckets, 4096 * b ≤ m) → t.fuses = s.fuses ∧ t.hw.sec.tree = m + 1) ∧
        (∀ m, (∀ b ∈ s.fuses.buckets, b < m) → (m = 0 ∨ m - 1 ∈ s.fuses.buckets) → (h.flash.sigTree = none ∨ ∃ a, h.flash.sigTree = some a ∧ ∃ b ∈ s.fuses.buckets, a < 4096 * b) →
          t.hw.sec.tree = 4096 * m ∧ (m < 256 → m ∈ t.fuses.buckets))) ∧
    (StageRuns s 3 →
      let a := b2n h.flash.bootSlot
      let runs := fun (t : State) (slot : Nat) => Outside s t ∧ StageBegun s t 4 ∧ powers t ∧ t.hw.bit boot 8 = decide (slot = 1) ∧ t.hw.boot.fwHead = (h.fwHead slot).take 48
      (k.base = true → s.fwOk a = true → ∃ t, exec (.stageDone k) s = .next t ∧ runs t a ∧ t.hw.boot.fallback = false) ∧
      (k.base = true → s.fwOk a = false → s.fwOk (1 - a) = true → ∃ t, exec (.stageDone k) s = .next t ∧ runs t (1 - a) ∧ t.hw.boot.fallback = true ∧ t.hw.bit (pgSecurity + 0x010) 9 = true) ∧
      ((k.base = false ∨ (s.fwOk a = false ∧ s.fwOk (1 - a) = false)) → ∃ t, exec (.stageDone k) s = .next t ∧ Outside s t ∧ t.hw.stage = 3 ∧ t.hw.bit boot 9 = true ∧ t.hw.blkState pgSecurity = 3 ∧
        t.hw.bit (pgSecurity + 0x010) 8 = true ∧ t.hw.bit (pgModule + Reg.module.glbStatus) 4 = true)) ∧
    ((n = 4 ∨ n = 5 ∨ n = 6) → StageRuns s n → ∃ t, exec (.stageDone k) s = .next t ∧ StageBegun s t (n + 1) ∧ t.fuses = s.fuses ∧
      (k.fields = [] → t.mem = s.mem) ∧
      (∀ f ∈ k.fields, f.val ∉ h.outFields → f.val ∈ t.hw.outFields ∧ t.hw.blkState (pgFieldPower f) = 0 ∧ t.hw.bit (pgSecurity + 0x010) 8 = true ∧
        t.hw.fld boot 4 4 = (if h.fld boot 4 4 = 0 then n else h.fld boot 4 4)) ∧
      (n = 4 → k.fields = [] → ∀ f : Field, h.blkState (pgFieldPower f) = 1 → t.hw.blkState (pgFieldPower f) = 2 ∧
        ∀ i : Fin 6, h.clusterGait ⟨f, i⟩ = 4 → h.gaitFld f 0 ≤ 3 → t.hw.clusterGait ⟨f, i⟩ = 3) ∧
      (n = 6 → Tab.sorted h.flash.calUser = true → ∀ c i, Tab.find h.flash.calUser (calKey c i) ≠ none → t.hw.calEff c i = h.calPending c i)) ∧
    (StageRuns s 7 → ∃ t, exec (.stageDone k) s = .next t ∧ StageBegun s t (if h.boot.locked = true then 9 else 8) ∧ t.fuses = s.fuses ∧ t.mem = [] ∧
      ∀ i : Site, h.blkState (sitePage i) = 2 → t.hw.blkState (sitePage i) = 3) ∧
    (StageRuns s 8 → (∀ f : Field, h.inService f.val = true → h.blkState (pgFieldPower f) = 4) → ∃ t, exec (.stageDone k) s = .next t ∧ Outside s t ∧ StageStopped s t 8) ∧
    (StageRuns s 8 → (∃ f : Field, h.inService f.val = true ∧ h.blkState (pgFieldPower f) ≠ 4) → ∃ t, exec (.stageDone k) s = .next t ∧ Outside s t ∧ StageBegun s t 9 ∧ t.hw.boot.locked = true ∧
      t.hw.bit boot 10 = true ∧ t.hw.blkState pgTimebase = 1 ∧ t.hw.tb.stageAt = some now ∧ t.hw.tb.electing = true) ∧
    (StageRuns s 9 → ∃ t, exec (.stageDone k) s = .next t ∧ Outside s t ∧ StageBegun s t 10 ∧ t.hw.ready = true ∧ t.hw.blkState pgSecurity = 1 ∧
      t.hw.regN (pgSecurity + Reg.security.secBootTime) = (now - h.boot.pwrAt) / 1000000 % 2 ^ 32)) ∧
  (∀ (p : Path) (v : Word) (s : State), WriteOpen s p pgSecurity Reg.security.secCtrl →
    ∃ t, exec (.holdLockWrite p v) s = .next t ∧ Outside s t ∧ t.hw.regN (pgSecurity + Reg.security.secCtrl) = v.toNat % 2 ∧ RegsBut s t [pgSecurity + Reg.security.secCtrl] ∧
      t.hw = { s.hw with rf := s.words t, boot := { s.hw.boot with stageAt := t.hw.boot.stageAt } } ∧ t.hw.boot.stageAt = (if s.hw.stage = 8 then s.hw.clk.now else s.hw.boot.stageAt)) ∧
  (∀ (c : Instr) (p : Path) (code : Nat) (legal : List Nat), secCommand c = some (p, code, legal) → ∀ s : State,
    (s.hw.mayCommand p pgSecurity none = true → s.hw.fencedPage pgSecurity = false → s.hw.sec.cmd ≠ none →
      ∃ t, exec c s = .next t ∧ Outside s t ∧ t.hw = { s.hw with rf := s.words t } ∧ RegsBut s t [pgSecurity + 0x020] ∧ t.hw.reg (pgSecurity + 0x020) = resultWord p code .busy) ∧
    (s.hw.deadFor p pgSecurity = false → s.hw.mayCommand p pgSecurity none = true → s.hw.fencedPage pgSecurity = false → s.hw.sec.cmd = none →
      s.hw.stateCode pgSecurity ∉ legal → s.hw.blkState pgSecurity ∉ legal → ∃ t, exec c s = .next t ∧ SecRefused s t p code .illegal) ∧
    (CmdOpen s p pgSecurity legal → s.hw.sec.cmd = none → p.host ≠ none → s.hw.ready = false → code ≠ 9 → (code = 7 → s.hw.blkState pgSecurity ≠ 3) → ∃ t, exec c s = .next t ∧ SecRefused s t p code .illegal)) ∧
  (∀ s : State,
    (s.hw.sec.cmd = none → exec .cmdDone s = .next s) ∧
    (∀ code p, s.hw.sec.cmd = some (code, p) → ∃ t, exec .cmdDone s = .next t ∧ Outside s t ∧ SecOnly s t ∧ t.hw.sec = { s.hw.sec with cmd := none } ∧
      t.hw.reg (pgSecurity + 0x020) = resultWord p code .ok ∧ t.hw.bit (pgSecurity + 0x010) 12 = true ∧
      t.hw.blkState pgSecurity = if s.hw.bit (pgSecurity + Reg.security.secBoot) 9 = true then 3 else if s.hw.stage = 10 then 1 else 0) ∧
    (s.hw.sec.challenge = none → exec .challengeExpire s = .next s) ∧
    (∀ b a, s.hw.sec.challenge = some (b, a) → ∃ t, exec .challengeExpire s = .next t ∧ Outside s t ∧ t.hw.clk = { s.hw.clk with now := max s.hw.clk.now (a + 60000000000) } ∧
      t.hw.sec = { s.hw.sec with challenge := none } ∧ t.hw.bit (pgSecurity + Reg.security.secDebug) 4 = false ∧ RegsBut s t [pgSecurity + Reg.security.secDebug] ∧
      t.hw = { s.hw with rf := s.words t, clk := t.hw.clk, sec := t.hw.sec })) ∧
  (∀ (p : Path) (s : State),
    let x := s.hw.sec
    let q := s.hw.sigNext
    (SecOpen s p [1] →
      (bitOf s.hw.scopes 0 = true → ∃ t, exec (.attest p) s = .next t ∧ SecRefused s t p 1 .illegal) ∧
      (bitOf s.hw.scopes 0 = false → 2 ^ 30 ≤ q → ∃ t, exec (.attest p) s = .next t ∧ SecRefused s t p 1 .limit) ∧
      (bitOf s.hw.scopes 0 = false → q < 2 ^ 30 →
        let rep := s.report (s.hw.secBytes 0 32) q
        ∃ t, exec (.attest p) s = .next t ∧ SecBusy s t p 1 ∧ SecOnly s t ∧ t.hw.secBytes 0 256 = rep ∧ t.hw.secBytes 256 5396 = sliceD (Config.hssSign q rep) 0 5396 0 ∧
          (x.leaf < 1023 → t.hw.sec.tree = x.tree ∧ t.hw.sec.leaf = x.leaf + 1 ∧ t.hw.sec.started = true) ∧
          (1023 ≤ x.leaf → t.hw.sec.tree = x.tree + 1 ∧ t.hw.sec.leaf = 0 ∧ t.hw.sec.started = false) ∧
          (x.started = true → t.fuses = s.fuses ∧ t.hw.flash = s.hw.flash) ∧
          (x.started = false → x.tree / 4096 ∈ t.fuses.buckets ∧ t.hw.flash = { s.hw.flash with sigTree := some x.tree } ∧ t.fuses = { s.fuses with buckets := t.fuses.buckets } ∧ ∀ b ∈ s.fuses.buckets, b ∈ t.fuses.buckets) ∧
          (2 ^ 30 - t.hw.sigNext < 2 ^ 20 → t.hw.bit (pgSecurity + 0x010) 10 = true)) ∧
      (∃ t, exec (.advanceSvn p) s = .next t ∧ SecBusy s t p 2 ∧ SecOnly s t ∧ t.hw.flash = s.hw.flash ∧ t.fuses = { s.fuses with svn := max s.fuses.svn s.hw.fwSvn }) ∧
      (let hash := s.hw.secBytes 0 32
       let held := ∃ j, j < 4 ∧ Tab.find s.fuses.owners j ≠ none ∧ j ∉ s.fuses.revoked
       let allowed := held → s.ownerSigned (hash ++ s.hw.serialBytes) = true
       (((∀ j, j < 4 → Tab.find s.fuses.owners j ≠ none) ∨ ¬ allowed) → ∃ t, exec (.ownerEnroll p) s = .next t ∧ SecRefused s t p 3 .badArg) ∧
       (∀ i, i < 4 → Tab.find s.fuses.owners i = none → (∀ j, j < i → Tab.find s.fuses.owners j ≠ none) → allowed →
         ∃ t, exec (.ownerEnroll p) s = .next t ∧ SecBusy s t p 3 ∧ SecOnly s t ∧ t.hw.flash = s.hw.flash ∧ t.fuses = { s.fuses with owners := t.fuses.owners } ∧
           ∀ j, Tab.find t.fuses.owners j = if j = i then some (digestOf hash) else Tab.find s.fuses.owners j)) ∧
      (let i := s.hw.secArg % 4
       let allowed := Tab.find s.fuses.owners i ≠ none ∧ s.ownerSigned (leBytes 4 i ++ s.hw.serialBytes) = true
       (¬ allowed → ∃ t, exec (.ownerRevoke p) s = .next t ∧ SecRefused s t p 4 .badArg) ∧
       (allowed → ∃ t, exec (.ownerRevoke p) s = .next t ∧ SecBusy s t p 4 ∧ SecOnly s t ∧ t.hw.flash = s.hw.flash ∧ t.fuses = { s.fuses with revoked := t.fuses.revoked } ∧
         ∀ j, j ∈ t.fuses.revoked ↔ j = i ∨ j ∈ s.fuses.revoked)) ∧
      (∃ t, exec (.setBootSlot p) s = .next t ∧ SecBusy s t p 0x0A ∧ SecOnly s t ∧ t.fuses = s.fuses ∧ t.hw.flash = { s.hw.flash with bootSlot := bitOf s.hw.secArg 0 })) ∧
    (SecOpen s p [0, 1] →
      (∃ t b, exec (.debugChallenge p) s = .next t ∧ SecBusy s t p 5 ∧ SecOnly s t ∧ t.fuses = s.fuses ∧ t.hw.flash = s.hw.flash ∧ t.hw.secBytes 0 32 = b ∧ b.length = 32 ∧
        t.hw.sec.challenge = some (b, s.hw.clk.now) ∧ t.hw.bit (pgSecurity + Reg.security.secDebug) 4 = true ∧ t.hw.freeCtr = s.hw.freeCtr + 32) ∧
      (s.responseOk = false → ∃ t, exec (.debugResponse p) s = .next t ∧ Outside s t ∧ t.hw.reg (pgSecurity + 0x020) = resultWord p 6 .badArg ∧ t.hw.sec = { x with challenge := none } ∧
        t.hw.bit (pgSecurity + Reg.security.secDebug) 4 = false ∧ t.hw.scopes = s.hw.scopes ∧ RegsBut s t [pgSecurity + 0x020, pgSecurity + Reg.security.secDebug] ∧ t.hw = { s.hw with rf := s.words t, sec := t.hw.sec }) ∧
      (s.responseOk = true →
        let scope := leAt (s.hw.secBytes 0 4) 0 4
        ∃ t, exec (.debugResponse p) s = .next t ∧ SecBusy s t p 6 ∧ t.fuses = s.fuses ∧ t.hw.sec.challenge = none ∧ t.hw.scopes = (s.hw.scopes ||| scope) % 16 ∧ t.hw.bit (pgSecurity + 0x010) 11 = true ∧
          (bitOf scope 3 = false → SecOnly s t ∧ t.hw.flash = s.hw.flash) ∧
          (bitOf scope 3 = true → t.mem = [] ∧ (∀ n : Paddock, t.hw.planRunning n = false) ∧ ∀ f : Field, (t.hw.blkState (pgFieldPower f) = 0 ∨ t.hw.blkState (pgFieldPower f) = 4) ∧ t.hw.gaitFld f 12 = 4)) ∧
      (∃ t, exec (.saveConfig p) s = .next t ∧ SecBusy s t p 8 ∧ SecOnly s t ∧ t.fuses = s.fuses ∧ t.hw.flash = { s.hw.flash with config := t.hw.flash.config } ∧
        (∀ y ∈ s.hw.recordWords, Tab.find t.hw.flash.config y.1 = some y.2) ∧ ∀ k, (∀ y ∈ s.hw.recordWords, y.1 ≠ k) → Tab.find t.hw.flash.config k = none)) ∧
    ((SecOpen s p [1] ∨ (CmdOpen s p pgSecurity [3] ∧ s.hw.blkState pgSecurity = 3 ∧ x.cmd = none)) →
      let k := 2048 * bitsOf s.hw.secArg 16 1 + bitsOf s.hw.secArg 0 11
      ∃ t, exec (.fwWrite p) s = .next t ∧ SecBusy s t p 7 ∧ SecOnly s t ∧ t.fuses = s.fuses ∧ t.hw.flash = { s.hw.flash with fw := t.hw.flash.fw } ∧
        ∀ j, Tab.find t.hw.flash.fw j = if j = k then some (s.hw.secBytes 0 8192) else Tab.find s.hw.flash.fw j) ∧
    (CmdOpen s p pgSecurity [0, 1, 3] → x.cmd = none →
      ∃ t, exec (.readCert p) s = .next t ∧ SecBusy s t p 9 ∧ SecOnly s t ∧ t.fuses = s.fuses ∧ t.hw.flash = s.hw.flash ∧
        t.hw.secBytes 0 28 = leBytes 4 0x54524543 ++ s.hw.serialBytes ++ s.hw.moduleIdBytes ∧ t.hw.secBytes 28 2944 = sliceD s.hw.fac.cert 0 2944 0))

/-- The calibration page, PADDOCK_RINGS, EVLOG_SEL and SMBus (R391, R392, R402, R420, R421, R435). -/
def Obligations.CalibrationRingsLogAndSmbusAct : Prop :=
  (∀ (p : Path) (s : State),
    let w := s.hw.regN (pgCalib + Reg.calib.calSel)
    let c := w % 2 ^ 8
    let i := w / 2 ^ 8 % 2 ^ 12
    (∀ (v : Word), WriteOpen s p pgCalib Reg.calib.calSel →
      let c' := v.toNat % 2 ^ 8
      let i' := v.toNat / 2 ^ 8 % 2 ^ 12
      ∃ t, exec (.calSelWrite p v) s = .next t ∧ Outside s t ∧ t.hw = { s.hw with rf := s.words t } ∧ RegsBut s t [pgCalib + Reg.calib.calSel, pgCalib + Reg.calib.calUser] ∧
        t.hw.regN (pgCalib + Reg.calib.calSel) = v.toNat % 2 ^ 20 ∧
        t.hw.regN (pgCalib + Reg.calib.calUser) = if calOk c' i' = true then twos 32 (calUserOf s.hw.flash.calUser c' i') else 0) ∧
    (∀ x : Instr × Nat × Nat, x = (.writeUser p, 1, twos 16 (signOf 32 (s.hw.regN (pgCalib + Reg.calib.calUser)))) ∨ x = (.clearUser p, 2, twos 16 0) →
      (s.hw.mayCommand p pgCalib none = true → s.hw.blkState pgCalib = 1 →
        ∃ t, exec x.1 s = .next t ∧ Outside s t ∧ t.hw = { s.hw with rf := s.words t } ∧ RegsBut s t [pgCalib + 0x020] ∧ t.hw.reg (pgCalib + 0x020) = resultWord p x.2.1 .busy) ∧
      (CmdOpen s p pgCalib [0] → s.hw.blkState pgCalib = 0 → calOk c i = false →
        ∃ t, exec x.1 s = .next t ∧ Outside s t ∧ t.hw = { s.hw with rf := s.words t } ∧ RegsBut s t [pgCalib + 0x020] ∧ t.hw.reg (pgCalib + 0x020) = resultWord p x.2.1 .badArg) ∧
      (CmdOpen s p pgCalib [0] → s.hw.blkState pgCalib = 0 → calOk c i = true →
        ∃ t, exec x.1 s = .next t ∧ Outside s t ∧ t.hw.reg (pgCalib + 0x020) = resultWord p x.2.1 .ok ∧ t.hw.blkState pgCalib = 1 ∧ RegsBut s t [pgCalib + 0x00C, pgCalib + 0x020] ∧
          t.hw = { s.hw with rf := s.words t, flash := t.hw.flash, sec := { s.hw.sec with calBusy := some (calKey c i, s.hw.clk.now) } } ∧
          t.hw.flash = { s.hw.flash with calUser := t.hw.flash.calUser, calWrites := s.hw.flash.calWrites + 1 } ∧
          (∀ k, Tab.find t.hw.flash.calUser k = if k = calKey c i then some x.2.2 else Tab.find s.hw.flash.calUser k) ∧
          (∀ c' i', t.hw.calEff c' i' = s.hw.calEff c' i') ∧
          (∀ n e u, calParam c = some (n, e, u) → t.hw.calPending c i = clampInt e (s.hw.calFused c i + signOf 16 x.2.2))) ∧
      (s.hw.deadFor p pgCalib = false → s.hw.mayCommand p pgCalib none = true → s.hw.fencedPage pgCalib = false → s.hw.blkState pgCalib ≠ 1 → s.hw.stateCode pgCalib ≠ 0 →
        ∃ t, exec x.1 s = .next t ∧ Outside s t ∧ t.hw.reg (pgCalib + 0x020) = resultWord p x.2.1 .illegal ∧ t.hw.bit (pgCalib + 0x010) 0 = true ∧
          s.hw.Reports t.hw ((pgCalib + 0x020) :: eventRegs pgCalib))) ∧
    (∀ (v : Word) (y : Instr × Nat × Nat), y = (.calSelWrite p v, pgCalib, Reg.calib.calSel) ∨ y = (.evlogSelWrite p v, pgEvlog, Reg.evlog.evlogSel) ∨ y = (.paddockRingsWrite p v, pgModule, Reg.module.paddockRings) →
      s.hw.deadFor p y.2.1 = false → s.hw.mayWrite p y.2.1 y.2.2 = false → ∀ x : HostId, p.host = some x →
      ∃ t, exec y.1 s = .next t ∧ Outside s t ∧ t.hw = { s.hw with rf := s.words t } ∧ RegsBut s t [pgHostPort x + Reg.hostPort.hpDenied] ∧
        t.hw.regN (pgHostPort x + Reg.hostPort.hpDenied) = satAdd 32 (s.hw.regN (pgHostPort x + Reg.hostPort.hpDenied)) 1) ∧
    (∀ v : Word, WriteOpen s p pgEvlog Reg.evlog.evlogSel →
      let e := ((s.hw.evlog.find? fun e => e.seq % 2 ^ 32 = v.toNat).map EvEntry.bytes).getD (List.replicate 32 0)
      let d := fun i => pgEvlog + Reg.evlog.evlogData0 + 4 * i
      ∃ t, exec (.evlogSelWrite p v) s = .next t ∧ Outside s t ∧ t.hw = { s.hw with rf := { s.hw.rf with words := t.hw.rf.words, staged := t.hw.rf.staged } } ∧ RegsBut s t [pgEvlog + Reg.evlog.evlogSel] ∧
        t.hw.reg (pgEvlog + Reg.evlog.evlogSel) = v ∧ (∀ i, i < 8 → t.hw.argOf p (d i) = BitVec.ofNat 32 (leAt e (4 * i) 4)) ∧
        ∀ k, (∀ i, i < 8 → k ≠ pathKey p (d i)) → Tab.find t.hw.rf.staged k = Tab.find s.hw.rf.staged k) ∧
    (∀ v : Word, WriteOpen s p pgModule Reg.module.paddockRings →
      let old := s.hw.reg (pgModule + Reg.module.paddockRings)
      let new := v &&& 0xBBBB
      let changed := fun r : Ring => wbits old (4 * r.val) 2 ≠ wbits new (4 * r.val) 2 ∨ wbit old (4 * r.val + 3) ≠ wbit new (4 * r.val + 3)
      let free := ∀ r : Ring, changed r → (∀ n, ringOwner old r = some n ∨ ringOwner new r = some n → s.hw.slotState n = 0) ∧ ∀ x ∈ s.hw.usedSpans, spanRing x ≠ r.val
      (¬ free → ∃ t, exec (.paddockRingsWrite p v) s = .next t ∧ Outside s t ∧ t.hw.bit (pgModule + 0x010) 0 = true ∧ s.hw.Reports t.hw (eventRegs pgModule)) ∧
      (free → ∃ t, exec (.paddockRingsWrite p v) s = .next t ∧ Outside s t ∧ t.hw.reg (pgModule + Reg.module.paddockRings) = new ∧ ((∃ r, changed r) → t.hw.bit (pgModule + 0x010) 11 = true) ∧
        (∀ k, k ≠ pgModule + Reg.module.paddockRings → k ∉ eventRegs pgModule → (∀ r : Ring, changed r → ∀ f ∈ ringFields r, daField k ≠ f.val) → t.hw.reg k = s.hw.reg k) ∧
        t.hw = { s.hw with rf := s.wordsMsix t, me := t.hw.me, ve := t.hw.ve, mv := t.hw.mv, sq := t.hw.sq, syncTaint := t.hw.syncTaint, errMark := t.hw.errMark, prov := t.hw.prov, pw := t.hw.pw, fills := t.hw.fills, evlog := t.hw.evlog, out := t.hw.out } ∧
        (∀ x ∈ s.hw.fills, x ∈ t.hw.fills) ∧
        ∀ r : Ring, changed r →
          (ringOwner old r ≠ none → ∀ x ∈ ringSpans r, x.len ≠ 0 → x ∈ t.hw.fills) ∧
          ∀ f ∈ ringFields r, (∀ c, t.hw.l2pValid ⟨f, c⟩ = false) ∧
            t.hw.gaitFld f 0 = if ringOwner new r = none ∧ s.hw.bit (pgPower + Reg.powerGlobal.ptRingRest) r.val = true then 4 else 3))) ∧
  (∀ s : State,
    (s.hw.sec.calBusy = none → exec .calFlashDone s = .next s) ∧
    (s.hw.sec.calBusy ≠ none → ∃ t, exec .calFlashDone s = .next t ∧ Outside s t ∧ t.hw = { s.hw with rf := s.words t, sec := { s.hw.sec with calBusy := none } } ∧ t.hw.blkState pgCalib = 0 ∧ RegsBut s t [pgCalib + 0x00C])) ∧
  (∀ (a : BitVec 7) (c : Byte) (s : State),
    (smbusReg c.toNat = none ∨ a ≠ 0x5A ∨ s.hw.boot.on = false → exec (.smbusBlockRead a c) s = .next s) ∧
    (∀ x, smbusReg c.toNat = some x → a = 0x5A → s.hw.boot.on = true →
      exec (.smbusBlockRead a c) s = .next { s with hw := { s.hw with out := s.hw.out ++ [.smbus (leBytes 1 4 ++ leBytes 4 (s.word .rm x.1 x.2).toNat)] } }))
end

