-- ==== Sys2Proof/Laws/State.lean ====
section
/-! SUPPORT. Tables, and what a change of the state leaves as it was: one lemma per field and operation. -/
namespace Sys2Proof.Machine

theorem Tab.find_set_same {α : Type} (t : Tab α) (k : Nat) (v : α) : Tab.find (Tab.set t k v) k = some v := by
  induction t with
  | nil => simp [Tab.set, Tab.find]
  | cons e r ih =>
    obtain ⟨j, u⟩ := e
    simp only [Tab.set]
    split
    · simp [Tab.find]
    · split
      · simp [Tab.find]
      · rename_i h1 h2
        have : ¬ j = k := fun h => h2 h.symm
        simp [Tab.find, this, ih]
theorem Tab.find_set_other {α : Type} (t : Tab α) (k j : Nat) (v : α) (h : j ≠ k) : Tab.find (Tab.set t k v) j = Tab.find t j := by
  induction t with
  | nil => simp [Tab.set, Tab.find, Ne.symm h]
  | cons e r ih =>
    obtain ⟨i, u⟩ := e
    simp only [Tab.set]
    split
    · simp [Tab.find, Ne.symm h]
    · split
      · rename_i h1 h2
        simp [Tab.find, Ne.symm h, ← h2]
      · simp [Tab.find, ih]
@[simp] theorem Tab.get_set_same {α : Type} (t : Tab α) (k : Nat) (v d : α) : Tab.get (Tab.set t k v) k d = v := by
  simp [Tab.get, Tab.find_set_same]
theorem Tab.get_set_other {α : Type} (t : Tab α) (k j : Nat) (v d : α) (h : j ≠ k) : Tab.get (Tab.set t k v) j d = Tab.get t j d := by
  simp [Tab.get, Tab.find_set_other t k j v h]
theorem Tab.find_erase_same {α : Type} (t : Tab α) (k : Nat) : Tab.find (Tab.erase t k) k = none := by
  induction t with
  | nil => rfl
  | cons e r ih =>
    obtain ⟨j, u⟩ := e
    by_cases h : j = k
    · simpa [Tab.erase, h] using ih
    · simpa [Tab.erase, Tab.find, h] using ih
theorem Tab.find_erase_other {α : Type} (t : Tab α) (k j : Nat) (h : j ≠ k) : Tab.find (Tab.erase t k) j = Tab.find t j := by
  induction t with
  | nil => rfl
  | cons e r ih =>
    obtain ⟨i, u⟩ := e
    by_cases h1 : i = k
    · have : ¬ k = j := fun x => h x.symm
      simpa [Tab.erase, Tab.find, h1, this] using ih
    · by_cases h2 : i = j
      · simp [Tab.erase, Tab.find, h2, h]
      · simpa [Tab.erase, Tab.find, h1, h2] using ih

@[simp] theorem State.onHw_mem (s : State) (f : Hw → Hw) : (s.onHw f).mem = s.mem := rfl
@[simp] theorem State.onHw_fuses (s : State) (f : Hw → Hw) : (s.onHw f).fuses = s.fuses := rfl
@[simp] theorem State.onHw_pending (s : State) (f : Hw → Hw) : (s.onHw f).pending = s.pending := rfl
@[simp] theorem State.onHw_hw (s : State) (f : Hw → Hw) : (s.onHw f).hw = f s.hw := rfl

@[simp] theorem Hw.reg_setReg_same (h : Hw) (k : Nat) (v : Word) : (h.setReg k v).reg k = v := by simp [Hw.reg, Hw.setReg]
theorem Hw.reg_setReg_other (h : Hw) (k j : Nat) (v : Word) (n : j ≠ k) : (h.setReg k v).reg j = h.reg j := by
  simp [Hw.reg, Hw.setReg, Tab.get_set_other _ _ _ _ _ n]
theorem Hw.reg_setReg (h : Hw) (k j : Nat) (v : Word) : (h.setReg k v).reg j = if j = k then v else h.reg j := by
  by_cases n : j = k
  · simp [n]
  · simp [n, Hw.reg_setReg_other]
theorem Hw.reg_setRegN (h : Hw) (k j v : Nat) : (h.setRegN k v).reg j = if j = k then BitVec.ofNat 32 v else h.reg j := Hw.reg_setReg ..
theorem Hw.reg_setFld (h : Hw) (k lo len v j : Nat) : (h.setFld k lo len v).reg j = if j = k then wput (h.reg k) lo len v else h.reg j := Hw.reg_setReg ..
theorem Hw.reg_setBit (h : Hw) (k i : Nat) (b : Bool) (j : Nat) : (h.setBit k i b).reg j = if j = k then wput (h.reg k) i 1 (b2n b) else h.reg j := Hw.reg_setReg ..
theorem Hw.reg_count (h : Hw) (k lo len n j : Nat) :
    (h.count k lo len n).reg j = if j = k then wput (h.reg k) lo len (satAdd len (h.fld k lo len) n) else h.reg j := Hw.reg_setReg ..
theorem Hw.reg_setReg64_other (h : Hw) (k v j : Nat) (n : j ≠ k) (m : j ≠ k + 4) : (h.setReg64 k v).reg j = h.reg j := by
  simp [Hw.setReg64, Hw.reg_setRegN, n, m]
@[simp] theorem Hw.reg_emit (h : Hw) (e : Emission) (j : Nat) : (h.emit e).reg j = h.reg j := rfl
@[simp] theorem Hw.setReg_clk (h : Hw) (k : Nat) (v : Word) : (h.setReg k v).clk = h.clk := rfl
@[simp] theorem Hw.setReg_freeCtr (h : Hw) (k : Nat) (v : Word) : (h.setReg k v).freeCtr = h.freeCtr := rfl
@[simp] theorem Hw.setReg_evlog (h : Hw) (k : Nat) (v : Word) : (h.setReg k v).evlog = h.evlog := rfl
@[simp] theorem Hw.setReg_out (h : Hw) (k : Nat) (v : Word) : (h.setReg k v).out = h.out := rfl
@[simp] theorem Hw.setReg_mon (h : Hw) (k : Nat) (v : Word) : (h.setReg k v).mon = h.mon := rfl
@[simp] theorem Hw.setReg_pads (h : Hw) (k : Nat) (v : Word) : (h.setReg k v).pads = h.pads := rfl
@[simp] theorem Hw.setReg_nw (h : Hw) (k : Nat) (v : Word) : (h.setReg k v).nw = h.nw := rfl
@[simp] theorem Hw.setReg_prov (h : Hw) (k : Nat) (v : Word) : (h.setReg k v).prov = h.prov := rfl
@[simp] theorem Hw.setReg_sq (h : Hw) (k : Nat) (v : Word) : (h.setReg k v).sq = h.sq := rfl
@[simp] theorem Hw.setReg_syncTaint (h : Hw) (k : Nat) (v : Word) : (h.setReg k v).syncTaint = h.syncTaint := rfl
@[simp] theorem Hw.setReg_errMark (h : Hw) (k : Nat) (v : Word) : (h.setReg k v).errMark = h.errMark := rfl
@[simp] theorem Hw.setReg_me (h : Hw) (k : Nat) (v : Word) : (h.setReg k v).me = h.me := rfl
@[simp] theorem Hw.setReg_ve (h : Hw) (k : Nat) (v : Word) : (h.setReg k v).ve = h.ve := rfl
@[simp] theorem Hw.setReg_rtr (h : Hw) (k : Nat) (v : Word) : (h.setReg k v).rtr = h.rtr := rfl
@[simp] theorem Hw.setReg_resp (h : Hw) (k : Nat) (v : Word) : (h.setReg k v).resp = h.resp := rfl
@[simp] theorem Hw.setReg_objs (h : Hw) (k : Nat) (v : Word) : (h.setReg k v).objs = h.objs := rfl
@[simp] theorem Hw.setReg_plq (h : Hw) (k : Nat) (v : Word) : (h.setReg k v).plq = h.plq := rfl
@[simp] theorem Hw.setReg_plNext (h : Hw) (k : Nat) (v : Word) : (h.setReg k v).plNext = h.plNext := rfl
@[simp] theorem Hw.setReg_fills (h : Hw) (k : Nat) (v : Word) : (h.setReg k v).fills = h.fills := rfl
@[simp] theorem Hw.setReg_mv (h : Hw) (k : Nat) (v : Word) : (h.setReg k v).mv = h.mv := rfl
@[simp] theorem Hw.setReg_uc (h : Hw) (k : Nat) (v : Word) : (h.setReg k v).uc = h.uc := rfl
@[simp] theorem Hw.setReg_opl (h : Hw) (k : Nat) (v : Word) : (h.setReg k v).opl = h.opl := rfl
@[simp] theorem Hw.setReg_opp (h : Hw) (k : Nat) (v : Word) : (h.setReg k v).opp = h.opp := rfl
@[simp] theorem Hw.setReg_routes (h : Hw) (k : Nat) (v : Word) : (h.setReg k v).routes = h.routes := rfl
@[simp] theorem Hw.setReg_tb (h : Hw) (k : Nat) (v : Word) : (h.setReg k v).tb = h.tb := rfl
@[simp] theorem Hw.setReg_cal (h : Hw) (k : Nat) (v : Word) : (h.setReg k v).cal = h.cal := rfl
@[simp] theorem Hw.setReg_calBack (h : Hw) (k : Nat) (v : Word) : (h.setReg k v).calBack = h.calBack := rfl
@[simp] theorem Hw.setReg_sc (h : Hw) (k : Nat) (v : Word) : (h.setReg k v).sc = h.sc := rfl
@[simp] theorem Hw.setReg_pw (h : Hw) (k : Nat) (v : Word) : (h.setReg k v).pw = h.pw := rfl
@[simp] theorem Hw.setReg_hp (h : Hw) (k : Nat) (v : Word) : (h.setReg k v).hp = h.hp := rfl
@[simp] theorem Hw.setReg_fr (h : Hw) (k : Nat) (v : Word) : (h.setReg k v).fr = h.fr := rfl
@[simp] theorem Hw.setReg_fac (h : Hw) (k : Nat) (v : Word) : (h.setReg k v).fac = h.fac := rfl
@[simp] theorem Hw.setReg_flash (h : Hw) (k : Nat) (v : Word) : (h.setReg k v).flash = h.flash := rfl
@[simp] theorem Hw.setReg_boot (h : Hw) (k : Nat) (v : Word) : (h.setReg k v).boot = h.boot := rfl
@[simp] theorem Hw.setReg_sec (h : Hw) (k : Nat) (v : Word) : (h.setReg k v).sec = h.sec := rfl
@[simp] theorem Hw.setReg_outFields (h : Hw) (k : Nat) (v : Word) : (h.setReg k v).outFields = h.outFields := rfl
@[simp] theorem Hw.setRegN_clk (h : Hw) (k v : Nat) : (h.setRegN k v).clk = h.clk := rfl
@[simp] theorem Hw.setRegN_freeCtr (h : Hw) (k v : Nat) : (h.setRegN k v).freeCtr = h.freeCtr := rfl
@[simp] theorem Hw.setRegN_evlog (h : Hw) (k v : Nat) : (h.setRegN k v).evlog = h.evlog := rfl
@[simp] theorem Hw.setRegN_out (h : Hw) (k v : Nat) : (h.setRegN k v).out = h.out := rfl
@[simp] theorem Hw.setRegN_mon (h : Hw) (k v : Nat) : (h.setRegN k v).mon = h.mon := rfl
@[simp] theorem Hw.setRegN_pads (h : Hw) (k v : Nat) : (h.setRegN k v).pads = h.pads := rfl
@[simp] theorem Hw.setRegN_nw (h : Hw) (k v : Nat) : (h.setRegN k v).nw = h.nw := rfl
@[simp] theorem Hw.setRegN_prov (h : Hw) (k v : Nat) : (h.setRegN k v).prov = h.prov := rfl
@[simp] theorem Hw.setRegN_sq (h : Hw) (k v : Nat) : (h.setRegN k v).sq = h.sq := rfl
@[simp] theorem Hw.setRegN_syncTaint (h : Hw) (k v : Nat) : (h.setRegN k v).syncTaint = h.syncTaint := rfl
@[simp] theorem Hw.setRegN_errMark (h : Hw) (k v : Nat) : (h.setRegN k v).errMark = h.errMark := rfl
@[simp] theorem Hw.setRegN_me (h : Hw) (k v : Nat) : (h.setRegN k v).me = h.me := rfl
@[simp] theorem Hw.setRegN_ve (h : Hw) (k v : Nat) : (h.setRegN k v).ve = h.ve := rfl
@[simp] theorem Hw.setRegN_rtr (h : Hw) (k v : Nat) : (h.setRegN k v).rtr = h.rtr := rfl
@[simp] theorem Hw.setRegN_resp (h : Hw) (k v : Nat) : (h.setRegN k v).resp = h.resp := rfl
@[simp] theorem Hw.setRegN_objs (h : Hw) (k v : Nat) : (h.setRegN k v).objs = h.objs := rfl
@[simp] theorem Hw.setRegN_plq (h : Hw) (k v : Nat) : (h.setRegN k v).plq = h.plq := rfl
@[simp] theorem Hw.setRegN_plNext (h : Hw) (k v : Nat) : (h.setRegN k v).plNext = h.plNext := rfl
@[simp] theorem Hw.setRegN_fills (h : Hw) (k v : Nat) : (h.setRegN k v).fills = h.fills := rfl
@[simp] theorem Hw.setRegN_mv (h : Hw) (k v : Nat) : (h.setRegN k v).mv = h.mv := rfl
@[simp] theorem Hw.setRegN_uc (h : Hw) (k v : Nat) : (h.setRegN k v).uc = h.uc := rfl
@[simp] theorem Hw.setRegN_opl (h : Hw) (k v : Nat) : (h.setRegN k v).opl = h.opl := rfl
@[simp] theorem Hw.setRegN_opp (h : Hw) (k v : Nat) : (h.setRegN k v).opp = h.opp := rfl
@[simp] theorem Hw.setRegN_routes (h : Hw) (k v : Nat) : (h.setRegN k v).routes = h.routes := rfl
@[simp] theorem Hw.setRegN_tb (h : Hw) (k v : Nat) : (h.setRegN k v).tb = h.tb := rfl
@[simp] theorem Hw.setRegN_cal (h : Hw) (k v : Nat) : (h.setRegN k v).cal = h.cal := rfl
@[simp] theorem Hw.setRegN_calBack (h : Hw) (k v : Nat) : (h.setRegN k v).calBack = h.calBack := rfl
@[simp] theorem Hw.setRegN_sc (h : Hw) (k v : Nat) : (h.setRegN k v).sc = h.sc := rfl
@[simp] theorem Hw.setRegN_pw (h : Hw) (k v : Nat) : (h.setRegN k v).pw = h.pw := rfl
@[simp] theorem Hw.setRegN_hp (h : Hw) (k v : Nat) : (h.setRegN k v).hp = h.hp := rfl
@[simp] theorem Hw.setRegN_fr (h : Hw) (k v : Nat) : (h.setRegN k v).fr = h.fr := rfl
@[simp] theorem Hw.setRegN_fac (h : Hw) (k v : Nat) : (h.setRegN k v).fac = h.fac := rfl
@[simp] theorem Hw.setRegN_flash (h : Hw) (k v : Nat) : (h.setRegN k v).flash = h.flash := rfl
@[simp] theorem Hw.setRegN_boot (h : Hw) (k v : Nat) : (h.setRegN k v).boot = h.boot := rfl
@[simp] theorem Hw.setRegN_sec (h : Hw) (k v : Nat) : (h.setRegN k v).sec = h.sec := rfl
@[simp] theorem Hw.setRegN_outFields (h : Hw) (k v : Nat) : (h.setRegN k v).outFields = h.outFields := rfl
@[simp] theorem Hw.setFld_clk (h : Hw) (k lo len v : Nat) : (h.setFld k lo len v).clk = h.clk := rfl
@[simp] theorem Hw.setFld_freeCtr (h : Hw) (k lo len v : Nat) : (h.setFld k lo len v).freeCtr = h.freeCtr := rfl
@[simp] theorem Hw.setFld_evlog (h : Hw) (k lo len v : Nat) : (h.setFld k lo len v).evlog = h.evlog := rfl
@[simp] theorem Hw.setFld_out (h : Hw) (k lo len v : Nat) : (h.setFld k lo len v).out = h.out := rfl
@[simp] theorem Hw.setFld_mon (h : Hw) (k lo len v : Nat) : (h.setFld k lo len v).mon = h.mon := rfl
@[simp] theorem Hw.setFld_pads (h : Hw) (k lo len v : Nat) : (h.setFld k lo len v).pads = h.pads := rfl
@[simp] theorem Hw.setFld_nw (h : Hw) (k lo len v : Nat) : (h.setFld k lo len v).nw = h.nw := rfl
@[simp] theorem Hw.setFld_prov (h : Hw) (k lo len v : Nat) : (h.setFld k lo len v).prov = h.prov := rfl
@[simp] theorem Hw.setFld_sq (h : Hw) (k lo len v : Nat) : (h.setFld k lo len v).sq = h.sq := rfl
@[simp] theorem Hw.setFld_syncTaint (h : Hw) (k lo len v : Nat) : (h.setFld k lo len v).syncTaint = h.syncTaint := rfl
@[simp] theorem Hw.setFld_errMark (h : Hw) (k lo len v : Nat) : (h.setFld k lo len v).errMark = h.errMark := rfl
@[simp] theorem Hw.setFld_me (h : Hw) (k lo len v : Nat) : (h.setFld k lo len v).me = h.me := rfl
@[simp] theorem Hw.setFld_ve (h : Hw) (k lo len v : Nat) : (h.setFld k lo len v).ve = h.ve := rfl
@[simp] theorem Hw.setFld_rtr (h : Hw) (k lo len v : Nat) : (h.setFld k lo len v).rtr = h.rtr := rfl
@[simp] theorem Hw.setFld_resp (h : Hw) (k lo len v : Nat) : (h.setFld k lo len v).resp = h.resp := rfl
@[simp] theorem Hw.setFld_objs (h : Hw) (k lo len v : Nat) : (h.setFld k lo len v).objs = h.objs := rfl
@[simp] theorem Hw.setFld_plq (h : Hw) (k lo len v : Nat) : (h.setFld k lo len v).plq = h.plq := rfl
@[simp] theorem Hw.setFld_plNext (h : Hw) (k lo len v : Nat) : (h.setFld k lo len v).plNext = h.plNext := rfl
@[simp] theorem Hw.setFld_fills (h : Hw) (k lo len v : Nat) : (h.setFld k lo len v).fills = h.fills := rfl
@[simp] theorem Hw.setFld_mv (h : Hw) (k lo len v : Nat) : (h.setFld k lo len v).mv = h.mv := rfl
@[simp] theorem Hw.setFld_uc (h : Hw) (k lo len v : Nat) : (h.setFld k lo len v).uc = h.uc := rfl
@[simp] theorem Hw.setFld_opl (h : Hw) (k lo len v : Nat) : (h.setFld k lo len v).opl = h.opl := rfl
@[simp] theorem Hw.setFld_opp (h : Hw) (k lo len v : Nat) : (h.setFld k lo len v).opp = h.opp := rfl
@[simp] theorem Hw.setFld_routes (h : Hw) (k lo len v : Nat) : (h.setFld k lo len v).routes = h.routes := rfl
@[simp] theorem Hw.setFld_tb (h : Hw) (k lo len v : Nat) : (h.setFld k lo len v).tb = h.tb := rfl
@[simp] theorem Hw.setFld_cal (h : Hw) (k lo len v : Nat) : (h.setFld k lo len v).cal = h.cal := rfl
@[simp] theorem Hw.setFld_calBack (h : Hw) (k lo len v : Nat) : (h.setFld k lo len v).calBack = h.calBack := rfl
@[simp] theorem Hw.setFld_sc (h : Hw) (k lo len v : Nat) : (h.setFld k lo len v).sc = h.sc := rfl
@[simp] theorem Hw.setFld_pw (h : Hw) (k lo len v : Nat) : (h.setFld k lo len v).pw = h.pw := rfl
@[simp] theorem Hw.setFld_hp (h : Hw) (k lo len v : Nat) : (h.setFld k lo len v).hp = h.hp := rfl
@[simp] theorem Hw.setFld_fr (h : Hw) (k lo len v : Nat) : (h.setFld k lo len v).fr = h.fr := rfl
@[simp] theorem Hw.setFld_fac (h : Hw) (k lo len v : Nat) : (h.setFld k lo len v).fac = h.fac := rfl
@[simp] theorem Hw.setFld_flash (h : Hw) (k lo len v : Nat) : (h.setFld k lo len v).flash = h.flash := rfl
@[simp] theorem Hw.setFld_boot (h : Hw) (k lo len v : Nat) : (h.setFld k lo len v).boot = h.boot := rfl
@[simp] theorem Hw.setFld_sec (h : Hw) (k lo len v : Nat) : (h.setFld k lo len v).sec = h.sec := rfl
@[simp] theorem Hw.setFld_outFields (h : Hw) (k lo len v : Nat) : (h.setFld k lo len v).outFields = h.outFields := rfl
@[simp] theorem Hw.setBit_clk (h : Hw) (k i : Nat) (b : Bool) : (h.setBit k i b).clk = h.clk := rfl
@[simp] theorem Hw.setBit_freeCtr (h : Hw) (k i : Nat) (b : Bool) : (h.setBit k i b).freeCtr = h.freeCtr := rfl
@[simp] theorem Hw.setBit_evlog (h : Hw) (k i : Nat) (b : Bool) : (h.setBit k i b).evlog = h.evlog := rfl
@[simp] theorem Hw.setBit_out (h : Hw) (k i : Nat) (b : Bool) : (h.setBit k i b).out = h.out := rfl
@[simp] theorem Hw.setBit_mon (h : Hw) (k i : Nat) (b : Bool) : (h.setBit k i b).mon = h.mon := rfl
@[simp] theorem Hw.setBit_pads (h : Hw) (k i : Nat) (b : Bool) : (h.setBit k i b).pads = h.pads := rfl
@[simp] theorem Hw.setBit_nw (h : Hw) (k i : Nat) (b : Bool) : (h.setBit k i b).nw = h.nw := rfl
@[simp] theorem Hw.setBit_prov (h : Hw) (k i : Nat) (b : Bool) : (h.setBit k i b).prov = h.prov := rfl
@[simp] theorem Hw.setBit_sq (h : Hw) (k i : Nat) (b : Bool) : (h.setBit k i b).sq = h.sq := rfl
@[simp] theorem Hw.setBit_syncTaint (h : Hw) (k i : Nat) (b : Bool) : (h.setBit k i b).syncTaint = h.syncTaint := rfl
@[simp] theorem Hw.setBit_errMark (h : Hw) (k i : Nat) (b : Bool) : (h.setBit k i b).errMark = h.errMark := rfl
@[simp] theorem Hw.setBit_me (h : Hw) (k i : Nat) (b : Bool) : (h.setBit k i b).me = h.me := rfl
@[simp] theorem Hw.setBit_ve (h : Hw) (k i : Nat) (b : Bool) : (h.setBit k i b).ve = h.ve := rfl
@[simp] theorem Hw.setBit_rtr (h : Hw) (k i : Nat) (b : Bool) : (h.setBit k i b).rtr = h.rtr := rfl
@[simp] theorem Hw.setBit_resp (h : Hw) (k i : Nat) (b : Bool) : (h.setBit k i b).resp = h.resp := rfl
@[simp] theorem Hw.setBit_objs (h : Hw) (k i : Nat) (b : Bool) : (h.setBit k i b).objs = h.objs := rfl
@[simp] theorem Hw.setBit_plq (h : Hw) (k i : Nat) (b : Bool) : (h.setBit k i b).plq = h.plq := rfl
@[simp] theorem Hw.setBit_plNext (h : Hw) (k i : Nat) (b : Bool) : (h.setBit k i b).plNext = h.plNext := rfl
@[simp] theorem Hw.setBit_fills (h : Hw) (k i : Nat) (b : Bool) : (h.setBit k i b).fills = h.fills := rfl
@[simp] theorem Hw.setBit_mv (h : Hw) (k i : Nat) (b : Bool) : (h.setBit k i b).mv = h.mv := rfl
@[simp] theorem Hw.setBit_uc (h : Hw) (k i : Nat) (b : Bool) : (h.setBit k i b).uc = h.uc := rfl
@[simp] theorem Hw.setBit_opl (h : Hw) (k i : Nat) (b : Bool) : (h.setBit k i b).opl = h.opl := rfl
@[simp] theorem Hw.setBit_opp (h : Hw) (k i : Nat) (b : Bool) : (h.setBit k i b).opp = h.opp := rfl
@[simp] theorem Hw.setBit_routes (h : Hw) (k i : Nat) (b : Bool) : (h.setBit k i b).routes = h.routes := rfl
@[simp] theorem Hw.setBit_tb (h : Hw) (k i : Nat) (b : Bool) : (h.setBit k i b).tb = h.tb := rfl
@[simp] theorem Hw.setBit_cal (h : Hw) (k i : Nat) (b : Bool) : (h.setBit k i b).cal = h.cal := rfl
@[simp] theorem Hw.setBit_calBack (h : Hw) (k i : Nat) (b : Bool) : (h.setBit k i b).calBack = h.calBack := rfl
@[simp] theorem Hw.setBit_sc (h : Hw) (k i : Nat) (b : Bool) : (h.setBit k i b).sc = h.sc := rfl
@[simp] theorem Hw.setBit_pw (h : Hw) (k i : Nat) (b : Bool) : (h.setBit k i b).pw = h.pw := rfl
@[simp] theorem Hw.setBit_hp (h : Hw) (k i : Nat) (b : Bool) : (h.setBit k i b).hp = h.hp := rfl
@[simp] theorem Hw.setBit_fr (h : Hw) (k i : Nat) (b : Bool) : (h.setBit k i b).fr = h.fr := rfl
@[simp] theorem Hw.setBit_fac (h : Hw) (k i : Nat) (b : Bool) : (h.setBit k i b).fac = h.fac := rfl
@[simp] theorem Hw.setBit_flash (h : Hw) (k i : Nat) (b : Bool) : (h.setBit k i b).flash = h.flash := rfl
@[simp] theorem Hw.setBit_boot (h : Hw) (k i : Nat) (b : Bool) : (h.setBit k i b).boot = h.boot := rfl
@[simp] theorem Hw.setBit_sec (h : Hw) (k i : Nat) (b : Bool) : (h.setBit k i b).sec = h.sec := rfl
@[simp] theorem Hw.setBit_outFields (h : Hw) (k i : Nat) (b : Bool) : (h.setBit k i b).outFields = h.outFields := rfl
@[simp] theorem Hw.count_clk (h : Hw) (k lo len n : Nat) : (h.count k lo len n).clk = h.clk := rfl
@[simp] theorem Hw.count_freeCtr (h : Hw) (k lo len n : Nat) : (h.count k lo len n).freeCtr = h.freeCtr := rfl
@[simp] theorem Hw.count_evlog (h : Hw) (k lo len n : Nat) : (h.count k lo len n).evlog = h.evlog := rfl
@[simp] theorem Hw.count_out (h : Hw) (k lo len n : Nat) : (h.count k lo len n).out = h.out := rfl
@[simp] theorem Hw.count_mon (h : Hw) (k lo len n : Nat) : (h.count k lo len n).mon = h.mon := rfl
@[simp] theorem Hw.count_pads (h : Hw) (k lo len n : Nat) : (h.count k lo len n).pads = h.pads := rfl
@[simp] theorem Hw.count_nw (h : Hw) (k lo len n : Nat) : (h.count k lo len n).nw = h.nw := rfl
@[simp] theorem Hw.count_prov (h : Hw) (k lo len n : Nat) : (h.count k lo len n).prov = h.prov := rfl
@[simp] theorem Hw.count_sq (h : Hw) (k lo len n : Nat) : (h.count k lo len n).sq = h.sq := rfl
@[simp] theorem Hw.count_syncTaint (h : Hw) (k lo len n : Nat) : (h.count k lo len n).syncTaint = h.syncTaint := rfl
@[simp] theorem Hw.count_errMark (h : Hw) (k lo len n : Nat) : (h.count k lo len n).errMark = h.errMark := rfl
@[simp] theorem Hw.count_me (h : Hw) (k lo len n : Nat) : (h.count k lo len n).me = h.me := rfl
@[simp] theorem Hw.count_ve (h : Hw) (k lo len n : Nat) : (h.count k lo len n).ve = h.ve := rfl
@[simp] theorem Hw.count_rtr (h : Hw) (k lo len n : Nat) : (h.count k lo len n).rtr = h.rtr := rfl
@[simp] theorem Hw.count_resp (h : Hw) (k lo len n : Nat) : (h.count k lo len n).resp = h.resp := rfl
@[simp] theorem Hw.count_objs (h : Hw) (k lo len n : Nat) : (h.count k lo len n).objs = h.objs := rfl
@[simp] theorem Hw.count_plq (h : Hw) (k lo len n : Nat) : (h.count k lo len n).plq = h.plq := rfl
@[simp] theorem Hw.count_plNext (h : Hw) (k lo len n : Nat) : (h.count k lo len n).plNext = h.plNext := rfl
@[simp] theorem Hw.count_fills (h : Hw) (k lo len n : Nat) : (h.count k lo len n).fills = h.fills := rfl
@[simp] theorem Hw.count_mv (h : Hw) (k lo len n : Nat) : (h.count k lo len n).mv = h.mv := rfl
@[simp] theorem Hw.count_uc (h : Hw) (k lo len n : Nat) : (h.count k lo len n).uc = h.uc := rfl
@[simp] theorem Hw.count_opl (h : Hw) (k lo len n : Nat) : (h.count k lo len n).opl = h.opl := rfl
@[simp] theorem Hw.count_opp (h : Hw) (k lo len n : Nat) : (h.count k lo len n).opp = h.opp := rfl
@[simp] theorem Hw.count_routes (h : Hw) (k lo len n : Nat) : (h.count k lo len n).routes = h.routes := rfl
@[simp] theorem Hw.count_tb (h : Hw) (k lo len n : Nat) : (h.count k lo len n).tb = h.tb := rfl
@[simp] theorem Hw.count_cal (h : Hw) (k lo len n : Nat) : (h.count k lo len n).cal = h.cal := rfl
@[simp] theorem Hw.count_calBack (h : Hw) (k lo len n : Nat) : (h.count k lo len n).calBack = h.calBack := rfl
@[simp] theorem Hw.count_sc (h : Hw) (k lo len n : Nat) : (h.count k lo len n).sc = h.sc := rfl
@[simp] theorem Hw.count_pw (h : Hw) (k lo len n : Nat) : (h.count k lo len n).pw = h.pw := rfl
@[simp] theorem Hw.count_hp (h : Hw) (k lo len n : Nat) : (h.count k lo len n).hp = h.hp := rfl
@[simp] theorem Hw.count_fr (h : Hw) (k lo len n : Nat) : (h.count k lo len n).fr = h.fr := rfl
@[simp] theorem Hw.count_fac (h : Hw) (k lo len n : Nat) : (h.count k lo len n).fac = h.fac := rfl
@[simp] theorem Hw.count_flash (h : Hw) (k lo len n : Nat) : (h.count k lo len n).flash = h.flash := rfl
@[simp] theorem Hw.count_boot (h : Hw) (k lo len n : Nat) : (h.count k lo len n).boot = h.boot := rfl
@[simp] theorem Hw.count_sec (h : Hw) (k lo len n : Nat) : (h.count k lo len n).sec = h.sec := rfl
@[simp] theorem Hw.count_outFields (h : Hw) (k lo len n : Nat) : (h.count k lo len n).outFields = h.outFields := rfl
@[simp] theorem Hw.setReg64_clk (h : Hw) (k v : Nat) : (h.setReg64 k v).clk = h.clk := rfl
@[simp] theorem Hw.setReg64_freeCtr (h : Hw) (k v : Nat) : (h.setReg64 k v).freeCtr = h.freeCtr := rfl
@[simp] theorem Hw.setReg64_evlog (h : Hw) (k v : Nat) : (h.setReg64 k v).evlog = h.evlog := rfl
@[simp] theorem Hw.setReg64_out (h : Hw) (k v : Nat) : (h.setReg64 k v).out = h.out := rfl
@[simp] theorem Hw.setReg64_mon (h : Hw) (k v : Nat) : (h.setReg64 k v).mon = h.mon := rfl
@[simp] theorem Hw.setReg64_pads (h : Hw) (k v : Nat) : (h.setReg64 k v).pads = h.pads := rfl
@[simp] theorem Hw.setReg64_nw (h : Hw) (k v : Nat) : (h.setReg64 k v).nw = h.nw := rfl
@[simp] theorem Hw.setReg64_prov (h : Hw) (k v : Nat) : (h.setReg64 k v).prov = h.prov := rfl
@[simp] theorem Hw.setReg64_sq (h : Hw) (k v : Nat) : (h.setReg64 k v).sq = h.sq := rfl
@[simp] theorem Hw.setReg64_syncTaint (h : Hw) (k v : Nat) : (h.setReg64 k v).syncTaint = h.syncTaint := rfl
@[simp] theorem Hw.setReg64_errMark (h : Hw) (k v : Nat) : (h.setReg64 k v).errMark = h.errMark := rfl
@[simp] theorem Hw.setReg64_me (h : Hw) (k v : Nat) : (h.setReg64 k v).me = h.me := rfl
@[simp] theorem Hw.setReg64_ve (h : Hw) (k v : Nat) : (h.setReg64 k v).ve = h.ve := rfl
@[simp] theorem Hw.setReg64_rtr (h : Hw) (k v : Nat) : (h.setReg64 k v).rtr = h.rtr := rfl
@[simp] theorem Hw.setReg64_resp (h : Hw) (k v : Nat) : (h.setReg64 k v).resp = h.resp := rfl
@[simp] theorem Hw.setReg64_objs (h : Hw) (k v : Nat) : (h.setReg64 k v).objs = h.objs := rfl
@[simp] theorem Hw.setReg64_plq (h : Hw) (k v : Nat) : (h.setReg64 k v).plq = h.plq := rfl
@[simp] theorem Hw.setReg64_plNext (h : Hw) (k v : Nat) : (h.setReg64 k v).plNext = h.plNext := rfl
@[simp] theorem Hw.setReg64_fills (h : Hw) (k v : Nat) : (h.setReg64 k v).fills = h.fills := rfl
@[simp] theorem Hw.setReg64_mv (h : Hw) (k v : Nat) : (h.setReg64 k v).mv = h.mv := rfl
@[simp] theorem Hw.setReg64_uc (h : Hw) (k v : Nat) : (h.setReg64 k v).uc = h.uc := rfl
@[simp] theorem Hw.setReg64_opl (h : Hw) (k v : Nat) : (h.setReg64 k v).opl = h.opl := rfl
@[simp] theorem Hw.setReg64_opp (h : Hw) (k v : Nat) : (h.setReg64 k v).opp = h.opp := rfl
@[simp] theorem Hw.setReg64_routes (h : Hw) (k v : Nat) : (h.setReg64 k v).routes = h.routes := rfl
@[simp] theorem Hw.setReg64_tb (h : Hw) (k v : Nat) : (h.setReg64 k v).tb = h.tb := rfl
@[simp] theorem Hw.setReg64_cal (h : Hw) (k v : Nat) : (h.setReg64 k v).cal = h.cal := rfl
@[simp] theorem Hw.setReg64_calBack (h : Hw) (k v : Nat) : (h.setReg64 k v).calBack = h.calBack := rfl
@[simp] theorem Hw.setReg64_sc (h : Hw) (k v : Nat) : (h.setReg64 k v).sc = h.sc := rfl
@[simp] theorem Hw.setReg64_pw (h : Hw) (k v : Nat) : (h.setReg64 k v).pw = h.pw := rfl
@[simp] theorem Hw.setReg64_hp (h : Hw) (k v : Nat) : (h.setReg64 k v).hp = h.hp := rfl
@[simp] theorem Hw.setReg64_fr (h : Hw) (k v : Nat) : (h.setReg64 k v).fr = h.fr := rfl
@[simp] theorem Hw.setReg64_fac (h : Hw) (k v : Nat) : (h.setReg64 k v).fac = h.fac := rfl
@[simp] theorem Hw.setReg64_flash (h : Hw) (k v : Nat) : (h.setReg64 k v).flash = h.flash := rfl
@[simp] theorem Hw.setReg64_boot (h : Hw) (k v : Nat) : (h.setReg64 k v).boot = h.boot := rfl
@[simp] theorem Hw.setReg64_sec (h : Hw) (k v : Nat) : (h.setReg64 k v).sec = h.sec := rfl
@[simp] theorem Hw.setReg64_outFields (h : Hw) (k v : Nat) : (h.setReg64 k v).outFields = h.outFields := rfl
@[simp] theorem Hw.emit_clk (h : Hw) (e : Emission) : (h.emit e).clk = h.clk := rfl
@[simp] theorem Hw.emit_freeCtr (h : Hw) (e : Emission) : (h.emit e).freeCtr = h.freeCtr := rfl
@[simp] theorem Hw.emit_evlog (h : Hw) (e : Emission) : (h.emit e).evlog = h.evlog := rfl
@[simp] theorem Hw.emit_mon (h : Hw) (e : Emission) : (h.emit e).mon = h.mon := rfl
@[simp] theorem Hw.emit_pads (h : Hw) (e : Emission) : (h.emit e).pads = h.pads := rfl
@[simp] theorem Hw.emit_nw (h : Hw) (e : Emission) : (h.emit e).nw = h.nw := rfl
@[simp] theorem Hw.emit_prov (h : Hw) (e : Emission) : (h.emit e).prov = h.prov := rfl
@[simp] theorem Hw.emit_sq (h : Hw) (e : Emission) : (h.emit e).sq = h.sq := rfl
@[simp] theorem Hw.emit_syncTaint (h : Hw) (e : Emission) : (h.emit e).syncTaint = h.syncTaint := rfl
@[simp] theorem Hw.emit_errMark (h : Hw) (e : Emission) : (h.emit e).errMark = h.errMark := rfl
@[simp] theorem Hw.emit_me (h : Hw) (e : Emission) : (h.emit e).me = h.me := rfl
@[simp] theorem Hw.emit_ve (h : Hw) (e : Emission) : (h.emit e).ve = h.ve := rfl
@[simp] theorem Hw.emit_rtr (h : Hw) (e : Emission) : (h.emit e).rtr = h.rtr := rfl
@[simp] theorem Hw.emit_resp (h : Hw) (e : Emission) : (h.emit e).resp = h.resp := rfl
@[simp] theorem Hw.emit_objs (h : Hw) (e : Emission) : (h.emit e).objs = h.objs := rfl
@[simp] theorem Hw.emit_plq (h : Hw) (e : Emission) : (h.emit e).plq = h.plq := rfl
@[simp] theorem Hw.emit_plNext (h : Hw) (e : Emission) : (h.emit e).plNext = h.plNext := rfl
@[simp] theorem Hw.emit_fills (h : Hw) (e : Emission) : (h.emit e).fills = h.fills := rfl
@[simp] theorem Hw.emit_mv (h : Hw) (e : Emission) : (h.emit e).mv = h.mv := rfl
@[simp] theorem Hw.emit_uc (h : Hw) (e : Emission) : (h.emit e).uc = h.uc := rfl
@[simp] theorem Hw.emit_opl (h : Hw) (e : Emission) : (h.emit e).opl = h.opl := rfl
@[simp] theorem Hw.emit_opp (h : Hw) (e : Emission) : (h.emit e).opp = h.opp := rfl
@[simp] theorem Hw.emit_routes (h : Hw) (e : Emission) : (h.emit e).routes = h.routes := rfl
@[simp] theorem Hw.emit_tb (h : Hw) (e : Emission) : (h.emit e).tb = h.tb := rfl
@[simp] theorem Hw.emit_cal (h : Hw) (e : Emission) : (h.emit e).cal = h.cal := rfl
@[simp] theorem Hw.emit_calBack (h : Hw) (e : Emission) : (h.emit e).calBack = h.calBack := rfl
@[simp] theorem Hw.emit_sc (h : Hw) (e : Emission) : (h.emit e).sc = h.sc := rfl
@[simp] theorem Hw.emit_pw (h : Hw) (e : Emission) : (h.emit e).pw = h.pw := rfl
@[simp] theorem Hw.emit_hp (h : Hw) (e : Emission) : (h.emit e).hp = h.hp := rfl
@[simp] theorem Hw.emit_fr (h : Hw) (e : Emission) : (h.emit e).fr = h.fr := rfl
@[simp] theorem Hw.emit_fac (h : Hw) (e : Emission) : (h.emit e).fac = h.fac := rfl
@[simp] theorem Hw.emit_flash (h : Hw) (e : Emission) : (h.emit e).flash = h.flash := rfl
@[simp] theorem Hw.emit_boot (h : Hw) (e : Emission) : (h.emit e).boot = h.boot := rfl
@[simp] theorem Hw.emit_sec (h : Hw) (e : Emission) : (h.emit e).sec = h.sec := rfl
@[simp] theorem Hw.emit_outFields (h : Hw) (e : Emission) : (h.emit e).outFields = h.outFields := rfl
@[simp] theorem Hw.setBlkState_clk (h : Hw) (p st : Nat) : (h.setBlkState p st).clk = h.clk := rfl
@[simp] theorem Hw.setBlkState_freeCtr (h : Hw) (p st : Nat) : (h.setBlkState p st).freeCtr = h.freeCtr := rfl
@[simp] theorem Hw.setBlkState_evlog (h : Hw) (p st : Nat) : (h.setBlkState p st).evlog = h.evlog := rfl
@[simp] theorem Hw.setBlkState_out (h : Hw) (p st : Nat) : (h.setBlkState p st).out = h.out := rfl
@[simp] theorem Hw.setBlkState_mon (h : Hw) (p st : Nat) : (h.setBlkState p st).mon = h.mon := rfl
@[simp] theorem Hw.setBlkState_pads (h : Hw) (p st : Nat) : (h.setBlkState p st).pads = h.pads := rfl
@[simp] theorem Hw.setBlkState_nw (h : Hw) (p st : Nat) : (h.setBlkState p st).nw = h.nw := rfl
@[simp] theorem Hw.setBlkState_prov (h : Hw) (p st : Nat) : (h.setBlkState p st).prov = h.prov := rfl
@[simp] theorem Hw.setBlkState_sq (h : Hw) (p st : Nat) : (h.setBlkState p st).sq = h.sq := rfl
@[simp] theorem Hw.setBlkState_syncTaint (h : Hw) (p st : Nat) : (h.setBlkState p st).syncTaint = h.syncTaint := rfl
@[simp] theorem Hw.setBlkState_errMark (h : Hw) (p st : Nat) : (h.setBlkState p st).errMark = h.errMark := rfl
@[simp] theorem Hw.setBlkState_me (h : Hw) (p st : Nat) : (h.setBlkState p st).me = h.me := rfl
@[simp] theorem Hw.setBlkState_ve (h : Hw) (p st : Nat) : (h.setBlkState p st).ve = h.ve := rfl
@[simp] theorem Hw.setBlkState_rtr (h : Hw) (p st : Nat) : (h.setBlkState p st).rtr = h.rtr := rfl
@[simp] theorem Hw.setBlkState_resp (h : Hw) (p st : Nat) : (h.setBlkState p st).resp = h.resp := rfl
@[simp] theorem Hw.setBlkState_objs (h : Hw) (p st : Nat) : (h.setBlkState p st).objs = h.objs := rfl
@[simp] theorem Hw.setBlkState_plq (h : Hw) (p st : Nat) : (h.setBlkState p st).plq = h.plq := rfl
@[simp] theorem Hw.setBlkState_plNext (h : Hw) (p st : Nat) : (h.setBlkState p st).plNext = h.plNext := rfl
@[simp] theorem Hw.setBlkState_fills (h : Hw) (p st : Nat) : (h.setBlkState p st).fills = h.fills := rfl
@[simp] theorem Hw.setBlkState_mv (h : Hw) (p st : Nat) : (h.setBlkState p st).mv = h.mv := rfl
@[simp] theorem Hw.setBlkState_uc (h : Hw) (p st : Nat) : (h.setBlkState p st).uc = h.uc := rfl
@[simp] theorem Hw.setBlkState_opl (h : Hw) (p st : Nat) : (h.setBlkState p st).opl = h.opl := rfl
@[simp] theorem Hw.setBlkState_opp (h : Hw) (p st : Nat) : (h.setBlkState p st).opp = h.opp := rfl
@[simp] theorem Hw.setBlkState_routes (h : Hw) (p st : Nat) : (h.setBlkState p st).routes = h.routes := rfl
@[simp] theorem Hw.setBlkState_tb (h : Hw) (p st : Nat) : (h.setBlkState p st).tb = h.tb := rfl
@[simp] theorem Hw.setBlkState_cal (h : Hw) (p st : Nat) : (h.setBlkState p st).cal = h.cal := rfl
@[simp] theorem Hw.setBlkState_calBack (h : Hw) (p st : Nat) : (h.setBlkState p st).calBack = h.calBack := rfl
@[simp] theorem Hw.setBlkState_sc (h : Hw) (p st : Nat) : (h.setBlkState p st).sc = h.sc := rfl
@[simp] theorem Hw.setBlkState_pw (h : Hw) (p st : Nat) : (h.setBlkState p st).pw = h.pw := rfl
@[simp] theorem Hw.setBlkState_hp (h : Hw) (p st : Nat) : (h.setBlkState p st).hp = h.hp := rfl
@[simp] theorem Hw.setBlkState_fr (h : Hw) (p st : Nat) : (h.setBlkState p st).fr = h.fr := rfl
@[simp] theorem Hw.setBlkState_fac (h : Hw) (p st : Nat) : (h.setBlkState p st).fac = h.fac := rfl
@[simp] theorem Hw.setBlkState_flash (h : Hw) (p st : Nat) : (h.setBlkState p st).flash = h.flash := rfl
@[simp] theorem Hw.setBlkState_boot (h : Hw) (p st : Nat) : (h.setBlkState p st).boot = h.boot := rfl
@[simp] theorem Hw.setBlkState_sec (h : Hw) (p st : Nat) : (h.setBlkState p st).sec = h.sec := rfl
@[simp] theorem Hw.setBlkState_outFields (h : Hw) (p st : Nat) : (h.setBlkState p st).outFields = h.outFields := rfl
@[simp] theorem Hw.emit_rf (h : Hw) (e : Emission) : (h.emit e).rf = h.rf := rfl
@[simp] theorem Hw.emit_out (h : Hw) (e : Emission) : (h.emit e).out = h.out ++ [e] := rfl

end Sys2Proof.Machine
end

