-- ==== Sys2Proof/Laws/Events.lean ====
section
/-! SUPPORT. What reporting an event, logging an error and answering a command can do: each once, for the proofs to cite. -/
namespace Sys2Proof.Machine

theorem Hw.Reports.refl (h : Hw) (ks : List Nat) : h.Reports h ks := ⟨rfl, fun _ _ => rfl⟩
theorem Hw.Reports.trans {a b c : Hw} {ks : List Nat} (x : a.Reports b ks) (y : b.Reports c ks) : a.Reports c ks := by
  refine ⟨?_, fun k hk => (y.2 k hk).trans (x.2 k hk)⟩
  rw [y.1, x.1]
theorem Hw.Reports.mono {a b : Hw} {ks js : List Nat} (x : a.Reports b ks) (h : ∀ k ∈ ks, k ∈ js) : a.Reports b js :=
  ⟨x.1, fun k hk => x.2 k fun hm => hk (h k hm)⟩
theorem Hw.Reports.setReg (h : Hw) (k : Nat) (v : Word) : h.Reports (h.setReg k v) [k] :=
  ⟨rfl, fun j hj => Hw.reg_setReg_other h k j v (by simpa using hj)⟩
theorem Hw.Reports.setReg64 (h : Hw) (k v : Nat) : h.Reports (h.setReg64 k v) [k, k + 4] :=
  ⟨rfl, fun j hj => Hw.reg_setReg64_other h k v j (by simp at hj; exact hj.1) (by simp at hj; exact hj.2)⟩
theorem Hw.Reports.foldl {α : Type} (l : List α) (f : Hw → α → Hw) (ks : List Nat) (hf : ∀ (h : Hw) (x : α), h.Reports (f h x) ks) (h : Hw) : h.Reports (l.foldl f h) ks := by
  induction l generalizing h with
  | nil => exact .refl h ks
  | cons x r ih => exact (hf h x).trans (ih (f h x))

theorem Hw.emit_reports (h : Hw) (e : Emission) (ks : List Nat) : h.Reports (h.emit e) ks := ⟨rfl, fun _ _ => rfl⟩
theorem Hw.logEntry_reports (h : Hw) (c b p i : Nat) (n : Option Paddock) : h.Reports (h.logEntry c b p i n) [pgEvlog + Reg.evlog.evlogSeq] :=
  ⟨rfl, fun k hk => Hw.reg_setReg_other _ _ _ _ (by simpa using hk)⟩
theorem Hw.setMsix_reports (h : Hw) (p : HostId) (o : Nat) (v : Word) : h.Reports (h.setMsix p o v) [] := ⟨rfl, fun _ _ => rfl⟩
theorem Hw.sendVector_reports (h : Hw) (p : HostId) (v : Nat) : h.Reports (h.sendVector p v) [pgHostPort p + Reg.hostPort.hpEvtSent] := by
  unfold Hw.sendVector
  split
  · exact (Hw.setMsix_reports ..).mono (by simp)
  · exact ⟨rfl, fun k hk => Hw.reg_setReg_other _ _ _ _ (by simpa using hk)⟩
theorem Hw.notify_reports (h : Hw) (p : HostId) (ev : Nat) : h.Reports (h.notify p ev) [pgHostPort p + Reg.hostPort.hpEvtSent] := by
  unfold Hw.notify
  dsimp only
  split
  · exact Hw.sendVector_reports ..
  · exact .refl ..
/-- Sending events to ports changes their counts, their MSI-X areas and what was sent. -/
theorem Hw.notifyAll_reports (h : Hw) (ps : List HostId) (ev : Nat) :
    h.Reports (h.notifyAll ps ev) [pgHostPort 0 + Reg.hostPort.hpEvtSent, pgHostPort 1 + Reg.hostPort.hpEvtSent] :=
  .foldl ps _ _ (fun h p => (Hw.notify_reports h p ev).mono (by
    intro k hk
    rcases (by decide +revert : p = 0 ∨ p = 1) with rfl | rfl <;> simp_all)) h
theorem Hw.routeEvent_reports (h : Hw) (page : Nat) :
    h.Reports (h.routeEvent page) [pgHostPort 0 + Reg.hostPort.hpEvtSent, pgHostPort 1 + Reg.hostPort.hpEvtSent] := by
  unfold Hw.routeEvent
  split
  · exact .refl ..
  · split
    · split
      · split
        · exact (Hw.notify_reports ..).mono (by simp)
        · exact (Hw.notify_reports ..).mono (by simp)
      · exact Hw.notifyAll_reports ..
    · exact Hw.notifyAll_reports ..
/-- Everything that raising an event can change. -/
theorem Hw.raise_reports (h : Hw) (page bit : Nat) : h.Reports (h.raise page bit) (eventRegs page) := by
  unfold Hw.raise
  dsimp only
  have h1 := (Hw.Reports.setReg h (page + 0x010) (h.reg (page + 0x010) ||| BitVec.ofNat 32 (1 <<< bit))).mono (js := eventRegs page) (by simp [eventRegs])
  split
  · refine h1.trans ?_
    refine (Hw.emit_reports _ (.report page bit) (eventRegs page)).trans ?_
    have h3 := fun (g : Hw) (n : Option Paddock) => (Hw.logEntry_reports g 0 bit page 0 n).mono (js := eventRegs page) (by simp [eventRegs])
    split
    · exact h3 ..
    · exact (h3 ..).trans ((Hw.routeEvent_reports ..).mono (by simp [eventRegs]))
  · exact h1
/-- Everything that logging an error can change. -/
theorem Hw.logError_reports (h : Hw) (page addr info : Nat) : h.Reports (h.logError page addr info) (errorRegs page) := by
  unfold Hw.logError
  dsimp only
  have h1 := fun (g : Hw) (n : Option Paddock) => (Hw.logEntry_reports g 1 0xFF page info n).mono (js := errorRegs page) (by simp [errorRegs, eventRegs])
  split
  · refine (h1 ..).trans ((Hw.Reports.setReg _ (page + 0x02C) _).mono (by simp [errorRegs]))
  · refine (h1 h (h.paddockOfPage page)).trans (.trans (b := ((Hw.setReg64 _ (page + 0x024) addr).setFld (page + 0x02C) 0 16 info)) ?_ ((Hw.raise_reports ..).mono (fun k hk => List.mem_append_right _ hk)))
    exact ((Hw.Reports.setReg64 _ (page + 0x024) addr).mono (by simp [errorRegs])).trans ((Hw.Reports.setReg _ (page + 0x02C) _).mono (by simp [errorRegs]))
theorem Hw.Reports.reg {a b : Hw} {ks : List Nat} (x : a.Reports b ks) {k : Nat} (h : k ∉ ks) : b.reg k = a.reg k := x.2 k h
@[simp] theorem Hw.raise_clk (h : Hw) (p b : Nat) : (h.raise p b).clk = h.clk := (congrArg Hw.clk (Hw.raise_reports h p b).1 :)
@[simp] theorem Hw.raise_freeCtr (h : Hw) (p b : Nat) : (h.raise p b).freeCtr = h.freeCtr := (congrArg Hw.freeCtr (Hw.raise_reports h p b).1 :)
@[simp] theorem Hw.raise_mon (h : Hw) (p b : Nat) : (h.raise p b).mon = h.mon := (congrArg Hw.mon (Hw.raise_reports h p b).1 :)
@[simp] theorem Hw.raise_pads (h : Hw) (p b : Nat) : (h.raise p b).pads = h.pads := (congrArg Hw.pads (Hw.raise_reports h p b).1 :)
@[simp] theorem Hw.raise_nw (h : Hw) (p b : Nat) : (h.raise p b).nw = h.nw := (congrArg Hw.nw (Hw.raise_reports h p b).1 :)
@[simp] theorem Hw.raise_prov (h : Hw) (p b : Nat) : (h.raise p b).prov = h.prov := (congrArg Hw.prov (Hw.raise_reports h p b).1 :)
@[simp] theorem Hw.raise_sq (h : Hw) (p b : Nat) : (h.raise p b).sq = h.sq := (congrArg Hw.sq (Hw.raise_reports h p b).1 :)
@[simp] theorem Hw.raise_syncTaint (h : Hw) (p b : Nat) : (h.raise p b).syncTaint = h.syncTaint := (congrArg Hw.syncTaint (Hw.raise_reports h p b).1 :)
@[simp] theorem Hw.raise_errMark (h : Hw) (p b : Nat) : (h.raise p b).errMark = h.errMark := (congrArg Hw.errMark (Hw.raise_reports h p b).1 :)
@[simp] theorem Hw.raise_me (h : Hw) (p b : Nat) : (h.raise p b).me = h.me := (congrArg Hw.me (Hw.raise_reports h p b).1 :)
@[simp] theorem Hw.raise_ve (h : Hw) (p b : Nat) : (h.raise p b).ve = h.ve := (congrArg Hw.ve (Hw.raise_reports h p b).1 :)
@[simp] theorem Hw.raise_rtr (h : Hw) (p b : Nat) : (h.raise p b).rtr = h.rtr := (congrArg Hw.rtr (Hw.raise_reports h p b).1 :)
@[simp] theorem Hw.raise_resp (h : Hw) (p b : Nat) : (h.raise p b).resp = h.resp := (congrArg Hw.resp (Hw.raise_reports h p b).1 :)
@[simp] theorem Hw.raise_objs (h : Hw) (p b : Nat) : (h.raise p b).objs = h.objs := (congrArg Hw.objs (Hw.raise_reports h p b).1 :)
@[simp] theorem Hw.raise_plq (h : Hw) (p b : Nat) : (h.raise p b).plq = h.plq := (congrArg Hw.plq (Hw.raise_reports h p b).1 :)
@[simp] theorem Hw.raise_plNext (h : Hw) (p b : Nat) : (h.raise p b).plNext = h.plNext := (congrArg Hw.plNext (Hw.raise_reports h p b).1 :)
@[simp] theorem Hw.raise_fills (h : Hw) (p b : Nat) : (h.raise p b).fills = h.fills := (congrArg Hw.fills (Hw.raise_reports h p b).1 :)
@[simp] theorem Hw.raise_mv (h : Hw) (p b : Nat) : (h.raise p b).mv = h.mv := (congrArg Hw.mv (Hw.raise_reports h p b).1 :)
@[simp] theorem Hw.raise_uc (h : Hw) (p b : Nat) : (h.raise p b).uc = h.uc := (congrArg Hw.uc (Hw.raise_reports h p b).1 :)
@[simp] theorem Hw.raise_opl (h : Hw) (p b : Nat) : (h.raise p b).opl = h.opl := (congrArg Hw.opl (Hw.raise_reports h p b).1 :)
@[simp] theorem Hw.raise_opp (h : Hw) (p b : Nat) : (h.raise p b).opp = h.opp := (congrArg Hw.opp (Hw.raise_reports h p b).1 :)
@[simp] theorem Hw.raise_routes (h : Hw) (p b : Nat) : (h.raise p b).routes = h.routes := (congrArg Hw.routes (Hw.raise_reports h p b).1 :)
@[simp] theorem Hw.raise_tb (h : Hw) (p b : Nat) : (h.raise p b).tb = h.tb := (congrArg Hw.tb (Hw.raise_reports h p b).1 :)
@[simp] theorem Hw.raise_cal (h : Hw) (p b : Nat) : (h.raise p b).cal = h.cal := (congrArg Hw.cal (Hw.raise_reports h p b).1 :)
@[simp] theorem Hw.raise_calBack (h : Hw) (p b : Nat) : (h.raise p b).calBack = h.calBack := (congrArg Hw.calBack (Hw.raise_reports h p b).1 :)
@[simp] theorem Hw.raise_sc (h : Hw) (p b : Nat) : (h.raise p b).sc = h.sc := (congrArg Hw.sc (Hw.raise_reports h p b).1 :)
@[simp] theorem Hw.raise_pw (h : Hw) (p b : Nat) : (h.raise p b).pw = h.pw := (congrArg Hw.pw (Hw.raise_reports h p b).1 :)
@[simp] theorem Hw.raise_hp (h : Hw) (p b : Nat) : (h.raise p b).hp = h.hp := (congrArg Hw.hp (Hw.raise_reports h p b).1 :)
@[simp] theorem Hw.raise_fr (h : Hw) (p b : Nat) : (h.raise p b).fr = h.fr := (congrArg Hw.fr (Hw.raise_reports h p b).1 :)
@[simp] theorem Hw.raise_fac (h : Hw) (p b : Nat) : (h.raise p b).fac = h.fac := (congrArg Hw.fac (Hw.raise_reports h p b).1 :)
@[simp] theorem Hw.raise_flash (h : Hw) (p b : Nat) : (h.raise p b).flash = h.flash := (congrArg Hw.flash (Hw.raise_reports h p b).1 :)
@[simp] theorem Hw.raise_boot (h : Hw) (p b : Nat) : (h.raise p b).boot = h.boot := (congrArg Hw.boot (Hw.raise_reports h p b).1 :)
@[simp] theorem Hw.raise_sec (h : Hw) (p b : Nat) : (h.raise p b).sec = h.sec := (congrArg Hw.sec (Hw.raise_reports h p b).1 :)
@[simp] theorem Hw.raise_outFields (h : Hw) (p b : Nat) : (h.raise p b).outFields = h.outFields := (congrArg Hw.outFields (Hw.raise_reports h p b).1 :)
@[simp] theorem Hw.logError_clk (h : Hw) (p a i : Nat) : (h.logError p a i).clk = h.clk := (congrArg Hw.clk (Hw.logError_reports h p a i).1 :)
@[simp] theorem Hw.logError_freeCtr (h : Hw) (p a i : Nat) : (h.logError p a i).freeCtr = h.freeCtr := (congrArg Hw.freeCtr (Hw.logError_reports h p a i).1 :)
@[simp] theorem Hw.logError_mon (h : Hw) (p a i : Nat) : (h.logError p a i).mon = h.mon := (congrArg Hw.mon (Hw.logError_reports h p a i).1 :)
@[simp] theorem Hw.logError_pads (h : Hw) (p a i : Nat) : (h.logError p a i).pads = h.pads := (congrArg Hw.pads (Hw.logError_reports h p a i).1 :)
@[simp] theorem Hw.logError_nw (h : Hw) (p a i : Nat) : (h.logError p a i).nw = h.nw := (congrArg Hw.nw (Hw.logError_reports h p a i).1 :)
@[simp] theorem Hw.logError_prov (h : Hw) (p a i : Nat) : (h.logError p a i).prov = h.prov := (congrArg Hw.prov (Hw.logError_reports h p a i).1 :)
@[simp] theorem Hw.logError_sq (h : Hw) (p a i : Nat) : (h.logError p a i).sq = h.sq := (congrArg Hw.sq (Hw.logError_reports h p a i).1 :)
@[simp] theorem Hw.logError_syncTaint (h : Hw) (p a i : Nat) : (h.logError p a i).syncTaint = h.syncTaint := (congrArg Hw.syncTaint (Hw.logError_reports h p a i).1 :)
@[simp] theorem Hw.logError_errMark (h : Hw) (p a i : Nat) : (h.logError p a i).errMark = h.errMark := (congrArg Hw.errMark (Hw.logError_reports h p a i).1 :)
@[simp] theorem Hw.logError_me (h : Hw) (p a i : Nat) : (h.logError p a i).me = h.me := (congrArg Hw.me (Hw.logError_reports h p a i).1 :)
@[simp] theorem Hw.logError_ve (h : Hw) (p a i : Nat) : (h.logError p a i).ve = h.ve := (congrArg Hw.ve (Hw.logError_reports h p a i).1 :)
@[simp] theorem Hw.logError_rtr (h : Hw) (p a i : Nat) : (h.logError p a i).rtr = h.rtr := (congrArg Hw.rtr (Hw.logError_reports h p a i).1 :)
@[simp] theorem Hw.logError_resp (h : Hw) (p a i : Nat) : (h.logError p a i).resp = h.resp := (congrArg Hw.resp (Hw.logError_reports h p a i).1 :)
@[simp] theorem Hw.logError_objs (h : Hw) (p a i : Nat) : (h.logError p a i).objs = h.objs := (congrArg Hw.objs (Hw.logError_reports h p a i).1 :)
@[simp] theorem Hw.logError_plq (h : Hw) (p a i : Nat) : (h.logError p a i).plq = h.plq := (congrArg Hw.plq (Hw.logError_reports h p a i).1 :)
@[simp] theorem Hw.logError_plNext (h : Hw) (p a i : Nat) : (h.logError p a i).plNext = h.plNext := (congrArg Hw.plNext (Hw.logError_reports h p a i).1 :)
@[simp] theorem Hw.logError_fills (h : Hw) (p a i : Nat) : (h.logError p a i).fills = h.fills := (congrArg Hw.fills (Hw.logError_reports h p a i).1 :)
@[simp] theorem Hw.logError_mv (h : Hw) (p a i : Nat) : (h.logError p a i).mv = h.mv := (congrArg Hw.mv (Hw.logError_reports h p a i).1 :)
@[simp] theorem Hw.logError_uc (h : Hw) (p a i : Nat) : (h.logError p a i).uc = h.uc := (congrArg Hw.uc (Hw.logError_reports h p a i).1 :)
@[simp] theorem Hw.logError_opl (h : Hw) (p a i : Nat) : (h.logError p a i).opl = h.opl := (congrArg Hw.opl (Hw.logError_reports h p a i).1 :)
@[simp] theorem Hw.logError_opp (h : Hw) (p a i : Nat) : (h.logError p a i).opp = h.opp := (congrArg Hw.opp (Hw.logError_reports h p a i).1 :)
@[simp] theorem Hw.logError_routes (h : Hw) (p a i : Nat) : (h.logError p a i).routes = h.routes := (congrArg Hw.routes (Hw.logError_reports h p a i).1 :)
@[simp] theorem Hw.logError_tb (h : Hw) (p a i : Nat) : (h.logError p a i).tb = h.tb := (congrArg Hw.tb (Hw.logError_reports h p a i).1 :)
@[simp] theorem Hw.logError_cal (h : Hw) (p a i : Nat) : (h.logError p a i).cal = h.cal := (congrArg Hw.cal (Hw.logError_reports h p a i).1 :)
@[simp] theorem Hw.logError_calBack (h : Hw) (p a i : Nat) : (h.logError p a i).calBack = h.calBack := (congrArg Hw.calBack (Hw.logError_reports h p a i).1 :)
@[simp] theorem Hw.logError_sc (h : Hw) (p a i : Nat) : (h.logError p a i).sc = h.sc := (congrArg Hw.sc (Hw.logError_reports h p a i).1 :)
@[simp] theorem Hw.logError_pw (h : Hw) (p a i : Nat) : (h.logError p a i).pw = h.pw := (congrArg Hw.pw (Hw.logError_reports h p a i).1 :)
@[simp] theorem Hw.logError_hp (h : Hw) (p a i : Nat) : (h.logError p a i).hp = h.hp := (congrArg Hw.hp (Hw.logError_reports h p a i).1 :)
@[simp] theorem Hw.logError_fr (h : Hw) (p a i : Nat) : (h.logError p a i).fr = h.fr := (congrArg Hw.fr (Hw.logError_reports h p a i).1 :)
@[simp] theorem Hw.logError_fac (h : Hw) (p a i : Nat) : (h.logError p a i).fac = h.fac := (congrArg Hw.fac (Hw.logError_reports h p a i).1 :)
@[simp] theorem Hw.logError_flash (h : Hw) (p a i : Nat) : (h.logError p a i).flash = h.flash := (congrArg Hw.flash (Hw.logError_reports h p a i).1 :)
@[simp] theorem Hw.logError_boot (h : Hw) (p a i : Nat) : (h.logError p a i).boot = h.boot := (congrArg Hw.boot (Hw.logError_reports h p a i).1 :)
@[simp] theorem Hw.logError_sec (h : Hw) (p a i : Nat) : (h.logError p a i).sec = h.sec := (congrArg Hw.sec (Hw.logError_reports h p a i).1 :)
@[simp] theorem Hw.logError_outFields (h : Hw) (p a i : Nat) : (h.logError p a i).outFields = h.outFields := (congrArg Hw.outFields (Hw.logError_reports h p a i).1 :)
@[simp] theorem Hw.logEntry_clk (h : Hw) (c b p i : Nat) (n : Option Paddock) : (h.logEntry c b p i n).clk = h.clk := (congrArg Hw.clk (Hw.logEntry_reports h c b p i n).1 :)
@[simp] theorem Hw.logEntry_freeCtr (h : Hw) (c b p i : Nat) (n : Option Paddock) : (h.logEntry c b p i n).freeCtr = h.freeCtr := (congrArg Hw.freeCtr (Hw.logEntry_reports h c b p i n).1 :)
@[simp] theorem Hw.logEntry_mon (h : Hw) (c b p i : Nat) (n : Option Paddock) : (h.logEntry c b p i n).mon = h.mon := (congrArg Hw.mon (Hw.logEntry_reports h c b p i n).1 :)
@[simp] theorem Hw.logEntry_pads (h : Hw) (c b p i : Nat) (n : Option Paddock) : (h.logEntry c b p i n).pads = h.pads := (congrArg Hw.pads (Hw.logEntry_reports h c b p i n).1 :)
@[simp] theorem Hw.logEntry_nw (h : Hw) (c b p i : Nat) (n : Option Paddock) : (h.logEntry c b p i n).nw = h.nw := (congrArg Hw.nw (Hw.logEntry_reports h c b p i n).1 :)
@[simp] theorem Hw.logEntry_prov (h : Hw) (c b p i : Nat) (n : Option Paddock) : (h.logEntry c b p i n).prov = h.prov := (congrArg Hw.prov (Hw.logEntry_reports h c b p i n).1 :)
@[simp] theorem Hw.logEntry_sq (h : Hw) (c b p i : Nat) (n : Option Paddock) : (h.logEntry c b p i n).sq = h.sq := (congrArg Hw.sq (Hw.logEntry_reports h c b p i n).1 :)
@[simp] theorem Hw.logEntry_syncTaint (h : Hw) (c b p i : Nat) (n : Option Paddock) : (h.logEntry c b p i n).syncTaint = h.syncTaint := (congrArg Hw.syncTaint (Hw.logEntry_reports h c b p i n).1 :)
@[simp] theorem Hw.logEntry_errMark (h : Hw) (c b p i : Nat) (n : Option Paddock) : (h.logEntry c b p i n).errMark = h.errMark := (congrArg Hw.errMark (Hw.logEntry_reports h c b p i n).1 :)
@[simp] theorem Hw.logEntry_me (h : Hw) (c b p i : Nat) (n : Option Paddock) : (h.logEntry c b p i n).me = h.me := (congrArg Hw.me (Hw.logEntry_reports h c b p i n).1 :)
@[simp] theorem Hw.logEntry_ve (h : Hw) (c b p i : Nat) (n : Option Paddock) : (h.logEntry c b p i n).ve = h.ve := (congrArg Hw.ve (Hw.logEntry_reports h c b p i n).1 :)
@[simp] theorem Hw.logEntry_rtr (h : Hw) (c b p i : Nat) (n : Option Paddock) : (h.logEntry c b p i n).rtr = h.rtr := (congrArg Hw.rtr (Hw.logEntry_reports h c b p i n).1 :)
@[simp] theorem Hw.logEntry_resp (h : Hw) (c b p i : Nat) (n : Option Paddock) : (h.logEntry c b p i n).resp = h.resp := (congrArg Hw.resp (Hw.logEntry_reports h c b p i n).1 :)
@[simp] theorem Hw.logEntry_objs (h : Hw) (c b p i : Nat) (n : Option Paddock) : (h.logEntry c b p i n).objs = h.objs := (congrArg Hw.objs (Hw.logEntry_reports h c b p i n).1 :)
@[simp] theorem Hw.logEntry_plq (h : Hw) (c b p i : Nat) (n : Option Paddock) : (h.logEntry c b p i n).plq = h.plq := (congrArg Hw.plq (Hw.logEntry_reports h c b p i n).1 :)
@[simp] theorem Hw.logEntry_plNext (h : Hw) (c b p i : Nat) (n : Option Paddock) : (h.logEntry c b p i n).plNext = h.plNext := (congrArg Hw.plNext (Hw.logEntry_reports h c b p i n).1 :)
@[simp] theorem Hw.logEntry_fills (h : Hw) (c b p i : Nat) (n : Option Paddock) : (h.logEntry c b p i n).fills = h.fills := (congrArg Hw.fills (Hw.logEntry_reports h c b p i n).1 :)
@[simp] theorem Hw.logEntry_mv (h : Hw) (c b p i : Nat) (n : Option Paddock) : (h.logEntry c b p i n).mv = h.mv := (congrArg Hw.mv (Hw.logEntry_reports h c b p i n).1 :)
@[simp] theorem Hw.logEntry_uc (h : Hw) (c b p i : Nat) (n : Option Paddock) : (h.logEntry c b p i n).uc = h.uc := (congrArg Hw.uc (Hw.logEntry_reports h c b p i n).1 :)
@[simp] theorem Hw.logEntry_opl (h : Hw) (c b p i : Nat) (n : Option Paddock) : (h.logEntry c b p i n).opl = h.opl := (congrArg Hw.opl (Hw.logEntry_reports h c b p i n).1 :)
@[simp] theorem Hw.logEntry_opp (h : Hw) (c b p i : Nat) (n : Option Paddock) : (h.logEntry c b p i n).opp = h.opp := (congrArg Hw.opp (Hw.logEntry_reports h c b p i n).1 :)
@[simp] theorem Hw.logEntry_routes (h : Hw) (c b p i : Nat) (n : Option Paddock) : (h.logEntry c b p i n).routes = h.routes := (congrArg Hw.routes (Hw.logEntry_reports h c b p i n).1 :)
@[simp] theorem Hw.logEntry_tb (h : Hw) (c b p i : Nat) (n : Option Paddock) : (h.logEntry c b p i n).tb = h.tb := (congrArg Hw.tb (Hw.logEntry_reports h c b p i n).1 :)
@[simp] theorem Hw.logEntry_cal (h : Hw) (c b p i : Nat) (n : Option Paddock) : (h.logEntry c b p i n).cal = h.cal := (congrArg Hw.cal (Hw.logEntry_reports h c b p i n).1 :)
@[simp] theorem Hw.logEntry_calBack (h : Hw) (c b p i : Nat) (n : Option Paddock) : (h.logEntry c b p i n).calBack = h.calBack := (congrArg Hw.calBack (Hw.logEntry_reports h c b p i n).1 :)
@[simp] theorem Hw.logEntry_sc (h : Hw) (c b p i : Nat) (n : Option Paddock) : (h.logEntry c b p i n).sc = h.sc := (congrArg Hw.sc (Hw.logEntry_reports h c b p i n).1 :)
@[simp] theorem Hw.logEntry_pw (h : Hw) (c b p i : Nat) (n : Option Paddock) : (h.logEntry c b p i n).pw = h.pw := (congrArg Hw.pw (Hw.logEntry_reports h c b p i n).1 :)
@[simp] theorem Hw.logEntry_hp (h : Hw) (c b p i : Nat) (n : Option Paddock) : (h.logEntry c b p i n).hp = h.hp := (congrArg Hw.hp (Hw.logEntry_reports h c b p i n).1 :)
@[simp] theorem Hw.logEntry_fr (h : Hw) (c b p i : Nat) (n : Option Paddock) : (h.logEntry c b p i n).fr = h.fr := (congrArg Hw.fr (Hw.logEntry_reports h c b p i n).1 :)
@[simp] theorem Hw.logEntry_fac (h : Hw) (c b p i : Nat) (n : Option Paddock) : (h.logEntry c b p i n).fac = h.fac := (congrArg Hw.fac (Hw.logEntry_reports h c b p i n).1 :)
@[simp] theorem Hw.logEntry_flash (h : Hw) (c b p i : Nat) (n : Option Paddock) : (h.logEntry c b p i n).flash = h.flash := (congrArg Hw.flash (Hw.logEntry_reports h c b p i n).1 :)
@[simp] theorem Hw.logEntry_boot (h : Hw) (c b p i : Nat) (n : Option Paddock) : (h.logEntry c b p i n).boot = h.boot := (congrArg Hw.boot (Hw.logEntry_reports h c b p i n).1 :)
@[simp] theorem Hw.logEntry_sec (h : Hw) (c b p i : Nat) (n : Option Paddock) : (h.logEntry c b p i n).sec = h.sec := (congrArg Hw.sec (Hw.logEntry_reports h c b p i n).1 :)
@[simp] theorem Hw.logEntry_outFields (h : Hw) (c b p i : Nat) (n : Option Paddock) : (h.logEntry c b p i n).outFields = h.outFields := (congrArg Hw.outFields (Hw.logEntry_reports h c b p i n).1 :)

/-- The event bit is set, whatever else raising does (R414). -/
theorem Hw.raise_reg_event (h : Hw) (page bit : Nat) (hp : page % 4096 = 0) :
    (h.raise page bit).reg (page + 0x010) = h.reg (page + 0x010) ||| BitVec.ofNat 32 (1 <<< bit) := by
  have n0 : page + 0x010 ≠ pgEvlog + Reg.evlog.evlogSeq := by
    have : (pgEvlog + Reg.evlog.evlogSeq) % 4096 = 0x100 := by decide
    omega
  have n1 : page + 0x010 ∉ [pgHostPort 0 + Reg.hostPort.hpEvtSent, pgHostPort 1 + Reg.hostPort.hpEvtSent] := by
    have : (pgHostPort 0 + Reg.hostPort.hpEvtSent) % 4096 ≠ 0x10 := by decide
    have : (pgHostPort 1 + Reg.hostPort.hpEvtSent) % 4096 ≠ 0x10 := by decide
    simp only [List.mem_cons, List.not_mem_nil, or_false, not_or]
    omega
  unfold Hw.raise
  dsimp only
  split
  · split
    · rw [(Hw.logEntry_reports ..).reg (by simpa using n0)]; simp
    · rw [(Hw.routeEvent_reports ..).reg n1, (Hw.logEntry_reports ..).reg (by simpa using n0)]; simp
  · simp
/-- Clearing registers gives each its reset value and leaves the others. -/
theorem Hw.reg_clearRegs (h : Hw) (page : Nat) (offs : List Nat) (k : Nat) :
    (h.clearRegs page offs).reg k = if k ∈ offs.map (page + ·) then BitVec.ofNat 32 (resetOf k) else h.reg k := by
  unfold Hw.clearRegs
  induction offs generalizing h with
  | nil => simp
  | cons o r ih =>
    rw [List.foldl_cons, ih]
    by_cases hk : k = page + o
    · simp [hk, Hw.reg_setRegN]
    · simp [hk, Hw.reg_setRegN]
theorem Hw.clearRegs_rest (h : Hw) (page : Nat) (offs : List Nat) :
    h.clearRegs page offs = { h with rf := { h.rf with words := (h.clearRegs page offs).rf.words } } := by
  unfold Hw.clearRegs
  induction offs generalizing h with
  | nil => rfl
  | cons o r ih => exact ih _
/-- A command's result: the result word of the page, and on the host pages the path's own. -/
theorem Hw.reg_cmdResult (h : Hw) (p : Path) (page code : Nat) (r : CmdRes) (k : Nat) :
    (h.cmdResult p page code r).reg k = if k = page + 0x020 then resultWord p code r else h.reg k := by
  unfold Hw.cmdResult
  dsimp only
  split <;> exact Hw.reg_setReg ..
theorem Hw.cmdResult_rest (h : Hw) (p : Path) (page code : Nat) (r : CmdRes) :
    h.cmdResult p page code r = { h with rf := { h.rf with words := (h.cmdResult p page code r).rf.words, pathResult := (h.cmdResult p page code r).rf.pathResult } } := by
  unfold Hw.cmdResult
  dsimp only
  split <;> rfl
@[simp] theorem Hw.cmdResult_evlog (h : Hw) (p : Path) (page code : Nat) (r : CmdRes) : (h.cmdResult p page code r).evlog = h.evlog := (congrArg Hw.evlog (Hw.cmdResult_rest h p page code r) :)
@[simp] theorem Hw.cmdResult_out (h : Hw) (p : Path) (page code : Nat) (r : CmdRes) : (h.cmdResult p page code r).out = h.out := (congrArg Hw.out (Hw.cmdResult_rest h p page code r) :)
@[simp] theorem Hw.cmdResult_clk (h : Hw) (p : Path) (page code : Nat) (r : CmdRes) : (h.cmdResult p page code r).clk = h.clk := (congrArg Hw.clk (Hw.cmdResult_rest h p page code r) :)
@[simp] theorem Hw.cmdResult_freeCtr (h : Hw) (p : Path) (page code : Nat) (r : CmdRes) : (h.cmdResult p page code r).freeCtr = h.freeCtr := (congrArg Hw.freeCtr (Hw.cmdResult_rest h p page code r) :)
@[simp] theorem Hw.cmdResult_mon (h : Hw) (p : Path) (page code : Nat) (r : CmdRes) : (h.cmdResult p page code r).mon = h.mon := (congrArg Hw.mon (Hw.cmdResult_rest h p page code r) :)
@[simp] theorem Hw.cmdResult_pads (h : Hw) (p : Path) (page code : Nat) (r : CmdRes) : (h.cmdResult p page code r).pads = h.pads := (congrArg Hw.pads (Hw.cmdResult_rest h p page code r) :)
@[simp] theorem Hw.cmdResult_nw (h : Hw) (p : Path) (page code : Nat) (r : CmdRes) : (h.cmdResult p page code r).nw = h.nw := (congrArg Hw.nw (Hw.cmdResult_rest h p page code r) :)
@[simp] theorem Hw.cmdResult_prov (h : Hw) (p : Path) (page code : Nat) (r : CmdRes) : (h.cmdResult p page code r).prov = h.prov := (congrArg Hw.prov (Hw.cmdResult_rest h p page code r) :)
@[simp] theorem Hw.cmdResult_sq (h : Hw) (p : Path) (page code : Nat) (r : CmdRes) : (h.cmdResult p page code r).sq = h.sq := (congrArg Hw.sq (Hw.cmdResult_rest h p page code r) :)
@[simp] theorem Hw.cmdResult_syncTaint (h : Hw) (p : Path) (page code : Nat) (r : CmdRes) : (h.cmdResult p page code r).syncTaint = h.syncTaint := (congrArg Hw.syncTaint (Hw.cmdResult_rest h p page code r) :)
@[simp] theorem Hw.cmdResult_errMark (h : Hw) (p : Path) (page code : Nat) (r : CmdRes) : (h.cmdResult p page code r).errMark = h.errMark := (congrArg Hw.errMark (Hw.cmdResult_rest h p page code r) :)
@[simp] theorem Hw.cmdResult_me (h : Hw) (p : Path) (page code : Nat) (r : CmdRes) : (h.cmdResult p page code r).me = h.me := (congrArg Hw.me (Hw.cmdResult_rest h p page code r) :)
@[simp] theorem Hw.cmdResult_ve (h : Hw) (p : Path) (page code : Nat) (r : CmdRes) : (h.cmdResult p page code r).ve = h.ve := (congrArg Hw.ve (Hw.cmdResult_rest h p page code r) :)
@[simp] theorem Hw.cmdResult_rtr (h : Hw) (p : Path) (page code : Nat) (r : CmdRes) : (h.cmdResult p page code r).rtr = h.rtr := (congrArg Hw.rtr (Hw.cmdResult_rest h p page code r) :)
@[simp] theorem Hw.cmdResult_resp (h : Hw) (p : Path) (page code : Nat) (r : CmdRes) : (h.cmdResult p page code r).resp = h.resp := (congrArg Hw.resp (Hw.cmdResult_rest h p page code r) :)
@[simp] theorem Hw.cmdResult_objs (h : Hw) (p : Path) (page code : Nat) (r : CmdRes) : (h.cmdResult p page code r).objs = h.objs := (congrArg Hw.objs (Hw.cmdResult_rest h p page code r) :)
@[simp] theorem Hw.cmdResult_plq (h : Hw) (p : Path) (page code : Nat) (r : CmdRes) : (h.cmdResult p page code r).plq = h.plq := (congrArg Hw.plq (Hw.cmdResult_rest h p page code r) :)
@[simp] theorem Hw.cmdResult_plNext (h : Hw) (p : Path) (page code : Nat) (r : CmdRes) : (h.cmdResult p page code r).plNext = h.plNext := (congrArg Hw.plNext (Hw.cmdResult_rest h p page code r) :)
@[simp] theorem Hw.cmdResult_fills (h : Hw) (p : Path) (page code : Nat) (r : CmdRes) : (h.cmdResult p page code r).fills = h.fills := (congrArg Hw.fills (Hw.cmdResult_rest h p page code r) :)
@[simp] theorem Hw.cmdResult_mv (h : Hw) (p : Path) (page code : Nat) (r : CmdRes) : (h.cmdResult p page code r).mv = h.mv := (congrArg Hw.mv (Hw.cmdResult_rest h p page code r) :)
@[simp] theorem Hw.cmdResult_uc (h : Hw) (p : Path) (page code : Nat) (r : CmdRes) : (h.cmdResult p page code r).uc = h.uc := (congrArg Hw.uc (Hw.cmdResult_rest h p page code r) :)
@[simp] theorem Hw.cmdResult_opl (h : Hw) (p : Path) (page code : Nat) (r : CmdRes) : (h.cmdResult p page code r).opl = h.opl := (congrArg Hw.opl (Hw.cmdResult_rest h p page code r) :)
@[simp] theorem Hw.cmdResult_opp (h : Hw) (p : Path) (page code : Nat) (r : CmdRes) : (h.cmdResult p page code r).opp = h.opp := (congrArg Hw.opp (Hw.cmdResult_rest h p page code r) :)
@[simp] theorem Hw.cmdResult_routes (h : Hw) (p : Path) (page code : Nat) (r : CmdRes) : (h.cmdResult p page code r).routes = h.routes := (congrArg Hw.routes (Hw.cmdResult_rest h p page code r) :)
@[simp] theorem Hw.cmdResult_tb (h : Hw) (p : Path) (page code : Nat) (r : CmdRes) : (h.cmdResult p page code r).tb = h.tb := (congrArg Hw.tb (Hw.cmdResult_rest h p page code r) :)
@[simp] theorem Hw.cmdResult_cal (h : Hw) (p : Path) (page code : Nat) (r : CmdRes) : (h.cmdResult p page code r).cal = h.cal := (congrArg Hw.cal (Hw.cmdResult_rest h p page code r) :)
@[simp] theorem Hw.cmdResult_calBack (h : Hw) (p : Path) (page code : Nat) (r : CmdRes) : (h.cmdResult p page code r).calBack = h.calBack := (congrArg Hw.calBack (Hw.cmdResult_rest h p page code r) :)
@[simp] theorem Hw.cmdResult_sc (h : Hw) (p : Path) (page code : Nat) (r : CmdRes) : (h.cmdResult p page code r).sc = h.sc := (congrArg Hw.sc (Hw.cmdResult_rest h p page code r) :)
@[simp] theorem Hw.cmdResult_pw (h : Hw) (p : Path) (page code : Nat) (r : CmdRes) : (h.cmdResult p page code r).pw = h.pw := (congrArg Hw.pw (Hw.cmdResult_rest h p page code r) :)
@[simp] theorem Hw.cmdResult_hp (h : Hw) (p : Path) (page code : Nat) (r : CmdRes) : (h.cmdResult p page code r).hp = h.hp := (congrArg Hw.hp (Hw.cmdResult_rest h p page code r) :)
@[simp] theorem Hw.cmdResult_fr (h : Hw) (p : Path) (page code : Nat) (r : CmdRes) : (h.cmdResult p page code r).fr = h.fr := (congrArg Hw.fr (Hw.cmdResult_rest h p page code r) :)
@[simp] theorem Hw.cmdResult_fac (h : Hw) (p : Path) (page code : Nat) (r : CmdRes) : (h.cmdResult p page code r).fac = h.fac := (congrArg Hw.fac (Hw.cmdResult_rest h p page code r) :)
@[simp] theorem Hw.cmdResult_flash (h : Hw) (p : Path) (page code : Nat) (r : CmdRes) : (h.cmdResult p page code r).flash = h.flash := (congrArg Hw.flash (Hw.cmdResult_rest h p page code r) :)
@[simp] theorem Hw.cmdResult_boot (h : Hw) (p : Path) (page code : Nat) (r : CmdRes) : (h.cmdResult p page code r).boot = h.boot := (congrArg Hw.boot (Hw.cmdResult_rest h p page code r) :)
@[simp] theorem Hw.cmdResult_sec (h : Hw) (p : Path) (page code : Nat) (r : CmdRes) : (h.cmdResult p page code r).sec = h.sec := (congrArg Hw.sec (Hw.cmdResult_rest h p page code r) :)
@[simp] theorem Hw.cmdResult_outFields (h : Hw) (p : Path) (page code : Nat) (r : CmdRes) : (h.cmdResult p page code r).outFields = h.outFields := (congrArg Hw.outFields (Hw.cmdResult_rest h p page code r) :)

/-- A command that passes the tests of R415 runs its body; OK leaves its effect and the result. -/
theorem runCmd_ok {s t : State} {p : Path} {page code : Nat} {may : Bool} {legal : List Nat} {body : State → CmdRes × State} {r : CmdRes}
    (hd : s.hw.deadFor p page = false) (hm : may = true) (hf : s.hw.fencedPage page = false) (hl : s.hw.stateCode page ∈ legal)
    (hb : body s = (r, t)) (hr : r = .ok ∨ r = .busy) : runCmd s p page code may legal body = t.onHw fun h => h.cmdResult p page code r := by
  subst hm
  rcases hr with rfl | rfl <;> simp [runCmd, hd, hf, hl, hb]
/-- A command without a check of its own. -/
theorem plainCmd_ok {s : State} {p : Path} {page code : Nat} {may : Bool} {legal : List Nat} {f : Hw → Hw}
    (hd : s.hw.deadFor p page = false) (hm : may = true) (hf : s.hw.fencedPage page = false) (hl : s.hw.stateCode page ∈ legal) :
    plainCmd s p page code may legal f = s.onHw fun h => (f h).cmdResult p page code .ok :=
  runCmd_ok (body := fun s => (.ok, s.onHw f)) hd hm hf hl rfl (.inl rfl)

end Sys2Proof.Machine
end

