-- ==== Sys2Proof/Laws/Lms.lean ====
section
/-! SUPPORT. LMS signatures: for every signature of the vendor's shape there is a public key under which it verifies, so that hypotheses which ask for a verified image can be met. -/
namespace Sys2Proof.Machine

theorem leBytes_length (n v : Nat) : (leBytes n v).length = n := by
  simp [leBytes]
theorem beBytes_length (n v : Nat) : (beBytes n v).length = n := by
  simp [beBytes, leBytes_length]
theorem sha256Bytes_length (m : List Byte) : (sha256Bytes m).length = 32 := by
  simp [sha256Bytes, beBytes_length] <;> decide
theorem lmsClimb_length (id path : List Byte) (n i node : Nat) (x : List Byte) (h : x.length = 32) : (lmsClimb id path n i node x).length = 32 := by
  induction n generalizing i node x with
  | zero => exact h
  | succ n ih => exact ih _ _ _ (sha256Bytes_length _)
/-- A slice of a list joined from three parts, when it is the middle one. -/
theorem sliceD_middle {α : Type} (a k r : List α) (i n : Nat) (d : α) (ha : a.length = i) (hk : k.length = n) : sliceD (a ++ (k ++ r)) i n d = k := by
  subst ha hk
  apply List.ext_getElem
  · simp [sliceD]
  · intro j h1 h2
    simp [sliceD, List.getElem?_append_left h2, List.getElem?_append_right, List.getElem?_eq_getElem h2]

/-- A slice of a joined list that lies within the first part. -/
theorem sliceD_left {α : Type} (a r : List α) (i n : Nat) (d : α) (h : i + n ≤ a.length) : sliceD (a ++ r) i n d = sliceD a i n d := by
  unfold sliceD
  apply List.map_congr_left
  intro j hj
  have : i + j < a.length := by have := List.mem_range.mp hj; omega
  simp [List.getD, List.getElem?_append_left this]

/-- The public key of the vendor's types under which a signature of a message verifies. -/
def vendorKeyFor (msg sig : List Byte) : List Byte :=
  let id := List.replicate 16 (0 : Byte)
  let q := beAt sig 0 4
  beBytes 4 7 ++ (beBytes 4 3 ++ (id ++ (lmsClimb id (sig.drop 2188) 15 0 (2 ^ 15 + q)
    (sha256Bytes (id ++ beBytes 4 (2 ^ 15 + q) ++ [0x82, 0x82] ++ lmotsCandidate (id ++ beBytes 4 q) (4, 67, 4) msg (sliceD sig 4 2180 0))) ++ [])))
theorem vendorKeyFor_length (msg sig : List Byte) : (vendorKeyFor msg sig).length = 56 := by
  simp [vendorKeyFor, beBytes_length, lmsClimb_length, sha256Bytes_length]
theorem vendorKeyFor_types (msg sig : List Byte) : lmsTypes (vendorKeyFor msg sig) = (7, 3) := by
  have h0 : sliceD (vendorKeyFor msg sig) 0 4 0 = beBytes 4 7 := sliceD_middle [] _ _ _ _ _ rfl (beBytes_length 4 7)
  have h4 : sliceD (vendorKeyFor msg sig) 4 4 0 = beBytes 4 3 := sliceD_middle (beBytes 4 7) _ _ _ _ _ (beBytes_length 4 7) (beBytes_length 4 3)
  simp only [lmsTypes, beAt, h0, h4]
  decide
theorem lmsVerify_vendorKeyFor (msg sig : List Byte) (hl : sig.length = 2668) (hq : beAt sig 0 4 < 2 ^ 15) (ho : beAt sig 4 4 = 3) (ht : beAt sig 2184 4 = 7) :
    lmsVerify (vendorKeyFor msg sig) msg sig = true := by
  have hid : sliceD (vendorKeyFor msg sig) 8 16 0 = List.replicate 16 0 := by
    unfold vendorKeyFor
    rw [← List.append_assoc]
    exact sliceD_middle _ _ _ _ _ _ (by simp [beBytes_length]) (by simp)
  have hroot : sliceD (vendorKeyFor msg sig) 24 32 0 = lmsClimb (List.replicate 16 0) (sig.drop 2188) 15 0 (2 ^ 15 + beAt sig 0 4)
      (sha256Bytes (List.replicate 16 0 ++ beBytes 4 (2 ^ 15 + beAt sig 0 4) ++ [0x82, 0x82] ++ lmotsCandidate (List.replicate 16 0 ++ beBytes 4 (beAt sig 0 4)) (4, 67, 4) msg (sliceD sig 4 2180 0))) := by
    unfold vendorKeyFor
    rw [← List.append_assoc, ← List.append_assoc]
    exact sliceD_middle _ _ _ _ _ _ (by simp [beBytes_length]) (lmsClimb_length _ _ _ _ _ _ (sha256Bytes_length _))
  have hs : lmsSigBytes (vendorKeyFor msg sig) = 2668 := by simp [lmsSigBytes, vendorKeyFor_types, lmsHeight, lmotsParam]
  unfold lmsVerify
  rw [hid, hroot]
  have hq' : beAt sig 0 4 < 32768 := hq
  simp [vendorKeyFor_types, lmsHeight, lmotsParam, hs, hl, hq', ho, ht, vendorKeyFor_length]

end Sys2Proof.Machine
end

