-- ==== Sys2Proof/Laws/Memory.lean ====
section
/-! SUPPORT. Memory: every operation keeps the canonical form; a read after a write. -/
namespace Sys2Proof.Machine

/-- Every number of a table is above k. -/
def Tab.Above {α : Type} (k : Nat) (t : Tab α) : Prop := ∀ p ∈ t, k < p.1

theorem Tab.sorted_cons {α : Type} (p : Nat × α) (t : Tab α) : Tab.sorted (p :: t) = true ↔ Tab.Above p.1 t ∧ Tab.sorted t = true := by
  induction t generalizing p with
  | nil => simp [Tab.sorted, Tab.Above]
  | cons q r ih =>
    simp only [Tab.sorted, Bool.and_eq_true, decide_eq_true_eq, ih q, Tab.Above, List.forall_mem_cons]
    exact ⟨fun ⟨a, b, c⟩ => ⟨⟨a, fun x hx => Nat.lt_trans a (b x hx)⟩, b, c⟩, fun ⟨⟨a, _⟩, b, c⟩ => ⟨a, b, c⟩⟩
theorem Tab.above_set {α : Type} {t : Tab α} {j k : Nat} (v : α) (h : Tab.Above j t) (hk : j < k) : Tab.Above j (Tab.set t k v) := by
  induction t with
  | nil => simpa [Tab.set, Tab.Above] using hk
  | cons q r ih =>
    simp only [Tab.Above, List.forall_mem_cons] at h ⊢
    simp only [Tab.set]
    split
    · exact List.forall_mem_cons.2 ⟨hk, List.forall_mem_cons.2 h⟩
    · split
      · exact List.forall_mem_cons.2 ⟨hk, h.2⟩
      · exact List.forall_mem_cons.2 ⟨h.1, ih h.2⟩
theorem Tab.sorted_set {α : Type} (t : Tab α) (k : Nat) (v : α) (h : Tab.sorted t = true) : Tab.sorted (Tab.set t k v) = true := by
  induction t with
  | nil => rfl
  | cons q r ih =>
    have h' := (Tab.sorted_cons q r).1 h
    simp only [Tab.set]
    split
    · rename_i hk
      refine (Tab.sorted_cons _ _).2 ⟨?_, h⟩
      simp only [Tab.Above, List.forall_mem_cons]
      exact ⟨hk, fun x hx => Nat.lt_trans hk (h'.1 x hx)⟩
    · split
      · rename_i hk
        exact (Tab.sorted_cons _ _).2 ⟨hk ▸ h'.1, h'.2⟩
      · exact (Tab.sorted_cons _ _).2 ⟨Tab.above_set v h'.1 (by omega), ih h'.2⟩
theorem Tab.sorted_filter {α : Type} (t : Tab α) (f : Nat × α → Bool) (h : Tab.sorted t = true) : Tab.sorted (t.filter f) = true := by
  induction t with
  | nil => rfl
  | cons q r ih =>
    have h' := (Tab.sorted_cons q r).1 h
    simp only [List.filter_cons]
    split
    · exact (Tab.sorted_cons _ _).2 ⟨fun x hx => h'.1 x (List.mem_filter.1 hx).1, ih h'.2⟩
    · exact ih h'.2
theorem Tab.mem_set {α : Type} {t : Tab α} {k : Nat} {v : α} {p : Nat × α} (h : p ∈ Tab.set t k v) : p = (k, v) ∨ p ∈ t := by
  induction t with
  | nil => simpa [Tab.set] using h
  | cons q r ih =>
    simp only [Tab.set] at h
    split at h
    · simpa using h
    · split at h
      · rcases List.mem_cons.1 h with rfl | h
        · exact .inl rfl
        · exact .inr (List.mem_cons_of_mem _ h)
      · rcases List.mem_cons.1 h with rfl | h
        · exact .inr (List.mem_cons_self ..)
        · exact (ih h).imp id (List.mem_cons_of_mem _)

theorem Memory.wf_iff (m : List Host.Cell) : Memory.wf m = true ↔ Tab.sorted m = true ∧ ∀ c ∈ m, c.2 ≠ 0 := by
  simp [Memory.wf]
@[simp] theorem Memory.wf_nil : Memory.wf [] = true := rfl
/-- Forgetting cells keeps the canonical form. -/
theorem Memory.wf_filter (m : List Host.Cell) (f : Host.Cell → Bool) (h : Memory.wf m = true) : Memory.wf (m.filter f) = true := by
  rw [Memory.wf_iff] at h ⊢
  exact ⟨Tab.sorted_filter m f h.1, fun c hc => h.2 c (List.mem_filter.1 hc).1⟩
/-- Writing a byte keeps the canonical form. -/
theorem Memory.wf_memWrite (m : List Host.Cell) (a : Nat) (v : Byte) (h : Memory.wf m = true) : Memory.wf (memWrite m a v) = true := by
  unfold memWrite
  split
  · exact Memory.wf_filter m _ h
  · rename_i hv
    rw [Memory.wf_iff] at h ⊢
    refine ⟨Tab.sorted_set m a v h.1, fun c hc => ?_⟩
    rcases Tab.mem_set hc with rfl | hc
    · exact hv
    · exact h.2 c hc
/-- Writing bytes keeps the canonical form. -/
theorem Memory.wf_memPut (bs : List Byte) (m : List Host.Cell) (a : Nat) (h : Memory.wf m = true) : Memory.wf (memPut m a bs) = true := by
  induction bs generalizing m a with
  | nil => exact h
  | cons b r ih =>
    refine ih _ _ ?_
    split
    · exact Memory.wf_memWrite m _ b h
    · exact h

@[simp] theorem memRead_memWrite_same (m : List Host.Cell) (a : Nat) (v : Byte) : memRead (memWrite m a v) a = v := by
  unfold memRead memWrite
  split
  · rename_i hv
    simp [Tab.get, Tab.find_erase_same, hv]
  · simp
theorem memRead_memWrite_other (m : List Host.Cell) (a b : Nat) (v : Byte) (h : b ≠ a) : memRead (memWrite m a v) b = memRead m b := by
  unfold memRead memWrite
  split
  · simp [Tab.get, Tab.find_erase_other _ _ _ h]
  · exact Tab.get_set_other _ _ _ _ _ h
/-- A byte that no stored byte lands on reads as before. -/
theorem memRead_memPut_other (bs : List Byte) (m : List Host.Cell) (a q : Nat) (h : ∀ i < bs.length, physAddr (a + i) ≠ some q) :
    memRead (memPut m a bs) q = memRead m q := by
  induction bs generalizing m a with
  | nil => rfl
  | cons b r ih =>
    simp only [memPut]
    rw [ih _ (a + 1) (fun i hi => by
      have := h (i + 1) (by simpa using hi)
      rwa [show a + 1 + i = a + (i + 1) from by omega])]
    have h0 := h 0 (by simp)
    split
    · rename_i p hp
      exact memRead_memWrite_other m p q b (fun e => h0 (by simp [hp, e]))
    · rfl
/-- What is forgotten reads 0; the rest reads as before. -/
theorem memRead_filter (m : List Host.Cell) (f : Nat → Bool) (q : Nat) : memRead (m.filter fun c => f c.1) q = if f q = true then memRead m q else 0 := by
  induction m with
  | nil => simp [memRead, Tab.get, Tab.find]
  | cons c r ih =>
    obtain ⟨j, v⟩ := c
    by_cases hj : f j = true
    · by_cases hq : j = q
      · subst hq
        simp [memRead, Tab.get, Tab.find, hj]
      · have : memRead ((j, v) :: r.filter fun c => f c.1) q = memRead (r.filter fun c => f c.1) q := by simp [memRead, Tab.get, Tab.find, hq]
        have h2 : memRead ((j, v) :: r) q = memRead r q := by simp [memRead, Tab.get, Tab.find, hq]
        simp [hj, this, h2, ih]
    · by_cases hq : j = q
      · subst hq
        simpa [hj] using ih
      · have h2 : memRead ((j, v) :: r) q = memRead r q := by simp [memRead, Tab.get, Tab.find, hq]
        simp [hj, h2, ih]

/-- Reset memory has the canonical form. -/
theorem State.reset_memOk : State.reset.MemOk := rfl
@[simp] theorem State.onHw_memOk (s : State) (f : Hw → Hw) : (s.onHw f).MemOk ↔ s.MemOk := Iff.rfl
/-- Forgetting cells of a state's memory keeps the canonical form. -/
theorem State.filter_memOk (s : State) (f : Host.Cell → Bool) (h : s.MemOk) : State.MemOk { s with mem := s.mem.filter f } := Memory.wf_filter _ f h
/-- A store keeps the canonical form. -/
theorem State.put_memOk (s : State) (a : Nat) (bs : List Byte) (h : s.MemOk) : (s.put a bs).MemOk := Memory.wf_memPut bs _ a h
theorem State.store_memOk (s : State) (w : Option Nat) (fld a : Nat) (bs : List Byte) (info : Nat → WriteInfo) (h : s.MemOk) : (s.store w fld a bs info).MemOk :=
  State.put_memOk _ a bs h
/-- A byte that no stored byte lands on reads as before. -/
theorem State.put_read_other (s : State) (a : Nat) (bs : List Byte) (q : Nat) (h : ∀ i < bs.length, physAddr (a + i) ≠ some q) :
    memRead (s.put a bs).mem q = memRead s.mem q := memRead_memPut_other bs _ a q h

end Sys2Proof.Machine
end

