-- ==== Sys2Proof/Laws/Sec.lean ====
section
/-! SUPPORT. SEC_BUF: what was put into it is what is read from it (R401). -/
namespace Sys2Proof.Machine

theorem ofLeBytes_lt (b : List Byte) : ofLeBytes b < 256 ^ b.length := by
  induction b with
  | nil => simp [ofLeBytes]
  | cons x r ih =>
    have := x.isLt
    simp only [ofLeBytes, List.length_cons, Nat.pow_succ]
    omega
theorem leBytes_succ (n v : Nat) : leBytes (n + 1) v = BitVec.ofNat 8 v :: leBytes n (v / 256) := by
  simp only [leBytes, List.range_succ_eq_map, List.map_cons, List.map_map, Nat.mul_zero, Nat.shiftRight_zero]
  congr 1
  apply List.map_congr_left
  intro i _
  simp [Nat.mul_add, Nat.add_comm, Nat.shiftRight_eq_div_pow, Nat.pow_add, Nat.div_div_eq_div_mul]
theorem leBytes_ofLeBytes (b : List Byte) : leBytes b.length (ofLeBytes b) = b := by
  induction b with
  | nil => rfl
  | cons x r ih =>
    have hx := x.isLt
    have h1 : (x.toNat + 256 * ofLeBytes r) / 256 = ofLeBytes r := by omega
    simp only [List.length_cons, leBytes_succ, ofLeBytes, h1, ih]
    congr 1
    apply BitVec.eq_of_toNat_eq
    simp
    omega
theorem ofLeBytes_leBytes (n v : Nat) (h : v < 256 ^ n) : ofLeBytes (leBytes n v) = v := by
  induction n generalizing v with
  | zero => simp at h; simp [leBytes, ofLeBytes, h]
  | succ n ih =>
    rw [Nat.pow_succ] at h
    simp only [leBytes_succ, ofLeBytes, BitVec.toNat_ofNat]
    rw [ih (v / 256) (by omega)]
    omega
theorem sliceD_length {α : Type} (l : List α) (i n : Nat) (d : α) : (sliceD l i n d).length = n := by simp [sliceD]
theorem sliceD_add {α : Type} (l : List α) (i n m : Nat) (d : α) : sliceD l i (n + m) d = sliceD l i n d ++ sliceD l (i + n) m d := by
  simp [sliceD, List.range_add, Nat.add_assoc]
theorem sliceD_sliceD {α : Type} (l : List α) (i n m : Nat) (d : α) (h : m ≤ n) : sliceD (sliceD l i n d) 0 m d = sliceD l i m d := by
  simp only [sliceD]
  apply List.map_congr_left
  intro j hj
  have : j < n := Nat.lt_of_lt_of_le (List.mem_range.mp hj) h
  simp [this]
theorem flatMap_sliceD (b : List Byte) (k m : Nat) : ((List.range m).flatMap fun i => sliceD b (k + 4 * i) 4 0) = sliceD b k (4 * m) 0 := by
  induction m with
  | zero => rfl
  | succ m ih => rw [List.range_succ, List.flatMap_append, ih, Nat.mul_succ, sliceD_add]; simp
/-- A word of SEC_BUF after a list of bytes has been put into it. -/
theorem Hw.reg_secPut (h : Hw) (b : List Byte) (i : Nat) (hi : i < b.length / 4) : (h.secPut b).reg (pgSecBuf + 4 * i) = BitVec.ofNat 32 (leAt b (4 * i) 4) := by
  unfold Hw.secPut
  generalize b.length / 4 = m at hi
  induction m with
  | zero => omega
  | succ m ih =>
    rw [List.range_succ, List.foldl_append]
    simp only [List.foldl_cons, List.foldl_nil, Hw.reg_setRegN]
    by_cases e : i = m
    · simp [e]
    · have : ¬ pgSecBuf + 4 * i = pgSecBuf + 4 * m := by omega
      rw [if_neg this, ih (by omega)]
theorem leBytes_leAt (b : List Byte) (k : Nat) : leBytes 4 (BitVec.ofNat 32 (leAt b k 4)).toNat = sliceD b k 4 0 := by
  have h := ofLeBytes_lt (sliceD b k 4 0)
  have e := leBytes_ofLeBytes (sliceD b k 4 0)
  rw [sliceD_length] at h e
  have h' : leAt b k 4 < 2 ^ 32 := h
  rw [BitVec.toNat_ofNat, Nat.mod_eq_of_lt h']
  exact e
/-- Bytes read from SEC_BUF are those put into it. -/
theorem Hw.secBytes_secPut (h : Hw) (b : List Byte) (off n : Nat) (ho : off % 4 = 0) (hb : b.length % 4 = 0) (hn : off + n ≤ b.length) :
    (h.secPut b).secBytes off n = sliceD b off n 0 := by
  unfold Hw.secBytes
  rw [ho]
  have : ((List.range ((0 + n + 3) / 4)).flatMap fun i => leBytes 4 ((h.secPut b).regN (pgSecBuf + 4 * (off / 4 + i)))) = sliceD b off (4 * ((0 + n + 3) / 4)) 0 := by
    rw [← flatMap_sliceD]
    rw [List.flatMap_def, List.flatMap_def]
    congr 1
    apply List.map_congr_left
    intro i hi
    have hi := List.mem_range.mp hi
    have e : 4 * (off / 4 + i) = off + 4 * i := by omega
    rw [Hw.regN, Hw.reg_secPut _ _ _ (by omega), leBytes_leAt, e]
  rw [this]
  exact sliceD_sliceD _ _ _ _ _ (by omega)

end Sys2Proof.Machine
end

