-- ==== Sys2Proof/WellFormed.lean ====
section
/-! DEFINITION. Which commands are well formed: the sizes that the manual gives flits, frames, samples and lists, which the operand types alone do not hold to. -/
namespace Sys2Proof

/-- A flit carries 256 payload bytes (R159). -/
def Flit.wf (k : Flit) : Bool := decide (k.payload.length = 256)
/-- A frame carries 256 payload bytes (R324). -/
def Frame.wf (z : Frame) : Bool := decide (z.payload.length = 256)
/-- Five sensors and two stacks of a field are sampled (R380). -/
def FieldTemps.wf (t : FieldTemps) : Bool := decide (t.s.length = 5) && decide (t.stackT.length = 2)
/-- Units named in a stage's report exist: clusters 0 to 5 and the hub, ports 0 to 6 (R150, R387). -/
def StageReport.wf (k : StageReport) : Bool :=
  k.planes.all (fun x => decide (x.1 / 8 < 48 ∧ x.1 % 8 ≤ 6 ∧ x.2.1 ≤ 6)) && k.routers.all (fun x => decide (x / 8 < 48 ∧ x % 8 ≤ 6))
/-- MULTI names neither a row nor a column (R48). -/
def TestResult.wf (t : TestResult) : Bool := !t.multi || (t.row.isNone && t.col.isNone)
/-- The two owners' slots have one length (R287). -/
def ArbRequest.wf (k : ArbRequest) : Bool := decide (k.slotA.length = k.slotB.length)
/-- The tick ports are named once each; a register offset is a word's (R12, R157). -/
def MgmtOp.wf : MgmtOp → Bool
  | .read off => decide (off < 4096 ∧ off % 4 = 0)
  | .write off _ => decide (off < 4096 ∧ off % 4 = 0)
  | .tick ports => decide ports.Nodup
  | .override _ _ | .escape _ _ | .slot _ _ _ _ | .l2p _ _ => true
/-- A report comes from a register page (R302). -/
def ErrReport.wf (k : ErrReport) : Bool := decide (k.page.toNat % 4096 = 0)

/-- A well-formed command. -/
def Instr.wf (i : Instr) : Bool :=
  match i with
  | .registerWrite _ _ n _ => decide (0 < n)
  | .subwordRead _ _ n => decide (0 < n)
  | .flitWrite _ _ k => k.wf
  | .flitReadReq _ _ k _ => k.wf
  | .flitReadData _ _ k => k.wf
  | .flitResp _ _ k => k.wf
  | .flitChain _ _ k => k.wf
  | .flitRedUp _ _ k => k.wf
  | .flitRedDown _ _ k => k.wf
  | .flitTick _ _ k => k.wf
  | .flitCredUp _ _ k => k.wf
  | .flitCredDown _ _ k => k.wf
  | .flitToken _ _ k => k.wf
  | .flitFence _ _ k => k.wf
  | .flitMgmt _ _ k m => k.wf && m.wf
  | .escapeMove _ _ k => k.wf
  | .laneTestDone _ _ _ k => k.all fun x => decide (x.1 < 109 ∧ x.2 < (if x.1 = 108 then 17 else 21))
  | .arbitrate _ k => k.wf
  | .errorReport _ k => k.wf
  | .arrayTestDone _ k => k.wf
  | .spareRetest _ a b => decide (a.length = 4) && decide (b.length = 4) && a.all TestResult.wf && b.all TestResult.wf
  | .frameFlit _ z => z.wf
  | .frameTiming _ z => z.wf
  | .frameObj _ z => z.wf
  | .apertureRead _ _ n _ => decide (0 < n)
  | .apertureWrite _ _ d _ => !d.isEmpty
  | .inputSample _ _ k => decide (k.length = 48)
  | .tempSample _ t _ => t.wf
  | .powerAverage _ k => decide (k.length = 48)
  | .stageDone k => k.wf
  | .stageBudgetExpire k => k.wf
  | .loRead _ _ => true
  | .hiRead _ _ => true
  | .loWrite _ _ _ => true
  | .hiWrite _ _ _ => true
  | .blkEventClear _ _ _ _ => true
  | .blkEventForce _ _ _ => true
  | .resetReq _ _ => true
  | .tick => true
  | .setPeriod _ => true
  | .periodApply => true
  | .stretchRequest _ => true
  | .tickFlitOriginate => true
  | .planTakeUp _ => true
  | .itemBegin _ _ => true
  | .stickWait _ _ _ => true
  | .stickWaitDone _ => true
  | .stickRead _ _ _ => true
  | .stokWait _ _ _ _ => true
  | .stokWaitDone _ => true
  | .stokSig _ _ _ _ => true
  | .sitemBegin _ _ _ => true
  | .sitemEnd _ _ => true
  | .smvKick _ _ _ _ => true
  | .smvWait _ _ _ => true
  | .sdlMake _ _ _ _ => true
  | .mpass _ _ _ => true
  | .mload _ _ _ => true
  | .mfwd _ _ _ => true
  | .mmask _ _ _ => true
  | .msig _ _ _ => true
  | .msigEffect _ => true
  | .mwait _ _ _ => true
  | .mwaitDone _ => true
  | .mend _ _ _ => true
  | .passStart _ _ => true
  | .meClearSets _ _ => true
  | .meClearCounters _ _ => true
  | .mcStartWrite _ _ _ _ => true
  | .mcClearSync _ _ => true
  | .mcClearCounters _ _ => true
  | .setvl _ _ _ => true
  | .xrdcfg _ _ _ => true
  | .xadd _ _ _ => true
  | .xsub _ _ _ => true
  | .xaddi _ _ _ => true
  | .xand _ _ _ => true
  | .xor _ _ _ => true
  | .xslli _ _ _ => true
  | .xsrli _ _ _ => true
  | .xmul _ _ _ => true
  | .beq _ _ _ => true
  | .bne _ _ _ => true
  | .blt _ _ _ => true
  | .bge _ _ _ => true
  | .jmp _ _ _ => true
  | .vwait _ _ _ => true
  | .vwaitDone _ => true
  | .vsig _ _ _ => true
  | .vsigEffect _ => true
  | .vstatc _ _ _ => true
  | .vmvxs _ _ _ => true
  | .vmvsx _ _ _ => true
  | .vend _ _ _ => true
  | .vld _ _ _ => true
  | .vst _ _ _ => true
  | .vldn _ _ _ => true
  | .vstn _ _ _ => true
  | .vldp _ _ _ => true
  | .vstp _ _ _ => true
  | .vfadd _ _ _ => true
  | .vfsub _ _ _ => true
  | .vfmul _ _ _ => true
  | .vfma _ _ _ => true
  | .vfms _ _ _ => true
  | .vfnma _ _ _ => true
  | .vfmin _ _ _ => true
  | .vfmax _ _ _ => true
  | .vfabs _ _ _ => true
  | .vfneg _ _ _ => true
  | .vfdiv _ _ _ => true
  | .vfsqrt _ _ _ => true
  | .vadd _ _ _ => true
  | .vsub _ _ _ => true
  | .vmul _ _ _ => true
  | .vand _ _ _ => true
  | .vor _ _ _ => true
  | .vxor _ _ _ => true
  | .vsll _ _ _ => true
  | .vsrl _ _ _ => true
  | .vsra _ _ _ => true
  | .vmin _ _ _ => true
  | .vmax _ _ _ => true
  | .vmerge _ _ _ => true
  | .viota _ _ _ => true
  | .vmv _ _ _ => true
  | .vcmpeq _ _ _ => true
  | .vcmpne _ _ _ => true
  | .vcmplt _ _ _ => true
  | .vcmple _ _ _ => true
  | .pand _ _ _ => true
  | .por _ _ _ => true
  | .pxor _ _ _ => true
  | .pnot _ _ _ => true
  | .ppopc _ _ _ => true
  | .pfirst _ _ _ => true
  | .vcompress _ _ _ => true
  | .vexpand _ _ _ => true
  | .vslideup _ _ _ => true
  | .vslidedn _ _ _ => true
  | .vrgather _ _ _ => true
  | .vredsum _ _ _ => true
  | .vredprod _ _ _ => true
  | .vredmax _ _ _ => true
  | .vredmin _ _ _ => true
  | .vredargmax _ _ _ => true
  | .vredargmin _ _ _ => true
  | .vredand _ _ _ => true
  | .vredor _ _ _ => true
  | .vcvt _ _ _ => true
  | .vsplit _ _ _ => true
  | .vrand _ _ _ => true
  | .vexp2 _ _ _ => true
  | .vlog2 _ _ _ => true
  | .vrsqrt _ _ _ => true
  | .vrecip _ _ _ => true
  | .vtanh _ _ _ => true
  | .vldacc _ _ _ => true
  | .vstacc _ _ _ => true
  | .umvkick _ _ _ => true
  | .umvwait _ _ _ => true
  | .vldaif _ _ _ => true
  | .vstd _ _ _ => true
  | .ucalrd _ _ _ => true
  | .vstnt _ _ _ => true
  | .vcStartWrite _ _ _ _ => true
  | .vcClearSync _ _ => true
  | .vcClearCounters _ _ => true
  | .veClearCounters _ _ => true
  | .nwSelWrite _ _ _ => true
  | .writeRange _ _ => true
  | .writeSlot _ _ => true
  | .nwSnapshot _ _ => true
  | .clearCounts _ _ => true
  | .redCombine _ _ => true
  | .linkDownDetect _ _ => true
  | .linkDegrade _ _ _ => true
  | .creditRefresh _ _ _ _ => true
  | .respFlush _ => true
  | .routerTickMissed _ => true
  | .rtrClearCounters _ _ => true
  | .drainLink _ _ => true
  | .drainDone _ _ _ => true
  | .laneTest _ _ => true
  | .applyLaneMap _ _ => true
  | .releaseLink _ _ => true
  | .excludeLink _ _ => true
  | .zeroFillDone _ => true
  | .place _ _ => true
  | .promote _ _ => true
  | .demote _ _ => true
  | .evict _ _ => true
  | .pin _ _ => true
  | .unpin _ _ => true
  | .free _ _ => true
  | .query _ _ => true
  | .setPolicy _ _ => true
  | .setAlt _ _ => true
  | .makeDraft _ _ => true
  | .dropDraft _ _ => true
  | .bindWindow _ _ => true
  | .queuedCommandStart _ _ => true
  | .transitionDone _ _ _ => true
  | .deferredCommandStart _ _ => true
  | .msClearCounters _ _ => true
  | .deadlineLate _ => true
  | .lateNotice _ _ _ => true
  | .mvrLoad _ _ => true
  | .handover _ => true
  | .transferComplete _ => true
  | .aifDataPhaseStart _ => true
  | .mvrStop _ _ => true
  | .dropShadow _ _ => true
  | .collect _ _ => true
  | .mvrClearCounters _ _ => true
  | .pauseSet _ _ => true
  | .pauseDone _ => true
  | .pauseClear _ _ => true
  | .listElementLoad _ => true
  | .rangeArrived _ _ => true
  | .sweepStart _ _ => true
  | .deferredEntryStart _ _ => true
  | .updateWindowExpire _ => true
  | .ucClearCounters _ _ => true
  | .stageLoad _ _ => true
  | .apply _ _ => true
  | .setCount _ _ => true
  | .setCountDone _ => true
  | .stepVoteContribute _ => true
  | .arrivalTimeout _ => true
  | .lossInWrite _ _ _ => true
  | .digest _ _ => true
  | .digestTimeout _ => true
  | .prepareContribute _ => true
  | .prepareRecontribute _ => true
  | .sweepRerun _ => true
  | .arbReply _ _ => true
  | .arbTimeout _ => true
  | .roundTimeout _ => true
  | .inDoubt _ => true
  | .decision _ _ => true
  | .decisionQuery _ _ _ => true
  | .decisionReply _ _ _ => true
  | .abortRequest _ _ _ => true
  | .rejoin _ _ => true
  | .walkChunk _ _ => true
  | .resume _ _ => true
  | .setLossExp _ _ => true
  | .resetLoss _ _ => true
  | .scClearCounters _ _ => true
  | .errClear _ _ => true
  | .abortReq _ _ => true
  | .farrierMainPath _ => true
  | .farrierFence _ => true
  | .unfence _ => true
  | .arrayTest _ => true
  | .softRepair _ => true
  | .swapSpare _ => true
  | .retire _ => true
  | .requestHold _ => true
  | .readmitField _ => true
  | .unretire _ => true
  | .frClearCounters _ => true
  | .timingSend => true
  | .timingFrameLost => true
  | .frameDelay _ _ _ => true
  | .delayMeasure _ => true
  | .heartbeat _ _ => true
  | .heartbeatSend _ => true
  | .heartbeatTimeout _ => true
  | .frameReplayTimeout _ => true
  | .linkBringupAdvance _ _ => true
  | .laneFailRetrain _ _ _ => true
  | .opticalLinkDown _ _ => true
  | .remoteTimeout _ _ => true
  | .bundleSend _ _ _ => true
  | .contextFree _ _ => true
  | .laserPowerLow _ _ _ _ => true
  | .stretchReq _ => true
  | .tbTimingTimeout => true
  | .tbLost => true
  | .elect _ => true
  | .electionSettle => true
  | .tbReport _ => true
  | .timebaseSelfMaster => true
  | .opClearCounters _ _ => true
  | .retrain _ _ => true
  | .writeTree _ _ => true
  | .opNodeIdWrite _ _ => true
  | .opRtDataWrite _ _ => true
  | .opLinkEnWrite _ _ _ => true
  | .hpFieldWinWrite _ _ _ => true
  | .bindAp _ _ => true
  | .bindApDone _ => true
  | .unbindAp _ _ => true
  | .assignChannel _ _ => true
  | .hpClearCounters _ _ => true
  | .claim _ => true
  | .renew _ => true
  | .release _ => true
  | .leaseWarn _ => true
  | .leaseExpire _ => true
  | .submit _ => true
  | .submitDone _ => true
  | .withdraw _ => true
  | .psStop _ => true
  | .perstAssert _ => true
  | .perstDeassert _ _ => true
  | .dlDown _ => true
  | .inputFault _ => true
  | .fuseShort _ => true
  | .fuseOverload _ => true
  | .throttleStep _ => true
  | .ceilRelease _ => true
  | .govSlot => true
  | .govAdmit => true
  | .railRampDone _ => true
  | .restWakeDone _ => true
  | .estopAssert => true
  | .estopClear _ => true
  | .pwrEnAssert _ => true
  | .pwrEnDeassert => true
  | .ptClearCounters _ _ => true
  | .pgClearCounters _ => true
  | .holdLockWrite _ _ => true
  | .attest _ => true
  | .advanceSvn _ => true
  | .ownerEnroll _ => true
  | .ownerRevoke _ => true
  | .debugChallenge _ => true
  | .challengeExpire => true
  | .debugResponse _ => true
  | .fwWrite _ => true
  | .saveConfig _ => true
  | .readCert _ => true
  | .setBootSlot _ => true
  | .calSelWrite _ _ => true
  | .writeUser _ => true
  | .clearUser _ => true
  | .calFlashDone => true
  | .monStart _ _ _ => true
  | .monStop _ _ _ => true
  | .monSnapshot _ _ _ => true
  | .monWindowEnd _ _ => true
  | .monQueueSample _ _ => true
  | .clearSnap _ _ _ => true
  | .paddockRingsWrite _ _ => true
  | .evlogSelWrite _ _ => true
  | .smbusBlockRead _ _ => true
  | .cmClearCounters _ _ => true
  | .dlUp _ _ => true
  | .hostCompletion _ _ _ => true
  | .completionTimeout _ _ => true
  | .mvrReadIssue _ => true
  | .walkWakeDone _ => true
  | .vdroopSample _ _ => true
  | .cmdDone => true
  | .hbPowerLoss => true
  | .inputReturn _ => true
  | .ptRingRestWrite _ _ => true

end Sys2Proof
end

