-- ==== Sys2Proof/Tests/Slice0.lean ====
section
/-! SUPPORT. Tests: ill-formed commands that the check refuses, and for each statement with hypotheses a state and operands that meet them. -/
namespace Sys2Proof.Tests
open Sys2Proof.Machine
set_option Elab.async false

/-- The state that a command leaves. -/
def after (c : Instr) (s : State) : State := stateOf s (exec c s)
/-- The machine after reset. -/
def z : State := State.reset
/-- A register at its number in region 0x03. -/
def reg (k : Nat) : RegAddr := .da (BitVec.ofNat 56 k)
/-- Registers set. -/
def put (s : State) (ws : List (Nat × Nat)) : State := s.onHw fun h => ws.foldl (fun h w => h.setRegN w.1 w.2) h
/-- Field 0 and field 1 are powered, their clusters at GALLOP. -/
def lit : State := put z ([0, 1].flatMap fun f : Field => [(pgFieldPower f + 0x00C, 2), (pgFieldPower f + Reg.fieldPower.ptClusterGait, 0), (pgFieldPower f + Reg.fieldPower.ptGait, 0)])
def l0 : ClLoc := ⟨0, 0⟩
def m0 : McLoc := ⟨l0, 0⟩
def e0 : MeLoc := ⟨m0, 0⟩
def e3 : MeLoc := ⟨m0, 3⟩
def v0 : VcLoc := ⟨l0, 0⟩
/-- Ring 0 is paddock 0's. -/
def rings : Nat × Nat := (pgModule + Reg.module.paddockRings, 8)
/-- Plan slot 0 in a state. -/
def slot0 (st : Nat) : Nat × Nat := (psReg 0 Reg.hostGlobal.ps0Status, st)

/-- Each check of WellFormed refuses a term: sizes, units, ports, results. -/
theorem test_ill_formed_sizes :
    (Instr.registerWrite .rm (reg 0) 0 0).wf = false ∧
    (Instr.subwordRead .rm (reg 0) 0).wf = false ∧
    (Instr.flitWrite (.hub 0) 0 ⟨0, []⟩).wf = false ∧
    (Instr.flitMgmt (.hub 0) 0 ⟨0, List.replicate 256 0⟩ (.read 2)).wf = false ∧
    (Instr.flitMgmt (.hub 0) 0 ⟨0, List.replicate 256 0⟩ (.tick [1, 1])).wf = false ∧
    (Instr.flitMgmt (.hub 0) 0 ⟨0, List.replicate 256 0⟩ (.write 4096 0)).wf = false ∧
    (Instr.laneTestDone (.hub 0) 0 .a [(109, 0)]).wf = false ∧
    (Instr.laneTestDone (.hub 0) 0 .a [(108, 17)]).wf = false ∧
    (Instr.arbitrate 0 ⟨0, 0, 0, 0, [0], [], 0⟩).wf = false ∧
    (Instr.errorReport l0 ⟨4, 0, 0, 0, 0⟩).wf = false ∧
    (Instr.arrayTestDone e0 ⟨true, some 0, none⟩).wf = false ∧
    (Instr.spareRetest m0 [] []).wf = false ∧
    (Instr.frameFlit ⟨0, 0⟩ ⟨0, [], 0⟩).wf = false ∧
    (Instr.frameTiming ⟨0, 0⟩ ⟨0, [], 0⟩).wf = false ∧
    (Instr.frameObj ⟨0, 0⟩ ⟨0, [], 0⟩).wf = false ∧
    (Instr.apertureRead 0 0 0 .ok).wf = false ∧
    (Instr.apertureWrite 0 0 [] .ok).wf = false ∧
    (Instr.inputSample 0 0 []).wf = false ∧
    (Instr.tempSample 0 ⟨[], [0, 0], 0, 0⟩ ⟨0, 0, 0, 0, 0⟩).wf = false ∧
    (Instr.powerAverage 0 []).wf = false ∧
    (StageReport.wf ⟨false, [], [], [7], [], []⟩) = false := by
  refine ⟨?_, ?_, ?_, ?_, ?_, ?_, ?_, ?_, ?_, ?_, ?_, ?_, ?_, ?_, ?_, ?_, ?_, ?_, ?_, ?_, ?_⟩ <;> decide +kernel

theorem test_well_formed_terms :
    (Instr.registerWrite .rm (reg 0) 4 0).wf = true ∧
    (Instr.flitWrite (.hub 0) 0 ⟨0, List.replicate 256 0⟩).wf = true ∧
    (Instr.flitMgmt (.hub 0) 0 ⟨0, List.replicate 256 0⟩ (.tick [1, 2])).wf = true ∧
    (Instr.laneTestDone (.hub 0) 0 .a [(108, 16), (107, 20)]).wf = true ∧
    (Instr.inputSample 0 0 (List.replicate 48 0)).wf = true := by
  refine ⟨?_, ?_, ?_, ?_, ?_⟩ <;> decide +kernel

/-- Each test below meets the hypotheses of one statement, named in it; the results it checks are the manual's. IdleStepPassesOneNanosecond, EveryCommandAnswersAndLeavesQueue. -/
theorem test_idle_and_front_of_queue :
    z.pending = [] ∧
    stateOf z (step { z with pending := [.calFlashDone, .tick] }) = { z with pending := [.tick] } ∧
    (stateOf z (step z)).hw.clk.now = z.hw.clk.now + 1 := by
  refine ⟨?_, ?_, ?_⟩ <;> decide +kernel

/-- EveryStepKeepsMemoryForm, FusesOnlyBurn: a state whose step answers. -/
theorem test_memory_form_and_fuses :
    (∃ s : State, s.MemOk ∧ ∃ t, step s = .next t) ∧
    (∃ s t : State, step s = .next t) := by
  exact ⟨⟨z, rfl, _, rfl⟩, z, _, rfl⟩

/-- RegisterWriteSetsFieldByType: a read-write, a read-only, a write-1-to-clear and a locked register; a dead page. -/
theorem test_register_write_types :
    z.hw.target .rm (reg (pgSecurity + Reg.security.secArg)) (pgSecurity + Reg.security.secArg) = .reg pgSecurity Reg.security.secArg ∧ blockAt pgSecurity = some (.security, 0xFF) ∧
    (ownWrite .rm .security 0xFF pgSecurity Reg.security.secArg 5).isNone = true ∧ (rowAt .security Reg.security.secArg).map (·.typ) = some .rw ∧
    Reg.security.secArg ∉ regPairs .security ∧ Reg.security.secArg - 4 ∉ regPairs .security ∧ perPath .security (daOff (pgSecurity + Reg.security.secArg)) = false ∧
    WriteOpen z .rm pgSecurity Reg.security.secArg ∧
    (after (.registerWrite .rm (reg (pgSecurity + Reg.security.secArg)) 4 5) z).hw.reg (pgSecurity + Reg.security.secArg) = 5 ∧
    (after (.registerWrite .rm (reg (pgSecurity + Reg.security.secFwSvn)) 4 5) z).hw.reg (pgSecurity + Reg.security.secFwSvn) = z.hw.reg (pgSecurity + Reg.security.secFwSvn) ∧
    (after (.registerWrite .rm (reg (pgSecurity + Reg.security.secPolicy)) 4 5) z).hw.reg (pgSecurity + Reg.security.secPolicy) = 1 ∧
    (after (.registerWrite .h0 (reg (pgSecurity + Reg.security.secPolicy)) 4 5) z).hw.reg (pgSecurity + Reg.security.secPolicy) = 0 ∧
    z.hw.deadFor .rm l0.page = true ∧
    (after (.registerWrite .rm (reg (pgSecurity + Reg.security.secArg)) 2 5) z) = z := by
  unfold WriteOpen; refine ⟨?_, ?_, ?_, ?_, ?_, ?_, ?_, ?_, ?_, ?_⟩ <;> decide +kernel

/-- RegisterReadReturnsWords: part of a word, LO and its latched HI, a dead page, both halves at once. -/
theorem test_register_reads :
    z.hw.target .rm (reg (pgTimebase + 0x101)) (pgTimebase + 0x100) = .reg pgTimebase 0x100 ∧ z.hw.deadFor .rm pgTimebase = false ∧ 0x100 ∉ regPairs .timebase ∧ 0xFC ∉ regPairs .timebase ∧
    (after (.subwordRead .rm (reg (pgTimebase + 0x101)) 2) z).hw.out = [.readData .rm [0x61, 0]] ∧
    z.hw.target .rm (reg (pgTimebase + 0x108)) (pgTimebase + 0x108) = .reg pgTimebase 0x108 ∧ 0x108 ∈ regPairs .timebase ∧ 0x10C ∉ regPairs .timebase ∧ (pgTimebase + 0x108) % 8 = 0 ∧
    (after (.hiRead .rm (reg (pgTimebase + 0x10C))) (put (after (.loRead .rm (reg (pgTimebase + 0x108))) (put z [(pgTimebase + 0x10C, 7)])) [(pgTimebase + 0x10C, 9)])).hw.out = [.readData .rm [0, 0, 0, 0], .readData .rm [7, 0, 0, 0]] ∧
    (after (.hiRead .h0 (reg (pgTimebase + 0x10C))) (put (after (.loRead .rm (reg (pgTimebase + 0x108))) (put z [(pgTimebase + 0x10C, 7)])) [(pgTimebase + 0x10C, 9)])).hw.out = [.readData .rm [0, 0, 0, 0], .readData .h0 [9, 0, 0, 0]] ∧
    z.hw.target .rm (reg l0.page) l0.page = .reg l0.page 0 ∧ z.hw.deadFor .rm l0.page = true ∧
    (after (.subwordRead .rm (reg (pgTimebase + 0x108)) 8) (put z [(pgTimebase + 0x108, 3), (pgTimebase + 0x10C, 7)])).hw.out = [.readData .rm [3, 0, 0, 0, 7, 0, 0, 0]] := by
  refine ⟨?_, ?_, ?_, ?_, ?_, ?_, ?_⟩ <;> decide +kernel

/-- PairWriteStagesThenCommits. -/
theorem test_pair_writes :
    z.hw.target .rm (reg (pgTimebase + 0x130)) (pgTimebase + 0x130) = .reg pgTimebase 0x130 ∧ z.hw.target .rm (reg (pgTimebase + 0x134)) (pgTimebase + 0x134) = .reg pgTimebase 0x134 ∧
    (blockAt pgTimebase).map (·.1) = some .timebase ∧ (ownWrite .rm .timebase 0 pgTimebase 0x130 5).isNone = true ∧ (ownWrite .rm .timebase 0 pgTimebase 0x134 5).isNone = true ∧
    (rowAt .timebase 0x130).map (·.typ) = some .rw ∧ (rowAt .timebase 0x134).map (·.typ) = some .rw ∧ 0x130 ∈ regPairs .timebase ∧ 0x134 ∉ regPairs .timebase ∧
    perPath .timebase (daOff (pgTimebase + 0x130)) = false ∧ perPath .timebase (daOff (pgTimebase + 0x134)) = false ∧
    WriteOpen z .rm pgTimebase 0x130 ∧
    WriteOpen z .rm pgTimebase 0x134 ∧
    (after (.loWrite .rm (reg (pgTimebase + 0x130)) 5) z).hw.reg (pgTimebase + 0x130) = 0 ∧
    (after (.hiWrite .rm (reg (pgTimebase + 0x134)) 6) (after (.loWrite .rm (reg (pgTimebase + 0x130)) 5) z)).hw.reg64 (pgTimebase + 0x130) = 0x600000005 := by
  unfold WriteOpen; refine ⟨?_, ?_, ?_, ?_, ?_, ?_, ?_, ?_⟩ <;> decide +kernel

/-- EventBitsClearAndForce. -/
theorem test_events_clear_and_force :
    z.hw.target .rm (reg (pgTimebase + 0x010)) (pgTimebase + 0x010) = .reg pgTimebase 0x010 ∧ z.hw.target .rm (reg (pgTimebase + 0x018)) (pgTimebase + 0x018) = .reg pgTimebase 0x018 ∧ pgTimebase % 4096 = 0 ∧
    WriteOpen z .rm pgTimebase 0x010 ∧
    WriteOpen z .rm pgTimebase 0x018 ∧
    (after (.blkEventClear .rm (reg (pgTimebase + 0x010)) 0x300 0x200) (put z [(pgTimebase + 0x010, 0x701)])).hw.reg (pgTimebase + 0x010) = 0x601 ∧
    (after (.blkEventForce .rm (reg (pgTimebase + 0x018)) 0x100) (put z [(pgTimebase + 0x010, 0x001)])).hw.reg (pgTimebase + 0x010) = 0x101 := by
  unfold WriteOpen; refine ⟨?_, ?_, ?_, ?_, ?_⟩ <;> decide +kernel

/-- ResetRequestClearsPageCounters: allowed, and refused while a plan runs. -/
theorem test_reset_request :
    z.hw.target .rm (reg (pgTimebase + 0x008)) (pgTimebase + 0x008) = .reg pgTimebase 0x008 ∧ z.hw.resetAllowed pgTimebase = true ∧ (put z [slot0 3]).hw.resetAllowed pgTimebase = false ∧
    WriteOpen z .rm pgTimebase 0x008 ∧
    WriteOpen (put z [slot0 3]) .rm pgTimebase 0x008 ∧
    (after (.resetReq .rm (reg (pgTimebase + 0x008))) (put z [(pgTimebase + Reg.timebase.overrunTotal, 9), (pgTimebase + 0x010, 2)])).hw.reg (pgTimebase + Reg.timebase.overrunTotal) = 0 ∧
    (after (.resetReq .rm (reg (pgTimebase + 0x008))) (put z [slot0 3])).hw.reg (pgTimebase + 0x010) = 1 := by
  unfold WriteOpen; refine ⟨?_, ?_, ?_, ?_, ?_⟩ <;> decide +kernel

/-- ClearCountersCommandsZeroTheirCounters. -/
theorem test_clear_counters :
    ∀ x ∈ ([(.meClearCounters .rm e0, lit), (.mcClearCounters .rm m0, lit), (.vcClearCounters .rm v0, lit), (.veClearCounters .rm (.vcore v0 0), lit), (.msClearCounters .rm 0, put lit [(sitePage 0 + 0x00C, 3)]), (.ucClearCounters .rm 0, lit), (.scClearCounters .rm 0, z), (.hpClearCounters .rm 0, put z [(pgHostPort 0 + 0x00C, 2)]), (.pgClearCounters .rm, z), (.cmClearCounters .rm (.cluster l0), lit)] : List (Instr × State)), (match pureClear x.1 with | some (p, pg, code, legal, offs) => decide (x.2.hw.deadFor p pg = false ∧ x.2.hw.mayCommand p pg none = true ∧ x.2.hw.fencedPage pg = false ∧ x.2.hw.stateCode pg ∈ legal) && offs.all (fun o => (after x.1 (put x.2 [(pg + o, 1)])).hw.reg (pg + o) = BitVec.ofNat 32 (resetOf (pg + o))) && decide ((after x.1 x.2).hw.reg (pg + 0x020) = resultWord p code .ok) | none => false) = true := by
  decide +kernel

/-- CommandsAreTestedInOrder: a dead page, no lease, a fenced block, a state that forbids the command. -/
theorem test_commands_in_order :
    (pageCommand (.meClearSets .rm e0)).isSome = true ∧ z.hw.deadFor .rm e0.page = true ∧
    (pageCommand (.setPeriod .h0)).isSome = true ∧ z.hw.deadFor .h0 pgTimebase = false ∧ z.hw.mayCommand .h0 pgTimebase none = false ∧
    (after (.setPeriod .h0) z).hw.reg (pgTimebase + 0x020) = BitVec.ofNat 32 (3 + 1 * 256 + Path.h0.code * 65536) ∧
    (put lit [(e0.page + 0x008, 3)]).hw.deadFor .rm e0.page = false ∧ (put lit [(e0.page + 0x008, 3)]).hw.mayCommand .rm e0.page none = true ∧ (put lit [(e0.page + 0x008, 3)]).hw.fencedPage e0.page = true ∧
    (after (.meClearSets .rm e0) (put lit [(e0.page + 0x008, 3)])).hw.reg (e0.page + 0x020) = resultWord .rm 1 .fenced ∧
    (put lit [(e0.page + 0x00C, 1)]).hw.stateCode e0.page = 1 ∧ (put lit [(e0.page + 0x00C, 1)]).hw.fencedPage e0.page = false ∧ (put lit [(e0.page + 0x00C, 1)]).hw.deadFor .rm e0.page = false ∧
    (after (.meClearSets .rm e0) (put lit [(e0.page + 0x00C, 1)])).hw.reg (e0.page + 0x020) = resultWord .rm 1 .illegal := by
  refine ⟨?_, ?_, ?_, ?_, ?_, ?_, ?_⟩ <;> decide +kernel

/-- A word of bit fields, (lowest bit, value) each. -/
def word (n : Nat) (fs : List (Nat × Nat)) : BitVec n := BitVec.ofNat n (fs.foldl (fun a f => a + f.2 <<< f.1) 0)
/-- Timebase locked, a follower. -/
def locked : State := put z [(pgTimebase + 0x00C, 2), (pgTimebase + Reg.timebase.tbRole, 2), (pgTimebase + Reg.timebase.strideCountLo, 5)]
/-- Timebase locked, the master; a period change is set out. -/
def master (per inc at_ : Nat) : State :=
  put z [(pgTimebase + 0x00C, 2), (pgTimebase + Reg.timebase.tbRole, 1), (pgTimebase + Reg.timebase.stridePeriodNext, per),
    (pgTimebase + Reg.timebase.stretchIncrementNext, inc), (pgTimebase + Reg.timebase.applyAtLo, at_)]
/-- An S-core's hidden part set, its cluster's map valid for paddock 0, at stride 5. -/
def sq (x : ScoreState) : State := (put lit [rings, (l0.page + Reg.score.l2pCluster, 2 ^ 31), (pgTimebase + Reg.timebase.strideCountLo, 5)]).onHw fun h => h.setSq l0 x
def item : ItemEntry := ⟨2, 7, 1, 0, 3, 1, 9⟩
/-- A matrix engine set, its cluster mapped. -/
def me (l : MeLoc) (x : MeState) : State := (put lit [rings, (l0.page + Reg.score.l2pCluster, 2 ^ 31)]).onHw fun h => h.setMe l x
def tile : Tile := ⟨0, 0, 0, 0, [1], []⟩

set_option maxRecDepth 20000 in
/-- TickBeginsNextStride. -/
theorem test_tick :
    locked.hw.blkState pgTimebase = 2 ∧ locked.hw.tbRole = 2 ∧ (Tab.find locked.hw.tb.due ((locked.hw.stride + 1) % 2 ^ 48)).isNone = true ∧
    (∀ n : Paddock, (locked.hw.scAt n).pend = none ∧ (locked.hw.scAt n).abortStride = none ∧ (locked.hw.scAt n).sweepArmed = false ∧ locked.hw.planRunning n = false) ∧
    (∀ f : Field, ∀ m : Fin 16, locked.hw.blkState (pgMonitor f m) = 0) ∧
    (after .tick locked).hw.stride = 6 ∧ (after .tick locked).hw.curLen = 25000 ∧ (after .timingFrameLost locked).hw.stride = 6 := by
  refine ⟨?_, ?_, ?_, ?_⟩ <;> decide +kernel

/-- PeriodChangeIsHeldThenApplied: good at both ends of the ranges, bad beyond, a follower; the change taken at its stride and held before it. -/
theorem test_period_change :
    CmdOpen (master 4000 500 16) .rm pgTimebase [0, 1, 2, 3] ∧
    (master 4000 500 16).hw.tbRole = 1 ∧ (master 4000 500 16).hw.tb.pend = none ∧ (master 4000 500 16).hw.anyPlan = false ∧ (master 4000 500 16).hw.stride + 16 ≤ (master 4000 500 16).hw.reg64 (pgTimebase + Reg.timebase.applyAtLo) ∧
    (after (.setPeriod .rm) (master 4000 500 16)).hw.tb.pend = some (4000, 500, 16) ∧
    (after (.setPeriod .rm) (master 1000000 1000000 16)).hw.tb.pend = some (1000000, 1000000, 16) ∧
    (after (.setPeriod .rm) (master 3999 500 16)).hw.reg (pgTimebase + 0x020) = resultWord .rm 1 .badArg ∧
    (after (.setPeriod .rm) (master 4000 500 15)).hw.reg (pgTimebase + 0x020) = resultWord .rm 1 .badArg ∧
    CmdOpen locked .rm pgTimebase [0, 1, 2, 3] ∧
    locked.hw.tbRole ≠ 1 ∧
    (after (.setPeriod .rm) locked).hw.reg (pgTimebase + 0x020) = resultWord .rm 1 .illegal ∧
    (locked.onHw fun h => { h with tb := { h.tb with pend := some (4000, 500, 5) } }).hw.stride = 5 ∧ (∀ n : Paddock, locked.hw.planRunning n = false) ∧
    (after .periodApply (locked.onHw fun h => { h with tb := { h.tb with pend := some (4000, 500, 5) } })).hw.period = 4000 ∧
    (after .periodApply (locked.onHw fun h => { h with tb := { h.tb with pend := some (4000, 500, 6) } })).hw.period = 25000 := by
  unfold CmdOpen; refine ⟨?_, ?_, ?_, ?_, ?_, ?_, ?_, ?_, ?_, ?_, ?_, ?_⟩ <;> decide +kernel

/-- SCoreStrideOpcodes: a stride reached, one to come, the wait's end, the fields of a deadline. -/
theorem test_score_strides :
    (sq ScoreState.empty).hw.stride = 5 ∧ ((sq ScoreState.empty).hw.sqAt l0).wait = none ∧ ((sq { ScoreState.empty with wait := some (.stick 3 5) }).hw.sqAt l0).wait = some (.stick 3 5) ∧
    xReg (after (.stickWait l0 3 5) (sq ScoreState.empty)) l0 3 = 5 ∧ xReg (after (.stickWait l0 0 5) (sq ScoreState.empty)) l0 0 = 0 ∧
    ((after (.stickWait l0 3 6) (sq ScoreState.empty)).hw.sqAt l0).wait = some (.stick 3 6) ∧
    ((after (.stickWaitDone l0) (sq { ScoreState.empty with wait := some (.stick 3 5) })).hw.sqAt l0).wait = none ∧
    xReg (after (.sdlMake l0 3 7 9) (sq ScoreState.empty)) l0 3 = 7 * 2 ^ 20 + 9 := by
  refine ⟨?_, ?_, ?_, ?_, ?_⟩ <;> decide +kernel

/-- SCoreTokenOpcodes: a count met exactly, one short, a waiting one met, a signal, one to a fenced cluster. -/
theorem test_score_tokens :
    ((after (.stokWait l0 3 4 2) (sq { ScoreState.empty with tok := [(4, 2)] })).hw.sqAt l0).tok = [(4, 0)] ∧
    ((after (.stokWait l0 3 4 3) (sq { ScoreState.empty with tok := [(4, 2)] })).hw.sqAt l0).wait = some (.tok 3 4 3) ∧
    ((sq { ScoreState.empty with tok := [(4, 3)], wait := some (.tok 3 4 3) }).hw.sqAt l0).wait = some (.tok 3 4 3) ∧ Tab.get ((sq { ScoreState.empty with tok := [(4, 3)], wait := some (.tok 3 4 3) }).hw.sqAt l0).tok 4 0 = 3 ∧
    ((after (.stokWaitDone l0) (sq { ScoreState.empty with tok := [(4, 3)], wait := some (.tok 3 4 3) })).hw.sqAt l0).tok = [(4, 0)] ∧
    (sq ScoreState.empty).hw.paddockOfCluster l0 = some 0 ∧ (sq ScoreState.empty).hw.hostOf 0 0 = some l0 ∧ (sq ScoreState.empty).hw.fencedPage l0.page = false ∧
    Tab.get ((after (.stokSig l0 3 (4 <<< 16) 65535) (sq { ScoreState.empty with tok := [(4, 2)] })).hw.sqAt l0).tok 4 0 = 65535 ∧
    (put (sq ScoreState.empty) [(l0.page + 0x008, 3)]).hw.hostOf 0 0 = some l0 ∧ (put (sq ScoreState.empty) [(l0.page + 0x008, 3)]).hw.fencedPage l0.page = true ∧
    (after (.stokSig l0 3 (4 <<< 16) 1) (put (sq ScoreState.empty) [(l0.page + 0x008, 3)])).hw.fld (l0.page + Reg.score.tokenEvents) 16 16 = 1 := by
  refine ⟨?_, ?_, ?_, ?_, ?_, ?_, ?_, ?_⟩ <;> decide +kernel

/-- SCoreItemsBeginAndEnd: an item ready, one not; an item past its stride; its end; a stretch asked for and withheld. -/
theorem test_score_items :
    (sq { ScoreState.empty with items := [item], tok := [(3, 1)] }).hw.itemReady l0 0 item = true ∧ (sq { ScoreState.empty with items := [item], tok := [(3, 0)] }).hw.itemReady l0 0 item = false ∧
    ((after (.itemBegin l0 0) (sq { ScoreState.empty with items := [item], tok := [(3, 1)] })).hw.sqAt l0).begun = [0] ∧
    (after (.sitemBegin l0 4 0) (sq ScoreState.empty)).hw.fld (l0.page + Reg.score.overrunCount) 0 32 = 1 ∧ (after (.sitemBegin l0 5 0) (sq ScoreState.empty)).hw.fld (l0.page + Reg.score.overrunCount) 0 32 = 0 ∧
    (∀ m : Fin 16, (sq { ScoreState.empty with tracked := some ⟨4, true⟩ }).hw.blkState (pgMonitor l0.f m) = 0) ∧
    ((after (.sitemEnd l0 3) (sq { ScoreState.empty with tracked := some ⟨4, true⟩ })).hw.sqAt l0).tracked = none ∧
    (sq { ScoreState.empty with tracked := some ⟨4, true⟩ }).hw.behind l0 = true ∧
    (after (.stretchRequest l0) (put (sq { ScoreState.empty with tracked := some ⟨4, true⟩ }) [(pgTimebase + Reg.timebase.stretchReqEn, 1)])).hw.out = [.stretchReq l0 5] ∧
    (after (.stretchRequest l0) (put (sq { ScoreState.empty with tracked := some ⟨4, true⟩ }) [(pgTimebase + Reg.timebase.stretchReqEn, 0)])).hw.fld (pgTimebase + Reg.timebase.stretchWithheld) 0 32 = 1 := by
  refine ⟨?_, ?_, ?_, ?_, ?_, ?_, ?_, ?_⟩ <;> decide +kernel

/-- MatrixInstructionsIssueAndAdvance: MPASS, MFWD with one tile of two there, MSIG, MWAIT met and not. -/
theorem test_matrix_issue :
    MeTakes (me e0 MeState.empty) e0 ∧
    mpassCause MeState.empty (word 128 [(0, 1)]) = none ∧ meOtherCause 3 (word 128 [(0, 3), (17, 2)]) = none ∧ meOtherCause 5 (word 128 [(0, 5), (7, 3), (11, 1)]) = none ∧ meOtherCause 6 (word 128 [(0, 6), (7, 3), (11, 1)]) = none ∧
    ((after (.mpass e0 (word 128 [(0, 1)]) .ok) (me e0 MeState.empty)).hw.meAt e0).pc = 16 ∧ ((after (.mpass e0 (word 128 [(0, 1)]) .ok) (me e0 MeState.empty)).hw.meAt e0).prevSet = 1 ∧
    ((after (.mfwd e3 (word 128 [(0, 3), (17, 2)]) .ok) (me e3 { MeState.empty with chainIn := [tile] })).hw.meAt e3).ops = [.fwd 0 1] ∧
    (after (.mfwd e3 (word 128 [(0, 3), (17, 2)]) .ok) (me e3 { MeState.empty with chainIn := [tile] })).hw.out = [.chainOut m0 tile] ∧
    ((after (.msig e0 (word 128 [(0, 5), (7, 3), (11, 1)]) .ok) (me e0 MeState.empty)).hw.meAt e0).sigs.length = 1 ∧
    ((after (.mwait e0 (word 128 [(0, 6), (7, 3), (11, 1)]) .ok) (me e0 MeState.empty)).hw.meAt e0).wait = some (3, 1) ∧
    (after (.mwait e0 (word 128 [(0, 6), (7, 3), (11, 1)]) .ok) ((me e0 MeState.empty).onHw fun h => h.syncSet m0.page syncOff 3 1)).hw.syncGet m0.page syncOff 3 = 0 := by
  unfold MeTakes; refine ⟨?_, ?_, ?_, ?_, ?_, ?_, ?_, ?_⟩ <;> decide +kernel

/-- MatrixLoadsAndMasksTakeTheirData: MLOAD of memory, of the chain (none there, a tile that fits, one that does not), MMASK, a failed read. -/
theorem test_matrix_loads :
    mloadCause (word 128 [(0, 2)]) = none ∧ mloadCause (word 128 [(0, 2), (9, 1)]) = none ∧ meOtherCause 4 (word 128 [(0, 4), (7, 1)]) = none ∧ mloadCause (word 128 [(0, 2), (9, 1), (11, 1)]) = none ∧
    ((after (.mload e0 (word 128 [(0, 2), (8, 1)]) .ok) (me e0 MeState.empty)).hw.meAt e0).set1.isSome = true ∧
    ((after (.mload e0 (word 128 [(0, 2), (9, 1)]) .ok) (me e0 MeState.empty)).hw.meAt e0).ops = [.load 0 (word 128 [(0, 2), (9, 1)])] ∧
    ((after (.mload e0 (word 128 [(0, 2), (9, 1)]) .ok) (me e0 { MeState.empty with chainIn := [tile] })).hw.meAt e0).set0 = some tile ∧
    (after (.mload e0 (word 128 [(0, 2), (9, 1), (11, 1)]) .ok) (me e0 { MeState.empty with chainIn := [tile] })).hw.fld (m0.page + Reg.mcore.mcChainTagErr) 0 32 = 1 ∧
    ((after (.mmask e0 (word 128 [(0, 4), (7, 1)]) .ok) (me e0 { MeState.empty with kmask := [(1, 5)] })).hw.meAt e0).kmask = [(1, 0)] ∧
    (after (.mload e0 (word 128 [(0, 2)]) (.failed 64)) (me e0 { MeState.empty with set0 := some tile })).hw.bit (m0.page + 0x010) 10 = true ∧ ((after (.mload e0 (word 128 [(0, 2)]) (.failed 64)) (me e0 { MeState.empty with set0 := some tile })).hw.meAt e0).set0 = none := by
  refine ⟨?_, ?_, ?_, ?_, ?_, ?_, ?_⟩ <;> decide +kernel

/-- IllegalMatrixInstructionEndsProgram: an illegal word of each opcode. -/
theorem test_matrix_illegal :
    mpassCause MeState.empty (word 128 [(0, 1), (6, 3)]) = some 2 ∧ mloadCause (word 128 [(0, 2), (10, 1)]) = some 9 ∧ meOtherCause 3 (word 128 [(0, 3), (6, 1)]) = some 2 ∧ meOtherCause 4 (word 128 [(0, 4)]) = some 8 ∧
    meOtherCause 5 (word 128 [(0, 5), (27, 1)]) = some 2 ∧ meOtherCause 6 (word 128 [(0, 0)]) = some 1 ∧ meOtherCause 7 (word 128 [(0, 7), (9, 1)]) = some 2 ∧
    (after (.mend e0 (word 128 [(0, 7), (9, 1)]) .ok) (me e0 MeState.empty)).hw.bit (m0.page + 0x010) 8 = true := by
  refine ⟨?_, ?_, ?_⟩ <;> decide +kernel

/-- HeldPassRunsWhole: no pass, a pass that a load holds, a pass that runs. -/
theorem test_pass_start :
    ((me e0 MeState.empty).hw.meAt e0).ops = [] ∧
    after (.passStart e0 .none) (me e0 { MeState.empty with ops := [.load 0 (word 128 [(0, 2), (9, 1)]), .pass 1 (word 128 [(0, 1)]) 0] }) = me e0 { MeState.empty with ops := [.load 0 (word 128 [(0, 2), (9, 1)]), .pass 1 (word 128 [(0, 1)]) 0] } ∧
    (after (.passStart e0 .none) (me e0 { MeState.empty with ops := [.pass 1 (word 128 [(0, 1)]) 0] })).hw.reg64 (e0.page + Reg.me.mePassCountLo) = 1 ∧
    (after (.passStart e0 .stationary) (me e0 { MeState.empty with ops := [.pass 1 (word 128 [(0, 1)]) 0] })).hw.bit (e0.page + 0x010) 8 = true := by
  refine ⟨?_, ?_, ?_, ?_⟩ <;> decide +kernel

/-- MatrixSignalsAndWaitsUseCounters: a signal held by work, one to a counter, one past its range, one to a token; a wait met and not. -/
theorem test_matrix_signals :
    after (.msigEffect e0) (me e0 { MeState.empty with sigs := [(1, word 128 [(0, 5), (7, 3), (11, 1)])], ops := [.load 0 (word 128 [(0, 2), (9, 1)])] }) = me e0 { MeState.empty with sigs := [(1, word 128 [(0, 5), (7, 3), (11, 1)])], ops := [.load 0 (word 128 [(0, 2), (9, 1)])] } ∧
    (after (.msigEffect e0) (me e0 { MeState.empty with sigs := [(1, word 128 [(0, 5), (7, 3), (11, 1)])] })).hw.syncGet m0.page syncOff 3 = 1 ∧
    (after (.msigEffect e0) ((me e0 { MeState.empty with sigs := [(1, word 128 [(0, 5), (7, 3), (11, 1)])] }).onHw fun h => h.syncSet m0.page syncOff 3 65535)).hw.bit (m0.page + 0x010) 12 = true ∧
    (me e0 MeState.empty).hw.paddockOfCluster ((me e0 MeState.empty).hw.ownerOf m0) = some 0 ∧ (me e0 MeState.empty).hw.hostOf 0 0 = some l0 ∧
    Tab.get ((after (.msigEffect e0) (me e0 { MeState.empty with sigs := [(1, word 128 [(0, 5), (6, 1), (11, 2), (36, 4)])] })).hw.sqAt l0).tok 4 0 = 2 ∧
    after (.mwaitDone e0) (me e0 { MeState.empty with wait := some (3, 1) }) = me e0 { MeState.empty with wait := some (3, 1) } ∧
    ((after (.mwaitDone e0) ((me e0 { MeState.empty with wait := some (3, 1) }).onHw fun h => h.syncSet m0.page syncOff 3 1)).hw.meAt e0).wait = none := by
  refine ⟨?_, ?_, ?_, ?_, ?_, ?_, ?_⟩ <;> decide +kernel

/-- ProgramStartsQueueAndEnd: a start, a queued one, one too many, a fenced block; a VE's; MEND with and without a queue; clears. -/
theorem test_program_starts :
    WriteOpen (me e0 MeState.empty) .rm m0.page Reg.mcore.mcStart0 ∧
    ((after (.mcStartWrite .rm m0 0 0x50) (me e0 MeState.empty)).hw.meAt e0).pc = 0x50 ∧
    ((after (.mcStartWrite .rm m0 0 0x50) (put (me e0 MeState.empty) [(m0.page + Reg.mcore.mcStatus, 1)])).hw.meAt e0).queue = [0x50] ∧
    (after (.mcStartWrite .rm m0 0 0x50) (put (me e0 { MeState.empty with queue := List.replicate 8 0 }) [(m0.page + Reg.mcore.mcStatus, 1)])).hw.bit (m0.page + 0x010) 11 = true ∧
    (after (.mcStartWrite .rm m0 0 0x50) (put (me e0 MeState.empty) [(m0.page + 0x008, 3)])).hw.fld (m0.page + Reg.mcore.mcStartOvf) 0 32 = 1 ∧
    WriteOpen lit .rm v0.page Reg.vcore.vcStart0 ∧
    (after (.vcStartWrite .rm v0 0 0x58) lit).hw.regN ((VeLoc.vcore v0 0).page + Reg.ve.vePc) = 0x58 ∧
    ((after (.vcStartWrite .rm v0 0 0x58) (put lit [((VeLoc.vcore v0 0).page + Reg.ve.veStatus, 1)])).hw.veAt (.vcore v0 0)).queue = [0x58] ∧
    (after (.mcStartWrite .rm m0 4 0x58) lit).hw.regN ((VeLoc.epilogue m0).page + Reg.ve.vePc) = 0x58 ∧
    meOtherCause 7 (word 128 [(0, 7)]) = none ∧ Tab.get (me e0 MeState.empty).hw.prov e0.page [] = [] ∧
    ((after (.mend e0 (word 128 [(0, 7)]) .ok) (me e0 { MeState.empty with queue := [0x60] })).hw.meAt e0).pc = 0x60 ∧ ((after (.mend e0 (word 128 [(0, 7)]) .ok) (me e0 MeState.empty)).hw.meAt e0).pc = 16 ∧
    CmdOpen (me e0 MeState.empty) .rm e0.page [0] ∧
    ((after (.meClearSets .rm e0) (me e0 { MeState.empty with set0 := some tile })).hw.meAt e0).set0 = none ∧
    CmdOpen lit .rm m0.page [0] ∧
    CmdOpen lit .rm v0.page [0] ∧
    (after (.mcClearSync .rm m0) (lit.onHw fun h => h.syncSet m0.page syncOff 3 1)).hw.syncGet m0.page syncOff 3 = 0 := by
  unfold WriteOpen CmdOpen; refine ⟨?_, ?_, ?_, ?_, ?_, ?_, ?_, ?_, ?_, ?_, ?_, ?_, ?_, ?_, ?_, ?_⟩ <;> decide +kernel

/-- A vector engine set, running, with VL and SEW code, its cluster mapped. -/
def ve (l : VeLoc) (x : VeState) (vl sew : Nat) : State :=
  (put lit [rings, (l0.page + Reg.score.l2pCluster, 2 ^ 31), (l.page + Reg.ve.veVl, vl), (l.page + Reg.ve.veStatus, 1 + sew <<< 8)]).onHw fun h => h.setVe l x
def vv : VeLoc := .vcore v0 0
def vu : VeLoc := .update 0 0
/-- v1 = 1.0, 2.0, −3.0, 4.0; v2 = 0.5, 2, 3, −1 in FP32; p1 = elements 0 and 2; x1 = 2, x2 = 64. -/
def vx : VeState :=
  { VeState.empty with
    v := [(256, 0x3F800000), (257, 0x40000000), (258, 0xC0400000), (259, 0x40800000), (512, 0x3F000000), (513, 0x40000000), (514, 0x40400000), (515, 0xBF800000)]
    p := [(1, 5), (2, 6)], x := [(1, 2), (2, 64)] }
/-- An element-wise instruction meets the hypotheses of its statement. -/
def meets (s : State) : Option VeElemwise → Bool
  | none => false
  | some e =>
    let c := s.veIn e.l e.w
    decide (s.hw.veBlocked e.l = false ∧ veF e.w 0 8 = e.op ∧ e.w.toNat &&& (2 ^ 64 - 1 - 0xFF) &&& (2 ^ 64 - 1 - (e.used + uET)) = 0 ∧ e.x = .ok) &&
    c.typeOk e.types && c.alignOk e.regs && e.ok c && decide (0 < c.active.length)
/-- It meets them, and its elements and flags are those the statement gives. -/
def elemwise (s : State) (i : Instr) : Option VeElemwise → Bool
  | none => false
  | some e =>
    let c := s.veIn e.l e.w
    let t := after i s
    meets s (some e) &&
    ((List.range 6).all fun k => (t.hw.veAt e.l).elem c.lanes c.sew c.vd k = if k < c.vl ∧ c.on k = true then (e.f c k).1 % 2 ^ c.sew else c.st.elem c.lanes c.sew c.vd k) &&
    decide (t.hw.regN (e.l.page + Reg.ve.veVstat) = c.active.foldl (fun a n => a ||| (e.f c n).2) 0 ∧ t.hw.regN (e.l.page + Reg.ve.vePc) = 8)
def tern (op et : Nat) : VeWord := word 64 [(0, op), (8, 4), (13, 1), (18, 2), (23, 3), (28, 1), (32, et)]
def bin (op et : Nat) : VeWord := word 64 [(0, op), (8, 4), (13, 1), (18, 2), (28, 1), (32, et)]
def una (op et : Nat) : VeWord := word 64 [(0, op), (8, 4), (13, 1), (28, 1), (32, et)]
def v32 : State := ve vv vx 4 1
def e32 : State := ve (.epilogue m0) vx 4 1
def u32 : State := ve vu { vx with x := [(1, 0), (2, 512), (3, 0x40000000)] } 4 1

/-- VectorFloatElements. -/
theorem test_vector_float :
    (∀ i ∈ [Instr.vfadd vv (bin 0x40 0) .ok, .vfsub vv (bin 0x41 0) .ok, .vfmul vv (bin 0x42 0) .ok, .vfma vv (tern 0x43 0) .ok, .vfms vv (tern 0x44 0) .ok, .vfnma vv (tern 0x45 0) .ok, .vfmin vv (bin 0x46 0) .ok, .vfmax vv (bin 0x47 0) .ok, .vfabs vv (una 0x48 0) .ok, .vfneg vv (una 0x49 0) .ok, .vfdiv vv (bin 0x4A 0) .ok, .vfsqrt vv (una 0x4B 0) .ok], elemwise v32 i (veFloat i) = true) ∧
    (∀ i ∈ [Instr.vexp2 vv (una 0xC8 0) .ok, .vlog2 vv (una 0xC9 0) .ok, .vrsqrt vv (una 0xCA 0) .ok, .vrecip vv (una 0xCB 0) .ok, .vtanh vv (una 0xCC 0) .ok], meets v32 (veFloat i) = true) ∧
    ((after (.vfadd vv (bin 0x40 0) .ok) v32).hw.veAt vv).elem 128 32 4 0 = 0x3FC00000 ∧ ((after (.vfdiv vv (bin 0x4A 0) .ok) v32).hw.veAt vv).elem 128 32 4 2 = 0xBF800000 := by
  refine ⟨?_, ?_, ?_⟩ <;> decide +kernel

/-- VectorIntegerElements. -/
theorem test_vector_integer :
    ∀ i ∈ [Instr.vadd vv (bin 0x60 4) .ok, .vsub vv (bin 0x61 4) .ok, .vmul vv (bin 0x62 4) .ok, .vand vv (bin 0x63 4) .ok, .vor vv (bin 0x64 4) .ok, .vxor vv (bin 0x65 4) .ok, .vmin vv (bin 0x69 4) .ok, .vmax vv (bin 0x6A 5) .ok, .viota vv (word 64 [(0, 0x6C), (8, 4), (28, 1)]) .ok, .vmv vv (una 0x6D 0) .ok, .vslidedn vv (word 64 [(0, 0xA3), (8, 4), (13, 1), (18, 1), (28, 1)]) .ok, .vrgather vv (bin 0xA4 0) .ok], elemwise v32 i (veInteger i) = true := by
  decide +kernel

/-- VectorLoadsElements: VLD, VLDN with 8-bit blocks, VLDAIF. -/
theorem test_vector_loads :
    elemwise v32 (.vld vv (word 64 [(0, 0x20), (8, 4), (28, 1), (35, 2)]) .ok) (veLoads (.vld vv (word 64 [(0, 0x20), (8, 4), (28, 1), (35, 2)]) .ok)) = true ∧
    elemwise v32 (.vldn vv (word 64 [(0, 0x22), (8, 4), (28, 1), (35, 2), (40, 2), (46, 1)]) .ok) (veLoads (.vldn vv (word 64 [(0, 0x22), (8, 4), (28, 1), (35, 2), (40, 2), (46, 1)]) .ok)) = true ∧
    elemwise u32 (.vldaif vu (word 64 [(0, 0xF2), (8, 4), (28, 1), (35, 1), (39, 2)]) .ok) (veLoads (.vldaif vu (word 64 [(0, 0xF2), (8, 4), (28, 1), (35, 1), (39, 2)]) .ok)) = true := by
  refine ⟨?_, ?_, ?_⟩ <;> decide +kernel

/-- VectorCompressWritesInOrder, VectorExpandFillsActiveElements. -/
theorem test_vector_compress_expand :
    VeTakes v32 vv (una 0xA0 0) 0xA0 (uVD + uVS1 + uPR + uIM 0 4 + uET) ∧
    ((VeCheck.ok ≠ .regParity ∧ VeCheck.ok ≠ .imemParity) ∧ ∀ o : Fin 4, VeCheck.ok ≠ .crcFailed o.val) ∧
    (v32.veIn vv (una 0xA0 0)).typeOk allTypes = true ∧ (v32.veIn vv (una 0xA0 0)).alignOk [4, 1] = true ∧ (v32.veIn vv (una 0xA0 0)).meet 4 1 = false ∧
    ((after (.vcompress vv (word 64 [(0, 0xA0), (8, 4), (13, 1), (28, 1), (35, 3)]) .ok) v32).hw.veAt vv).elem 128 32 4 1 = 0xC0400000 ∧ ((after (.vcompress vv (word 64 [(0, 0xA0), (8, 4), (13, 1), (28, 1), (35, 3)]) .ok) v32).hw.veAt vv).xr 3 = 2 ∧
    VeTakes v32 vv (una 0xA1 0) 0xA1 (uVD + uVS1 + uPR + uET) ∧
    (v32.veIn vv (una 0xA1 0)).typeOk allTypes = true ∧ (v32.veIn vv (una 0xA1 0)).meet 4 1 = false ∧
    ((after (.vexpand vv (una 0xA1 0) .ok) v32).hw.veAt vv).elem 128 32 4 2 = 0x40000000 := by
  unfold VeTakes; refine ⟨?_, ?_, ?_, ?_, ?_, ?_, ?_⟩ <;> decide +kernel

/-- VectorMergesSlidesAndShifts; the shift by 64 leaves a free value and the others as the rule says. -/
theorem test_vector_merge_slide_shift :
    VeTakes v32 vv (bin 0x6B 0) 0x6B (uVD + uVS1 + uPR + uVX (bin 0x6B 0) + uET) ∧
    ((after (.vmerge vv (bin 0x6B 0) .ok) v32).hw.veAt vv).elem 128 32 4 1 = 0x40000000 ∧ ((after (.vmerge vv (bin 0x6B 0) .ok) v32).hw.veAt vv).elem 128 32 4 0 = 0x3F800000 ∧
    VeTakes v32 vv (word 64 [(0, 0xA2), (8, 4), (13, 1), (18, 1)]) 0xA2 (uVD + uVS1 + uPR + uXS2 + uET) ∧
    ((after (.vslideup vv (word 64 [(0, 0xA2), (8, 4), (13, 1), (18, 1)]) .ok) v32).hw.veAt vv).elem 128 32 4 2 = 0x3F800000 ∧ ((after (.vslideup vv (word 64 [(0, 0xA2), (8, 4), (13, 1), (18, 1)]) .ok) v32).hw.veAt vv).elem 128 32 4 1 = 0 ∧
    VeTakes v32 vv (word 64 [(0, 0x66), (8, 4), (13, 1), (18, 1), (32, 4), (35, 1)]) 0x66 (uVD + uVS1 + uPR + uVX (word 64 [(0, 0x66), (8, 4), (13, 1), (18, 1), (32, 4), (35, 1)]) + uET) ∧
    ((after (.vsll vv (word 64 [(0, 0x66), (8, 4), (13, 1), (18, 1), (32, 4), (35, 1)]) .ok) v32).hw.veAt vv).elem 128 32 4 0 = 0xFE000000 ∧
    ((after (.vsra vv (word 64 [(0, 0x68), (8, 4), (13, 1), (18, 1), (32, 4), (35, 1)]) .ok) v32).hw.veAt vv).elem 128 32 4 2 = 0xF0100000 ∧
    ((after (.vsrl vv (word 64 [(0, 0x67), (8, 4), (13, 1), (18, 1), (32, 4), (35, 1)]) .ok) v32).hw.veAt vv).elem 128 32 4 2 = 0x30100000 ∧
    VeTakes v32 vv (word 64 [(0, 0x14), (8, 4), (13, 1)]) 0x14 (uVD + uXS1 + uET) ∧
    ((after (.vmvsx vv (word 64 [(0, 0x14), (8, 4), (13, 1)]) .ok) v32).hw.veAt vv).elem 128 32 4 0 = 2 := by
  unfold VeTakes; refine ⟨?_, ?_, ?_, ?_, ?_, ?_, ?_, ?_, ?_, ?_⟩ <;> decide +kernel

/-- VectorPredicatesAndScalars. -/
theorem test_vector_predicates_scalars :
    VeTakes v32 vv (word 64 [(0, 0x82), (8, 3), (13, 1), (18, 2)]) 0x82 (uPD + uVS1 + uPR + uVX (word 64 [(0, 0x82), (8, 3), (13, 1), (18, 2)]) + uET) ∧
    Tab.get ((after (.vcmplt vv (word 64 [(0, 0x82), (8, 3), (13, 1), (18, 2)]) .ok) v32).hw.veAt vv).p 3 0 = 4 ∧ Tab.get ((after (.vcmpeq vv (word 64 [(0, 0x80), (8, 3), (13, 1), (18, 2)]) .ok) v32).hw.veAt vv).p 3 0 = 2 ∧
    VeTakes v32 vv (word 64 [(0, 0x88), (8, 3), (13, 1), (18, 2)]) 0x88 (uPD + uPS1 + uPS2) ∧
    Tab.get ((after (.pand vv (word 64 [(0, 0x88), (8, 3), (13, 1), (18, 2)]) .ok) v32).hw.veAt vv).p 3 0 = 4 ∧ Tab.get ((after (.pnot vv (word 64 [(0, 0x8B), (8, 3), (13, 1)]) .ok) v32).hw.veAt vv).p 3 0 = 10 ∧
    VeTakes v32 vv (word 64 [(0, 0x04), (8, 3), (13, 1), (18, 2)]) 0x04 (uXD + uXS1 + uXS2) ∧
    ((after (.xsub vv (word 64 [(0, 0x04), (8, 3), (13, 1), (18, 2)]) .ok) v32).hw.veAt vv).xr 3 = 2 ^ 64 - 62 ∧ ((after (.xsub vv (word 64 [(0, 0x04), (13, 1), (18, 2)]) .ok) v32).hw.veAt vv).xr 0 = 0 ∧
    VeTakes v32 vv (word 64 [(0, 0x13), (8, 3), (13, 1)]) 0x13 (uXD + uVS1 + uET) ∧
    ((after (.vmvxs vv (word 64 [(0, 0x13), (8, 3), (13, 1)]) .ok) v32).hw.veAt vv).xr 3 = 0x3F800000 ∧
    VeTakes v32 vv (word 64 [(0, 0x01), (8, 3), (13, 2), (35, 1)]) 0x01 (uXD + uXS1 + uIM 0 4) ∧
    (after (.setvl vv (word 64 [(0, 0x01), (8, 3), (13, 2), (35, 1)]) .ok) v32).hw.fld (vv.page + Reg.ve.veVl) 0 13 = 64 ∧
    VeTakes v32 vv (word 64 [(0, 0x0D), (13, 1), (18, 2), (35, 3)]) 0x0D (uXS1 + uXS2 + uIM 0 29) ∧
    (after (.blt vv (word 64 [(0, 0x0D), (13, 1), (18, 2), (35, 3)]) .ok) v32).hw.regN (vv.page + Reg.ve.vePc) = 24 ∧ (after (.bge vv (word 64 [(0, 0x0E), (13, 1), (18, 2), (35, 3)]) .ok) v32).hw.regN (vv.page + Reg.ve.vePc) = 8 := by
  unfold VeTakes; refine ⟨?_, ?_, ?_, ?_, ?_, ?_, ?_, ?_, ?_, ?_, ?_, ?_⟩ <;> decide +kernel

/-- VectorReductionsWriteElementZero: with active elements and, below, with none. -/
theorem test_vector_reductions :
    (∀ op ∈ [0xB0, 0xB1, 0xB2, 0xB3, 0xB4, 0xB5], VeTakes v32 vv (una op 0) op (uVD + uVS1 + uPR + uET) ∧ (v32.veIn vv (una op 0)).typeOk [0, 3, 4, 5] = true ∧ (v32.veIn vv (una op 0)).alignOk [4, 1] = true) ∧
    (∀ op ∈ [0xB6, 0xB7], VeTakes v32 vv (una op 4) op (uVD + uVS1 + uPR + uET) ∧ (v32.veIn vv (una op 4)).typeOk intTypes = true) ∧
    ((after (.vredsum vv (una 0xB0 0) .ok) v32).hw.veAt vv).elem 128 32 4 0 = 0xC0000000 ∧ ((after (.vredprod vv (una 0xB1 0) .ok) v32).hw.veAt vv).elem 128 32 4 0 = 0xC0400000 ∧
    ((after (.vredmax vv (una 0xB2 0) .ok) v32).hw.veAt vv).elem 128 32 4 0 = 0x3F800000 ∧ ((after (.vredmin vv (una 0xB3 0) .ok) v32).hw.veAt vv).elem 128 32 4 0 = 0xC0400000 ∧
    ((after (.vredargmax vv (una 0xB4 0) .ok) v32).hw.veAt vv).elem 128 32 4 0 = 0 ∧ ((after (.vredargmin vv (una 0xB5 0) .ok) v32).hw.veAt vv).elem 128 32 4 0 = 2 ∧
    ((after (.vredand vv (una 0xB6 4) .ok) v32).hw.veAt vv).elem 128 32 4 0 = 0 ∧ ((after (.vredor vv (una 0xB7 4) .ok) v32).hw.veAt vv).elem 128 32 4 0 = 0xFFC00000 ∧
    (after (.vredargmax vv (una 0xB4 0) .ok) (ve vv vx 0 1)).hw.regN (vv.page + Reg.ve.veVstat) = 32 ∧ ((after (.vredargmax vv (una 0xB4 0) .ok) (ve vv vx 0 1)).hw.veAt vv).elem 128 32 4 0 = 0xFFFFFFFF := by
  unfold VeTakes; refine ⟨?_, ?_, ?_, ?_, ?_, ?_, ?_⟩ <;> decide +kernel

/-- VectorConvertsSplitsDrawsAndLoadsRows. -/
theorem test_vector_convert_split_rows :
    VeTakes v32 vv (word 64 [(0, 0xC0), (8, 4), (13, 1), (28, 1), (32, 4)]) 0xC0 (uVD + uVS1 + uPR + uET + uIM 1 3 + uIM 4 1) ∧
    cvtPairs.contains (0, 4) = true ∧ etHere vv 0 = true ∧ (v32.veIn vv (word 64 [(0, 0xC0), (8, 4), (13, 1), (28, 1), (32, 4)])).sew = 32 ∧
    ((after (.vcvt vv (word 64 [(0, 0xC0), (8, 4), (13, 1), (28, 1), (32, 4)]) .ok) v32).hw.veAt vv).elem 128 32 4 2 = 0xFFFFFFFD ∧
    VeTakes v32 vv (word 64 [(0, 0xC1), (8, 4), (13, 1), (23, 6)]) 0xC1 (uVD + uVS1 + uVS3 + uPR + uET) ∧
    ((after (.vsplit vv (word 64 [(0, 0xC1), (8, 4), (13, 1), (23, 6)]) .ok) v32).hw.veAt vv).elem 128 16 4 1 = 0x4000 ∧
    VeTakes v32 vv (word 64 [(0, 0xC2), (8, 4), (13, 1), (18, 2), (28, 1)]) 0xC2 (uVD + uXS1 + uXS2 + uPR + uET) ∧
    v32.hw.vePaddock vv = some 0 ∧ (v32.veIn vv (word 64 [(0, 0xC2), (8, 4), (28, 1)])).typeOk [0, 4, 5] = true ∧
    ((after (.vrand vv (word 64 [(0, 0xC2), (8, 4), (13, 1), (18, 2), (28, 1)]) .ok) v32).hw.veAt vv).elem 128 32 4 2 = (rngGen 0 1 2 66).toNat ∧
    VeTakes e32 (.epilogue m0) (word 64 [(0, 0xE0), (8, 4), (28, 1)]) 0xE0 (uVD + accUsed (.epilogue m0) + uET) ∧
    (e32.veIn (.epilogue m0) (word 64 [(0, 0xE0), (8, 4), (28, 1)])).accOut = false ∧ (e32.veIn (.epilogue m0) (word 64 [(0, 0xE0), (8, 4), (28, 1)])).accMe = some e0 ∧
    ((after (.vldacc (.epilogue m0) (word 64 [(0, 0xE0), (8, 4), (28, 1)]) .ok) (e32.onHw fun h => h.setMe e0 { MeState.empty with acc := [(2, 9)] })).hw.veAt (.epilogue m0)).elem 64 32 4 2 = 9 ∧
    VeTakes e32 (.epilogue m0) (word 64 [(0, 0xE1), (23, 1), (28, 1)]) 0xE1 (uVS3 + accUsed (.epilogue m0) + uET) ∧
    Tab.get ((after (.vstacc (.epilogue m0) (word 64 [(0, 0xE1), (23, 1), (28, 1)]) .ok) e32).hw.meAt e0).acc 2 0 = 0xC0400000 ∧
    VeTakes v32 vv (word 64 [(0, 0x24), (8, 3), (35, 2)]) 0x24 (uPD + uIM 0 7 + uIM 11 18) ∧
    (v32.veIn vv (word 64 [(0, 0x24), (8, 3), (35, 2)])).pOut = false ∧
    Tab.get ((after (.vldp vv (word 64 [(0, 0x24), (8, 3), (35, 2)]) .ok) { v32 with mem := [((v32.veIn vv (word 64 [(0, 0x24), (8, 3), (35, 2)])).da 64, 9)] }).hw.veAt vv).p 3 0 = 9 := by
  unfold VeTakes; refine ⟨?_, ?_, ?_, ?_, ?_, ?_, ?_, ?_, ?_, ?_, ?_, ?_, ?_, ?_, ?_, ?_⟩ <;> decide +kernel

/-- VectorStoresWriteTheirBytes. -/
theorem test_vector_stores :
    VeTakes v32 vv (word 64 [(0, 0x21), (23, 1), (28, 1), (35, 2)]) 0x21 (uVS3 + ldUsed (word 64 [(0, 0x21), (23, 1), (28, 1), (35, 2)]) + uET) ∧
    (v32.veIn vv (word 64 [(0, 0x21), (23, 1), (28, 1), (35, 2)])).addrFault = none ∧ (v32.veIn vv (word 64 [(0, 0x21), (23, 1), (28, 1), (35, 2)])).typeOk allTypes = true ∧
    memNat (after (.vst vv (word 64 [(0, 0x21), (23, 1), (28, 1), (35, 2)]) .ok) v32).mem ((veSpace vv 0).1 + 64) 12 = 0xC0400000000000003F800000 ∧
    VeTakes u32 vu (word 64 [(0, 0xF3), (23, 1), (28, 1), (35, 2)]) 0xF3 (uVS3 + ldUsed (word 64 [(0, 0xF3), (23, 1), (28, 1), (35, 2)]) + uET) ∧
    memNat (after (.vstd vu (word 64 [(0, 0xF3), (23, 1), (28, 1), (35, 2)]) .ok) u32).mem ((veSpace vu 0).1 + 512) 4 = 0x3F800000 ∧
    VeTakes v32 vv (word 64 [(0, 0x23), (23, 1), (35, 2), (40, 2), (46, 1)]) 0x23 (uVS3 + uPR + uIM 0 15 + uET) ∧
    (v32.veIn vv (word 64 [(0, 0x23), (23, 1), (35, 2), (40, 2), (46, 1)])).nResv = false ∧ (v32.veIn vv (word 64 [(0, 0x23), (23, 1), (35, 2), (40, 2), (46, 1)])).nOut = false ∧
    (after (.vstn vv (word 64 [(0, 0x23), (23, 1), (35, 2), (40, 2), (46, 1)]) .ok) v32).mem ≠ [] ∧
    VeTakes u32 vu (word 64 [(0, 0xF5), (23, 1), (35, 2), (40, 2), (46, 1), (50, 3)]) 0xF5 (uVS3 + uPR + uIM 0 19 + uET) ∧
    fp32.decode 0x40000000 = .fin false (2 ^ 23) (-22) ∧ (u32.veIn vu (word 64 [(0, 0xF5), (23, 1), (35, 2), (40, 2), (46, 1), (50, 3)])).nOut = false ∧
    (after (.vstnt vu (word 64 [(0, 0xF5), (23, 1), (35, 2), (40, 2), (46, 1), (50, 3)]) .ok) u32).mem ≠ [] ∧
    VeTakes v32 vv (word 64 [(0, 0x25), (23, 1), (35, 2)]) 0x25 (0x7 <<< 23 + uIM 0 7 + uIM 11 18) ∧
    memNat (after (.vstp vv (word 64 [(0, 0x25), (23, 1), (35, 2)]) .ok) v32).mem ((veSpace vv 0).1 + 64) 1 = 5 := by
  unfold VeTakes; refine ⟨?_, ?_, ?_, ?_, ?_, ?_, ?_, ?_, ?_, ?_, ?_, ?_, ?_⟩ <;> decide +kernel

/-- VectorControlInstructions. -/
theorem test_vector_control :
    VeTakes v32 vv (word 64 [(0, 0x10), (35, 3), (39, 1)]) 0x10 (uIM 0 20) ∧
    bitOf (Tab.get v32.hw.syncTaint (veSync vv).1 0) 3 = false ∧
    ((after (.vwait vv (word 64 [(0, 0x10), (35, 3), (39, 1)]) .ok) v32).hw.veAt vv).wait = some (3, 1) ∧
    ((after (.vwaitDone vv) ((ve vv { vx with wait := some (3, 1) } 4 1).onHw fun h => h.syncSet v0.page syncOff 3 1)).hw.veAt vv).wait = none ∧ ((after (.vwaitDone vv) (ve vv { vx with wait := some (3, 1) } 4 1)).hw.veAt vv).wait = some (3, 1) ∧
    VeTakes v32 vv (word 64 [(0, 0x11), (35, 3), (39, 1)]) 0x11 (uIM 0 21) ∧
    ((after (.vsig vv (word 64 [(0, 0x11), (35, 3), (39, 1)]) .ok) v32).hw.veAt vv).sigs.length = 1 ∧
    (after (.vsigEffect vv) (ve vv { vx with sigs := [(word 64 [(0, 0x11), (35, 3), (39, 1)], 0)] } 4 1)).hw.syncGet v0.page syncOff 3 = 1 ∧
    v32.hw.hostOf 0 0 = some l0 ∧ v32.hw.fencedPage l0.page = false ∧
    Tab.get ((after (.vsigEffect vv) (ve vv { vx with sigs := [(word 64 [(0, 0x11), (39, 2), (55, 1)], 4 <<< 16)] } 4 1)).hw.sqAt l0).tok 4 0 = 2 ∧
    VeTakes v32 vv (word 64 [(0, 0x12), (35, 2)]) 0x12 (uIM 0 8) ∧
    (after (.vstatc vv (word 64 [(0, 0x12), (35, 2)]) .ok) (put v32 [(vv.page + Reg.ve.veVstat, 3)])).hw.regN (vv.page + Reg.ve.veVstat) = 1 ∧
    VeTakes v32 vv (word 64 [(0, 0x1F)]) 0x1F 0 ∧
    Tab.get v32.hw.prov vv.page [] = [] ∧ (after (.vend vv (word 64 [(0, 0x1F)]) .ok) v32).hw.bit (vv.page + Reg.ve.veStatus) 0 = false ∧
    VeTakes u32 vu (word 64 [(0, 0x1F)]) 0x1F 0 ∧
    VeTakes u32 vu (word 64 [(0, 0xF1), (8, 4), (35, 2)]) 0xF1 (uXD + uIM 0 5) ∧
    ((after (.umvwait vu (word 64 [(0, 0xF1), (8, 4), (35, 2)]) .ok) u32).hw.veAt vu).umWait = some (2, 4) ∧
    ((after (.umvwait vu (word 64 [(0, 0xF1), (8, 4), (35, 2)]) .ok) (u32.onHw fun h => h.setMv (ueChannel 0 2) { h.mvAt (ueChannel 0 2) with records := [⟨7, 0, 5, 0⟩] })).hw.veAt vu).xr 4 = 7 ∧
    VeTakes u32 vu (word 64 [(0, 0xF0), (8, 4), (13, 2), (35, 2)]) 0xF0 (uXD + uXS1 + uIM 0 5) ∧
    (u32.hw.ueAt 0 0).running = none ∧ (u32.veIn vu (word 64 [(0, 0xF0), (8, 4), (13, 2), (35, 2)])).x1 % 32 = 0 ∧
    ((after (.umvkick vu (word 64 [(0, 0xF0), (8, 4), (13, 2), (35, 2)]) .ok) u32).hw.veAt vu).xr 4 = CmdRes.badArg.code := by
  unfold VeTakes; refine ⟨?_, ?_, ?_, ?_, ?_, ?_, ?_, ?_, ?_, ?_, ?_, ?_, ?_, ?_, ?_, ?_, ?_, ?_, ?_, ?_⟩ <;> decide +kernel

def r0 : RtrLoc := .cluster l0
/-- A flit with its end-to-end fields, its CRC not filled in. -/
def raw (kind last dst off : Nat) (bytes : List Byte) : Flit :=
  ⟨word 128 [(35, kind), (39, last), (40, dst), (66, 5), (72, off), (104, bytes.length - 1)], bytes⟩
/-- A flit from cluster 0. -/
def flit (kind dst : Nat) (bytes : List Byte) : Flit := raw kind 1 dst 0 bytes
/-- Router 0 in service: its links UP, a tree slot and a chain slot bound, the map valid. -/
def mesh : State :=
  (put (sq ScoreState.empty) [(r0.page + 0x00C, 2), (r0.page + Reg.router.rtrLinkStateA, 0o222222), (r0.page + Reg.router.rtrLinkStateB, 0o222222)]).onHw fun h =>
    h.setRtr r0 { h.rtrAt r0 with slots := [(2, word 32 [(0, 1), (1, 1), (3, 9), (13, 4), (17, 0b10010), (24, 4)], 0, 0), (3, word 32 [(0, 1), (3, 7), (18, 1), (24, 7)], 0, word 32 [(4, 1)]),
      (4, word 32 [(0, 1), (3, 8), (18, 1), (24, 7)], 0, 0), (5, word 32 [(0, 1), (1, 2), (3, 9), (13, 4), (17, 0b10010), (24, 4)], 0, 0)] }
def east : RtrLoc := .cluster ⟨0, 1⟩
/-- A link of router 0 toward the east in a state. -/
def link (st : Nat) (l : LinkState) : State := (put lit [(r0.page + 0x00C, 2), (r0.page + Reg.router.rtrPortSel, 1), (r0.page + Reg.router.rtrLinkStateA, st <<< 3), (r0.page + Reg.router.rtrLinkStateB, 2 <<< 3)]).onHw fun h => h.setLink r0 1 .a l
/-- Flits as they travel on a link with SEQ 0, both CRCs right: a WRITE, chain flits of chains 7 and 8, a reduction and a credit vote unit. -/
def wWrite : Flit := ⟨0x11fb0000000000140002408800000000#128, [1]⟩
def wChain7 : Flit := ⟨0x53510100010703140000002800000000#128, [1, 2]⟩
def wChain8 : Flit := ⟨0xcc1c0100010803140000002800000000#128, [1, 2]⟩
def wRed : Flit := ⟨0xb89d000000000914000000b160000002#128, [5]⟩
def wCred : Flit := ⟨0x15ff000000000914000000cba0000003#128, [5]⟩

/-- VectorExceptionLeavesNoEffect: a reserved type, and a VE that is fenced. -/
theorem test_vector_exception :
    (match veFloat (.vfadd vv (bin 0x40 6) .ok) with | some e => e.cause v32 | none => 0) = 2 ∧
    v32.hw.veBlocked vv = false ∧ (after (.vfadd vv (bin 0x40 6) .ok) v32).hw.bit (vv.page + 0x010) 8 = true ∧ (after (.vfadd vv (bin 0x40 6) .ok) v32).hw.fld (vv.page + 0x02C) 0 16 = 2 ∧
    (put v32 [(vv.page + 0x008, 3)]).hw.veBlocked vv = true := by
  refine ⟨?_, ?_, ?_⟩ <;> decide +kernel

/-- WatchRangesSlotsAndSnapshots. -/
theorem test_watch :
    WriteOpen z .rm (pgWatch 0) Reg.watch.nwSel ∧
    (after (.nwSelWrite .rm 0 0xFFFFFFFF) z).hw.reg (pgWatch 0 + Reg.watch.nwSel) = 0x80001FFF ∧
    CmdOpen (put z [(pgWatch 0 + Reg.watch.nwSel, 2 ^ 31 + 5), (pgWatch 0 + Reg.watch.nwBaseLo, 64), (pgWatch 0 + Reg.watch.nwLen, 1)]) .rm (pgWatch 0) [0, 2] ∧
    Tab.find ((after (.writeRange .rm 0) (put z [(pgWatch 0 + Reg.watch.nwSel, 2 ^ 31 + 5), (pgWatch 0 + Reg.watch.nwBaseLo, 64), (pgWatch 0 + Reg.watch.nwLen, 1)])).hw.nwAt 0).ranges 5 = some ⟨64, 1, 0⟩ ∧
    (after (.writeRange .rm 0) (put z [(pgWatch 0 + Reg.watch.nwSel, 2 ^ 31 + 5), (pgWatch 0 + Reg.watch.nwBaseLo, 65), (pgWatch 0 + Reg.watch.nwLen, 1)])).hw.reg (pgWatch 0 + 0x020) = resultWord .rm 1 .badArg ∧
    Tab.find ((after (.writeSlot .rm 0) (put z [(pgWatch 0 + Reg.watch.nwSel, 4095), (pgWatch 0 + Reg.watch.nwSlotCfg, 7)])).hw.nwAt 0).slots 4095 = some 7 ∧
    ((after (.clearCounts .rm 0) (z.onHw fun h => h.setNw 0 { h.nwAt 0 with counts := [(1, NwCounts.none)] })).hw.nwAt 0).counts = [] ∧
    CmdOpen (put z [(pgWatch 0 + 0x00C, 1)]) .rm (pgWatch 0) [1] ∧
    (after (.nwSnapshot .rm 0) (put z [(pgWatch 0 + 0x00C, 1)])).hw.regN (pgWatch 0 + Reg.watch.nwSnapStatus) = 3 := by
  unfold CmdOpen WriteOpen; refine ⟨?_, ?_, ?_, ?_, ?_, ?_, ?_, ?_, ?_⟩ <;> decide +kernel

/-- MonitorWindowsEndInSnapshots. -/
theorem test_monitor :
    CmdOpen lit .rm (pgMonitor 0 0) [0] ∧
    monSrcOk 0 7 = true ∧ monSrcOk 0 0 = false ∧
    (after (.monStart .rm 0 0) (put lit [(pgMonitor 0 0 + Reg.monitor.monSrc, 7), (pgMonitor 0 0 + Reg.monitor.monWindow, 1), (pgMonitor 0 0 + Reg.monitor.monBinWidth, 1)])).hw.blkState (pgMonitor 0 0) = 1 ∧
    (after (.monStart .rm 0 0) (put lit [(pgMonitor 0 0 + Reg.monitor.monSrc, 0)])).hw.reg (pgMonitor 0 0 + 0x020) = resultWord .rm 1 .badArg ∧
    (after (.clearSnap .rm 0 0) (put lit [(pgMonitor 0 0 + Reg.monitor.monSnapCount, 4)])).hw.regN (pgMonitor 0 0 + Reg.monitor.monSnapCount) = 0 ∧
    CmdOpen (put lit [(pgMonitor 0 0 + 0x00C, 1)]) .rm (pgMonitor 0 0) [1, 2] ∧
    CmdOpen (put lit [(pgMonitor 0 0 + 0x00C, 2)]) .rm (pgMonitor 0 0) [2] ∧
    (after (.monStop .rm 0 0) (put lit [(pgMonitor 0 0 + 0x00C, 2), (pgMonitor 0 0 + Reg.monitor.monLiveCount, 3)])).hw.regN (pgMonitor 0 0 + Reg.monitor.monSnapCount) = 3 ∧
    (after (.monSnapshot .rm 0 0) (put lit [(pgMonitor 0 0 + 0x00C, 2), (pgMonitor 0 0 + Reg.monitor.monCtrl, 4)])).hw.fld (pgMonitor 0 0 + Reg.monitor.monSnapSeq) 0 16 = 1 ∧
    (after (.monSnapshot .rm 0 0) (put lit [(pgMonitor 0 0 + 0x00C, 2), (pgMonitor 0 0 + Reg.monitor.monCtrl, 2)])).hw.reg (pgMonitor 0 0 + 0x020) = resultWord .rm 3 .illegal ∧
    (after (.monWindowEnd 0 0) ((put lit [(pgMonitor 0 0 + 0x00C, 2), (pgMonitor 0 0 + Reg.monitor.monCtrl, 1)]).onHw fun h => h.setMon (pgMonitor 0 0) { h.monAt (pgMonitor 0 0) with due := true })).hw.bit (pgMonitor 0 0 + 0x010) 9 = true ∧
    monSrcOk 0 0x202 = true ∧ (after (.monQueueSample 0 0) (put lit [(pgMonitor 0 0 + 0x00C, 2), (pgMonitor 0 0 + Reg.monitor.monSrc, 0x202)])).hw.regN (pgMonitor 0 0 + Reg.monitor.monLiveCount) = 1 := by
  unfold CmdOpen; refine ⟨?_, ?_, ?_, ?_, ?_, ?_, ?_, ?_, ?_, ?_, ?_, ?_⟩ <;> decide +kernel

set_option maxRecDepth 100000 in
/-- FlitsAreAcceptedInOrderAndForwarded: another kind, a bad CRC, a flit out of order, one passed on. -/
theorem test_flits_on_their_way :
    (flit 1 (epNum 0 0 1) [1]).kind ≠ 2 ∧ mesh.hw.blkState r0.page ≠ 3 ∧
    (flit 1 (epNum 0 0 1) [1]).crcOk = false ∧ (mesh.hw.link r0 1 .a).crcErr = 0 ∧
    ((after (.flitWrite r0 1 (flit 1 (epNum 0 0 1) [1])) mesh).hw.link r0 1 .a).crcErr = 1 ∧
    wWrite.crcOk = true ∧ wWrite.f 3 6 = (mesh.hw.link r0 1 .a).rxSeq + 1 - 64 ∧ wWrite.f 3 6 ≠ ((mesh.onHw fun h => h.setLink r0 1 .a { LinkState.empty with rxSeq := 5 }).hw.link r0 1 .a).rxSeq + 1 ∧
    HopOk mesh r0 4 (flit 1 (epNum 0 1 1) [1]) 1 ∧
    mesh.hw.route r0 (flit 1 (epNum 0 1 1) [1]) false = some 1 ∧ (neighbour r0 1).isSome = true ∧
    PortReady mesh.hw r0 1 .a (flit 1 (epNum 0 1 1) [1]) ∧
    (after (.flitWrite r0 4 (flit 1 (epNum 0 1 1) [1])) mesh).hw.out.length = 1 := by
  unfold HopOk PortReady; refine ⟨?_, ?_, ?_, ?_, ?_, ?_, ?_, ?_⟩ <;> decide +kernel

/-- FlitsTakeEffectAtTheirDestination. -/
theorem test_flits_at_their_destination :
    Delivered mesh r0 4 (flit 1 (epNum 0 0 1) [7, 8]) 1 ∧
    flitAddr (epNum 0 0 1) 0 = some (t0Addr 0 0 1 0) ∧
    memNat (after (.flitWrite r0 4 (flit 1 (epNum 0 0 1) [7, 8])) mesh).mem (t0Addr 0 0 1 0) 2 = 0x807 ∧
    Delivered mesh r0 4 (flit 2 (epNum 0 0 1) (leBytes 8 0 ++ leBytes 4 2 ++ leBytes 4 0)) 2 ∧
    (physAddr (t0Addr 0 0 1 0)).isSome = true ∧ flitAddr (epNum 0 0 1) (2 ^ 40) = none ∧
    (after (.flitReadReq r0 4 (flit 2 (epNum 0 0 1) (leBytes 8 0 ++ leBytes 4 2 ++ leBytes 4 0)) .ok) mesh).hw.out.length = 1 ∧
    (after (.flitReadReq r0 4 (flit 2 (epNum 0 0 1) (leBytes 8 (2 ^ 40) ++ leBytes 4 2 ++ leBytes 4 0)) .ok) mesh).hw.out.length = 1 ∧
    Delivered mesh r0 4 (flit 3 (epNum 0 0 1) [1]) 3 ∧
    (mesh.hw.awaiting (epNum 0 0 1) 5 0 true).isNone = true ∧ (mesh.hw.ctxOf (epNum 0 0 1) 5).isNone = true ∧ (mesh.hw.awaiting (epNum 0 0 1) 0 0 false).isNone = true ∧ (mesh.hw.ctxOf (epNum 0 0 1) 0).isNone = true ∧
    (after (.flitReadData r0 4 (flit 3 (epNum 0 0 1) [1])) mesh).hw.out = [.deliver 0 8 (flit 3 (epNum 0 0 1) [1])] ∧
    Delivered mesh r0 4 (flit 4 (epNum 0 0 1) [1]) 4 ∧
    Delivered mesh r0 4 (flit 0xB (epNum 0 0 0) [4, 0, 2, 0]) 0xB ∧
    Tab.get ((after (.flitToken r0 4 (flit 0xB (epNum 0 0 0) [4, 0, 2, 0])) mesh).hw.sqAt l0).tok 4 0 = 2 ∧
    Delivered mesh r0 4 (flit 0xC (epNum 0 0 0) [1, 8]) 0xC ∧
    (after (.flitFence r0 4 (flit 0xC (epNum 0 0 0) [1, 8])) mesh).hw.bit (r0.page + Reg.router.rtrFenceMask) 8 = true ∧
    Delivered mesh r0 4 (flit 0xD (epNum 0 0 0) [0]) 0xD ∧
    (∀ n : Paddock, mesh.hw.planRunning n = false) ∧
    Tab.find ((after (.flitMgmt r0 4 (flit 0xD (epNum 0 0 0) [0]) (.override 287 (some 6))) mesh).hw.rtrAt r0).override 287 = some 6 := by
  unfold Delivered HopOk; refine ⟨?_, ?_, ?_, ?_, ?_, ?_, ?_, ?_, ?_, ?_, ?_, ?_, ?_, ?_, ?_, ?_, ?_, ?_⟩ <;> decide +kernel

set_option maxRecDepth 100000 in
/-- StreamFlitsChainReduceAndTick. -/
theorem test_streams :
    HopOk mesh r0 1 wChain7 5 ∧
    (mesh.hw.rtrAt r0).flitSlot wChain7 = some 3 ∧ chainLocals ((mesh.hw.rtrAt r0).slot 3).2.2 = [1] ∧ mesh.hw.unitFenced r0 1 = false ∧
    (Tab.find ((after (.flitChain r0 1 wChain7) mesh).hw.rtrAt r0).tiles 3).isSome = true ∧
    (mesh.hw.rtrAt r0).flitSlot wChain8 = some 4 ∧ chainLocals ((mesh.hw.rtrAt r0).slot 4).2.2 = [] ∧
    (after (.flitChain r0 1 wChain8) mesh).hw.fld (r0.page + Reg.router.rtrChainTail) 0 32 = 1 ∧
    HopOk mesh r0 1 wRed 6 ∧
    (mesh.hw.rtrAt r0).flitSlot wRed = some 2 ∧ (mesh.hw.rtrAt r0).flitSlot wCred = some 5 ∧
    (Tab.get ((after (.flitRedUp r0 1 wRed) mesh).hw.rtrAt r0).units 2 []).length = 1 ∧
    HopOk mesh r0 1 wCred 9 ∧
    4 ∈ slotPorts ((mesh.hw.rtrAt r0).slot 5).1 ∧ Tab.get (mesh.hw.rtrAt r0).units 5 [] = [] ∧
    slotPorts ((mesh.hw.rtrAt r0).slot 2).1 = [1, 4] ∧ after (.redCombine r0 2) mesh = mesh ∧
    (after (.redCombine r0 2) (mesh.onHw fun h => h.setRtr r0 { h.rtrAt r0 with units := [(2, [⟨1, 0, 0, 6, [3]⟩, ⟨4, 1, 0, 6, [3]⟩])] })).hw.bit (r0.page + 0x010) 11 = true ∧
    Tab.get ((after (.redCombine r0 2) (mesh.onHw fun h => h.setRtr r0 { h.rtrAt r0 with units := [(2, [⟨1, 0, 0, 6, [3]⟩, ⟨4, 0, 0, 6, [3]⟩])] })).hw.rtrAt r0).units 2 [] = [] ∧
    HopOk mesh r0 4 (raw 7 1 0 9 [5]) 7 ∧
    HopOk mesh r0 4 (raw 8 1 0 0 (leBytes 6 1 ++ leBytes 3 25000 ++ leBytes 8 77)) 8 ∧
    ((after (.flitTick r0 4 (raw 8 1 0 0 (leBytes 6 1 ++ leBytes 3 25000 ++ leBytes 8 77))) mesh).hw.rtrAt r0).tickAt = 77 := by
  unfold HopOk; refine ⟨?_, ?_, ?_, ?_, ?_, ?_, ?_, ?_, ?_, ?_, ?_, ?_, ?_, ?_, ?_, ?_⟩ <;> decide +kernel

/-- LinksDrainTestAndReturn. -/
theorem test_links :
    (link 2 LinkState.empty).hw.deadFor .rm r0.page = false ∧ (neighbour r0 1) = some (east, 3) ∧ (link 2 LinkState.empty).hw.linkState r0 1 .a = 2 ∧ (link 2 LinkState.empty).hw.linkState r0 1 .b = 2 ∧
    (after (.drainLink .rm r0) (link 2 LinkState.empty)).hw.reg (r0.page + 0x020) = resultWord .rm 0x10 .ok ∧
    (after (.laneTest .rm r0) (link 4 LinkState.empty)).hw.linkState r0 1 .a = 5 ∧ (after (.laneTest .rm r0) (link 2 LinkState.empty)).hw.reg (r0.page + 0x020) = resultWord .rm 0x11 .illegal ∧
    ((after (.applyLaneMap .rm r0) (link 4 { LinkState.empty with failing := [(3, 5)], test := 1 })).hw.link r0 1 .a).soft = [(3, 5)] ∧
    (after (.releaseLink .rm r0) (link 4 LinkState.empty)).hw.linkState east 3 .a = 2 ∧
    (after (.excludeLink .rm r0) (link 2 LinkState.empty)).hw.linkState r0 1 .a = 6 ∧
    (after (.rtrClearCounters .rm r0) (link 2 { LinkState.empty with crcErr := 3 })).hw.reg (r0.page + 0x020) = resultWord .rm 1 .ok ∧
    (after (.drainDone r0 1 .a) (link 2 { LinkState.empty with test := 2 ^ 31 })).hw.linkState r0 1 .a = 4 ∧
    (after (.laneTestDone r0 1 .a []) (link 5 LinkState.empty)).hw.bit (r0.page + 0x010) 14 = true ∧
    (link 2 { LinkState.empty with repCount := 64 }).hw.degradeDue r0 1 .a = (after (.linkDegrade r0 1 .a) (link 2 { LinkState.empty with repCount := 64 })).hw.bit (r0.page + 0x010) 9 ∧
    (after (.linkDownDetect r0 1) (link 2 LinkState.empty)).hw.linkState r0 1 .b = 0 ∧
    Tab.get ((after (.creditRefresh r0 1 .a 2) (link 2 { LinkState.empty with freed := [(2, 9)] })).hw.link east 3 .a).cred 2 0 = 9 ∧
    (after (.escapeMove r0 1 (flit 1 (epNum 0 1 1) [1])) (link 2 { LinkState.empty with outq := [⟨flit 1 (epNum 0 1 1) [1], none⟩] })).hw.fld (r0.page + Reg.router.rtrEscCount) 0 32 = 1 ∧
    (after (.respFlush ⟨1, 2, 3, 4⟩) (lit.onHw fun h => { h with resp := [⟨1, 2, 3, 4, 9⟩] })).hw.resp = [] ∧
    (after (.routerTickMissed r0) lit).hw.fld (pgFarrier + Reg.farrier.frTickMissed) 0 32 = 1 ∧
    z.hw.blkState pgTimebase ≠ 3 ∧ z.hw.blkState pgTimebase ≠ 2 ∧ (put z [(pgTimebase + 0x00C, 3)]).hw.tickRoot = some 19 ∧
    (after .tickFlitOriginate (put z [(pgTimebase + 0x00C, 3)])).hw.out.length = 1 := by
  refine ⟨?_, ?_, ?_, ?_, ?_, ?_, ?_, ?_, ?_, ?_, ?_, ?_, ?_, ?_, ?_, ?_, ?_⟩ <;> decide +kernel

/-- Object 5's descriptor: 4,096 bytes of FP32 weights in T2 and, from .t1 on, in T1, from .t0 on, in T0. -/
def ob (st : Resid) : Obj :=
  { state := st, pins := 0, size := 4096, nfw := 0, cls := 2, policy := 0, owner := 0, share := 0, comp := false, hasDraft := false, t2Node := 1, altNode := 0xFFFF,
    inT0 := st.code ≥ 4, inT1 := st.code ≥ 2, inT2 := true, hasAlt := false, t0Da := if st.code ≥ 3 then t0Addr 0 0 1 0 else 0, t1Da := if st.code ≥ 1 then 0x10000 else 0, draftDa := 0, altDa := 0, t0Units := if st.code ≥ 3 then 16 else 0,
    t1Pages := if st.code ≥ 1 then 1 else 0, t2Pages := 1, draftPages := 0, maxErr := 0, late := 0, fail := 0, lastChange := 0, budget := 0, holds := 0, deferred := none, transit := none }
/-- An argument record staged at field 0's placement page (fields as byte offset and value), with objects. -/
def pl (a : List (Nat × Nat)) (os : Tab Obj) : State :=
  let v := a.foldl (fun v x => v + x.2 <<< (8 * x.1)) 0
  (put lit [rings]).onHw fun h => { (List.range 16).foldl (fun h i => h.setArg .rm (pgPlace 0 + Reg.placement.pcArg0 + 4 * i) (BitVec.ofNat 32 (bitsOf v (32 * i) 32))) h with objs := os }
/-- Handle 5 for tier t. -/
def h5 (t : Nat) : List (Nat × Nat) := [(0, 5), (6, t)]
/-- PLACE of handle 5 in T2 at node 1. -/
def place5 : List (Nat × Nat) := [(0, 5), (6, 2), (0x1D, 2), (0x20, 4096), (0x2C, 1)]
/-- A state where a command of placement completed with a status. -/
def plSt (s : State) : Nat := s.hw.fld (pgPlace (s.hw.homeOf 5) + Reg.placement.pcLast) 8 8

/-- PlacementCommandsChangeDescriptors. -/
theorem test_placement_commands :
    CmdOpen (pl [(0x1C, 4)] []) .rm (pgPlace 0) [0, 1] ∧ (pl [(0x1C, 4)] []).hw.plPaddock .rm ((pl [(0x1C, 4)] []).hw.plRecord .rm 0) = none ∧
    (after (.pin .rm 0) (pl [(0x1C, 4)] [])).hw.reg (pgPlace 0 + 0x020) = resultWord .rm 5 .badArg ∧
    PlaceReady (pl place5 [(5, ob .t2)]) .rm 0 1 0 ∧ placeBad (placeCmd (pl place5 []) .rm 0 1 0) = false ∧
    plSt (after (.place .rm 0) (pl place5 [(5, ob .t2)])) = 3 ∧
    PlaceReady (pl place5 []) .rm 0 1 0 ∧ (pl place5 []).hw.obj 5 = none ∧ (pl place5 []).hw.quotaOk 0 2 4096 = true ∧
    ((after (.place .rm 0) (pl place5 [])).hw.obj 5).map (·.state) = some .t2 ∧
    PlaceReady (pl (h5 0) []) .rm 0 5 0 ∧ plSt (after (.pin .rm 0) (pl (h5 0) [])) = 2 ∧
    PlaceReady (pl (h5 0) [(5, ob .t1)]) .rm 0 5 0 ∧
    PlaceReady (pl (h5 0) [(5, ob .t1)]) .rm 0 6 0 ∧
    PlaceReady (pl (h5 0) [(5, ob .t1)]) .rm 0 7 0 ∧
    PlaceReady (pl (h5 0) [(5, ob .t1)]) .rm 0 8 0 ∧
    PlaceReady (pl (h5 0) [(5, ob .t1)]) .rm 0 12 0 ∧
    PlaceReady (pl (h5 0) [(5, ob .t1)]) .rm 0 13 0 ∧
    ((after (.pin .rm 0) (pl (h5 0) [(5, { ob .t1 with pins := 254 })])).hw.obj 5).map (·.pins) = some 255 ∧ plSt (after (.pin .rm 0) (pl (h5 0) [(5, { ob .t1 with pins := 255 })])) = 5 ∧
    ((after (.unpin .rm 0) (pl (h5 0) [(5, { ob .t1 with pins := 1 })])).hw.obj 5).map (·.pins) = some 0 ∧ plSt (after (.unpin .rm 0) (pl (h5 0) [(5, ob .t1)])) = 7 ∧
    plSt (after (.query .rm 0) (pl (h5 0) [(5, ob .t1)])) = 0 ∧
    PlaceReady (pl [(0, 5), (0x1E, 7)] [(5, ob .t1)]) .rm 0 9 0 ∧ ((after (.setPolicy .rm 0) (pl [(0, 5), (0x1E, 7)] [(5, ob .t1)])).hw.obj 5).map (·.policy) = some 7 ∧
    PlaceReady (pl [(0, 5), (0x1E, 8)] [(5, ob .t1)]) .rm 0 9 0 ∧ plSt (after (.setPolicy .rm 0) (pl [(0, 5), (0x1E, 8)] [(5, ob .t1)])) = 6 ∧
    PlaceReady (pl [(0, 5), (0x2E, 9)] [(5, ob .t1)]) .rm 0 10 0 ∧ ((after (.setAlt .rm 0) (pl [(0, 5), (0x2E, 9)] [(5, ob .t1)])).hw.obj 5).map (·.altNode) = some 9 ∧
    PlaceReady (pl [(0, 5), (7, 16), (0x2E, 9), (0x38, 0x4000)] [(5, ob .t1)]) .rm 0 10 0 ∧ (pl [(0, 5), (7, 16), (0x2E, 9), (0x38, 0x4000)] []).hw.rangeInPaddock 0 0x4000 4096 = true ∧
    ((after (.setAlt .rm 0) (pl [(0, 5), (7, 16), (0x2E, 9), (0x38, 0x4000)] [(5, ob .t1)])).hw.obj 5).map (·.altDa) = some 0x4000 ∧
    ((after (.dropDraft .rm 0) (pl (h5 0) [(5, { ob .t1 with hasDraft := true, draftDa := 0x20000, t1Pages := 2, draftPages := 1 })])).hw.obj 5).map (·.t1Pages) = some 1 ∧
    (after (.bindWindow .rm 0) (pl (h5 3) [(5, ob .t1)])).hw.regN (pgPlaceGlobal + Reg.placeGlobal.paddock0Win0Lo + 24) = 5 ∧
    (after (.free .rm 0) (pl (h5 0) [(5, ob .t0)])).hw.obj 5 = none ∧ (⟨t0Addr 0 0 1 0, 4096⟩ : Span) ∈ (after (.free .rm 0) (pl (h5 0) [(5, ob .t0)])).hw.fills ∧
    plSt (after (.free .rm 0) (pl (h5 0) [(5, { ob .t1 with pins := 1 })])) = 7 := by
  unfold PlaceReady CmdOpen; refine ⟨?_, ?_, ?_, ?_, ?_, ?_, ?_, ?_, ?_, ?_, ?_, ?_, ?_, ?_, ?_, ?_, ?_, ?_, ?_, ?_, ?_, ?_, ?_, ?_, ?_⟩ <;> ((try dsimp only); decide +kernel)

/-- PlacementTransitionsRunToTheirEnd. No witness states where T1 is allocated to a new copy: which span is a free value. -/
theorem test_placement_transitions :
    PlaceReady (pl (h5 0 ++ [(0x30, t0Addr 0 0 1 0)]) [(5, ob .t1)]) .rm 0 2 0 ∧ (pl (h5 0) []).hw.allocAt 0 ⟨t0Addr 0 0 1 0, 4096⟩ = .at (t0Addr 0 0 1 0) ∧ (pl (h5 0) []).hw.quotaOk 0 0 4096 = true ∧
    ((after (.promote .rm 0) (pl (h5 0 ++ [(0x30, t0Addr 0 0 1 0)]) [(5, ob .t1)])).hw.obj 5).map (fun o => (o.state, o.t0Units, o.inT0)) = some (.promT0, 16, false) ∧
    PlaceReady (pl (h5 1) [(5, ob .t2)]) .rm 0 2 0 ∧ (pl (h5 1) []).hw.quotaOk 0 1 4096 = true ∧
    PlaceReady (pl (h5 0) [(5, ob .t0)]) .rm 0 3 0 ∧ ((after (.demote .rm 0) (pl (h5 0) [(5, ob .t0)])).hw.obj 5).map (·.state) = some .demoting ∧
    PlaceReady (pl (h5 0) [(5, { ob .t0 with pins := 1 })]) .rm 0 3 0 ∧ plSt (after (.demote .rm 0) (pl (h5 0) [(5, { ob .t0 with pins := 1 })])) = 1 ∧
    PlaceReady (pl (h5 0) [(5, ob .t1)]) .rm 0 4 0 ∧ ((after (.evict .rm 0) (pl (h5 0) [(5, ob .t1)])).hw.obj 5).map (·.state) = some .evicting ∧
    PlaceReady (pl (h5 0) [(5, { ob .t1 with pins := 1 })]) .rm 0 4 0 ∧ ((after (.evict .rm 0) (pl (h5 0) [(5, { ob .t1 with pins := 1 })])).hw.obj 5).map (·.deferred.map (·.evict)) = some (some true) ∧
    PlaceReady (pl (h5 0) [(5, { ob .t1 with cls := 0 })]) .rm 0 11 0 ∧ plSt (after (.makeDraft .rm 0) (pl (h5 0) [(5, { ob .t1 with cls := 0 })])) = 6 ∧
    PlaceReady (pl (h5 0) [(5, { ob .t1 with size := 64, hasDraft := true, draftDa := 0x20000 })]) .rm 0 11 0 ∧ objBytes [] { ob .t1 with size := 64 } = some (List.replicate 64 0) ∧
    ((after (.makeDraft .rm 0) (pl (h5 0) [(5, { ob .t1 with size := 64, hasDraft := true, draftDa := 0x20000 })])).hw.obj 5).map (·.draftPages) = some 1 ∧
    (pl [] []).hw.homeOf 5 = 45 ∧ (5 : Handle).toNat = 5 ∧
    ((after (.transitionDone 45 5 (.ok [7])) (pl [] [(5, { ob .promT1 with transit := some ⟨1, false, .t2, []⟩ })])).hw.obj 5).map (fun o => (o.state, o.inT1)) = some (.t1, true) ∧
    ((after (.transitionDone 45 5 (.ok [])) (pl [] [(5, { ob .promT0 with size := 8, transit := some ⟨0, false, .t1, []⟩ })])).hw.obj 5).map (fun o => (o.state, o.inT0)) = some (.t0, true) ∧
    ((after (.transitionDone 45 5 .unreachable) (pl [] [(5, { ob .promT0 with transit := some ⟨0, false, .t1, []⟩ })])).hw.obj 5).map (fun o => (o.state, o.t0Units)) = some (.t1, 0) ∧
    after (.transitionDone 44 5 .readFail) (pl [] [(5, { ob .promT0 with transit := some ⟨0, false, .t1, []⟩ })]) = pl [] [(5, { ob .promT0 with transit := some ⟨0, false, .t1, []⟩ })] ∧
    { ob .t0 with deferred := some ⟨false, false, []⟩ }.deferReady = true ∧ { ob .t0 with deferred := some ⟨false, false, []⟩, pins := 1 }.deferReady = false ∧
    ((after (.deferredCommandStart 45 5) (pl [] [(5, { ob .t0 with deferred := some ⟨false, false, []⟩ })])).hw.obj 5).map (·.state) = some .demoting ∧
    (after (.queuedCommandStart 45 0) ((pl [] [(5, ob .t1)]).onHw fun h => { h with plq := [(45, [⟨8, 5, 0, 0⟩])] })).hw.plQueue 45 = [] ∧
    after (.queuedCommandStart 45 0) (pl [] []) = pl [] [] ∧
    (after (.zeroFillDone 0) ((pl [] []).onHw fun h => { h with fills := [⟨t0Addr 0 0 1 0, 2⟩] })).hw.fills = [] ∧ memRead (after (.zeroFillDone 0) { (pl [] []).onHw fun h => { h with fills := [⟨t0Addr 0 0 1 0, 2⟩] } with mem := memPut [] (t0Addr 0 0 1 0) [1, 2, 3] }).mem ((t0Addr 0 0 1 0) % 2 ^ 56) = 0 := by
  unfold PlaceReady CmdOpen; refine ⟨?_, ?_, ?_, ?_, ?_, ?_, ?_, ?_, ?_, ?_, ?_, ?_, ?_, ?_, ?_, ?_, ?_, ?_, ?_, ?_⟩ <;> ((try dsimp only); decide +kernel)

/-- Channel 0 of cluster 0. -/
def mc : MvLoc := .cluster l0 0
/-- A descriptor from its fields, (byte offset, value) each. -/
def desc (fs : List (Nat × Nat)) : Nat := fs.foldl (fun v x => v + x.2 <<< (8 * x.1)) 0
/-- COPY of 64 bytes from one M-core memory to another, with more fields. -/
def copy (fs : List (Nat × Nat)) : Nat := desc ([(0, t0Addr 0 0 1 0), (8, t0Addr 0 1 1 0), (0x10, 64), (0x14, 1), (0x58, 0xFFFF)] ++ fs)
/-- A paddock with a channel's state and a staged descriptor. -/
def mv (m : MvLoc) (x : MvState) (d : Nat) : State :=
  (sq ScoreState.empty).onHw fun h => { (List.range 24).foldl (fun h i => h.setArg .rm (m.page + Reg.mover.mvrShadow0 + 4 * i) (BitVec.ofNat 32 (bitsOf d (32 * i) 32))) h with mv := [(m.page, x)] }
def mE : MvState := MvState.empty
/-- A transfer in ACTIVE. -/
def xf (d : Nat) : Xfer := newXfer d 0 0 false 0 0
def rec0 : MvRecord := ⟨0, 0, 7, 64⟩
def busy (x : Xfer) : State := mv mc { mE with active := some x } 0
/-- PAUSE is set. -/
def paus (s : State) : State := s.onHw fun h => h.setBit (mc.page + Reg.mover.mvrCtrl) 0 true

/-- MoverCommandsLoadStopCollectAndPause. -/
theorem test_mover_commands :
    MvOpen (mv mc mE (copy [])) .rm mc [0, 1, 2] ∧ (mv mc mE (copy [])).hw.mvMayLoad .rm mc = true ∧
    (mv mc mE (copy [])).hw.mvStaged .rm mc = copy [] ∧ descBad mc (copy []) = false ∧ descBad mc (copy [(0x37, 8)]) = true ∧
    ((after (.mvrLoad .rm mc) (mv mc mE (copy []))).hw.mvAt mc).shadow = some (copy [], false) ∧
    (after (.mvrLoad .rm mc) (mv mc mE (copy [(0x37, 8)]))).hw.reg (mc.page + 0x020) = resultWord .rm 1 .badArg ∧
    (after (.mvrLoad .rm mc) (mv mc { mE with records := [rec0, rec0, rec0, rec0] } (copy []))).hw.reg (mc.page + 0x020) = resultWord .rm 1 .busy ∧
    (after (.dropShadow .rm mc) (mv mc mE 0)).hw.reg (mc.page + 0x020) = resultWord .rm 3 .ok ∧
    ((after (.dropShadow .rm mc) (mv mc { mE with shadow := some (copy [], false) } 0)).hw.mvAt mc).records = [⟨13, 0, 0, 0⟩] ∧
    (after (.collect .rm mc) (mv mc { mE with records := [rec0] } 0)).hw.regN (mc.page + Reg.mover.mvrLast) = 7 <<< 16 ∧
    (after (.collect .rm mc) (busy (xf (copy [])))).hw.reg (mc.page + 0x020) = resultWord .rm 4 .busy ∧
    (after (.collect .rm mc) (mv mc mE 0)).hw.fld (mc.page + Reg.mover.mvrLast) 0 8 = 0x7F ∧
    (after (.mvrClearCounters .rm mc) (put (mv mc mE 0) [(mc.page + Reg.mover.mvrDone, 5)])).hw.regN (mc.page + Reg.mover.mvrDone) = 0 ∧
    (MvOpen (busy (xf (copy []))) .rm mc [1, 2] ∨ (busy (xf (copy []))).hw.blkState mc.page = 0) ∧
    MvOpen (put (busy (xf (copy []))) [(mc.page + 0x00C, 1)]) .rm mc [1, 2] ∧ ((after (.mvrStop .rm mc) (put (busy (xf (copy []))) [(mc.page + 0x00C, 1)])).hw.mvAt mc).active = some { xf (copy []) with ending := some 13 } ∧
    (mv mc mE 0).hw.mvCtrlMay .rm mc = true ∧ ((after (.pauseSet .rm mc) (mv mc mE 0)).hw.mvAt mc).paused = true ∧ ((after (.pauseSet .rm mc) (busy (xf (copy [])))).hw.mvAt mc).paused = false ∧
    ((after (.pauseClear .rm mc) (mv mc { mE with paused := true } 0)).hw.mvAt mc).paused = false ∧ (after (.pauseClear .rm mc) (paus (mv mc mE 0))).hw.bit (mc.page + Reg.mover.mvrCtrl) 0 = false ∧
    z.hw.deadFor .rm mc.page = true ∧
    (paus (busy (xf (copy [])))).hw.bit (mc.page + Reg.mover.mvrCtrl) 0 = true ∧ (xf (copy [])).quiet = true ∧ (xf (copy [])).pend = [] ∧
    ((after (.pauseDone mc) (paus (busy (xf (copy []))))).hw.mvAt mc).paused = true ∧ after (.pauseDone mc) (busy (xf (copy []))) = busy (xf (copy [])) := by
  unfold MvOpen; refine ⟨?_, ?_, ?_, ?_, ?_, ?_, ?_, ?_, ?_, ?_, ?_, ?_, ?_, ?_, ?_, ?_, ?_, ?_⟩ <;> decide +kernel

/-- MoverHandsOverListsAndServesItsScore. -/
theorem test_mover_handover :
    after (.handover mc) (mv mc mE 0) = mv mc mE 0 ∧
    (mv mc mE 0).hw.mvPaddock mc = some 0 ∧ (mv mc mE 0).hw.fencedPage mc.page = false ∧ Tab.get (mv mc mE 0).hw.prov mc.page [] = [] ∧ ((mv mc mE 0).hw.sqAt l0).wait = none ∧
    ((after (.handover mc) (mv mc { mE with shadow := some (copy [(0x14, 0xFFFFFFFF)], false) } 0)).hw.mvAt mc).records = [⟨1, 0, 0, 0⟩] ∧ dRows (copy [(0x14, 0xFFFFFFFF)]) = 0 ∧
    (mv mc { mE with shadow := some (copy [(0x30, 5)], false) } 0).activation 0 (copy [(0x30, 5)]) false = some 2 ∧ ((after (.handover mc) (mv mc { mE with shadow := some (copy [(0x30, 5)], false) } 0)).hw.mvAt mc).records = [⟨2, 0, 0, 0⟩] ∧
    (mv mc { mE with shadow := some (copy [], false) } 0).activation 0 (copy []) false = none ∧ (mv mc mE 0).hw.windowSource 0 (copy []) = none ∧
    ((after (.handover mc) (mv mc { mE with shadow := some (copy [], false) } 0)).hw.mvAt mc).active.map (·.desc) = some (copy []) ∧
    (mv mc { mE with list := [copy [] <<< 128], listGo := true } 0).hw.stride ≥ ((mv mc { mE with list := [copy [] <<< 128], listGo := true } 0).hw.pad 0).stepBase ∧ descBad mc (listDesc (mv mc mE 0).hw 0 (copy [] <<< 128)) = false ∧
    ((after (.listElementLoad mc) (mv mc { mE with list := [copy [] <<< 128], listGo := true } 0)).hw.mvAt mc).shadow = some (copy [], false) ∧
    descBad mc (listDesc (mv mc mE 0).hw 0 (copy [(0x37, 8)] <<< 128)) = true ∧ ((after (.listElementLoad mc) (mv mc { mE with list := [copy [(0x37, 8)] <<< 128], listGo := true } 0)).hw.mvAt mc).records = [⟨16, 0, 0, 0⟩] ∧
    after (.listElementLoad mc) (mv mc { mE with list := [copy [] <<< 128] } 0) = mv mc { mE with list := [copy [] <<< 128] } 0 ∧
    descBad mc 0 = true ∧ xReg (after (.smvKick l0 3 0 0) (mv mc mE 0)) l0 3 = CmdRes.badArg.code ∧
    ((after (.smvKick l0 3 32 0) { mv mc mE 0 with mem := memPut [] (t0Addr 0 0 8 32) (leBytes 96 (copy [])) }).hw.mvAt mc).shadow = some (copy [], false) ∧
    xReg (after (.smvKick l0 3 0 0) (mv mc { mE with shadow := some (copy [], false) } 0)) l0 3 = CmdRes.busy.code ∧
    (put (mv mc mE 0) [(mc.page + 0x008, 3)]).hw.fencedPage mc.page = true ∧ xReg (after (.smvKick l0 3 0 0) (put (mv mc mE 0) [(mc.page + 0x008, 3)])) l0 3 = CmdRes.fenced.code ∧
    xReg (after (.smvWait l0 3 0) (mv mc { mE with records := [{ rec0 with status := 13 }] } 0)) l0 3 = 13 ∧ xReg (after (.smvWait l0 3 0) (mv mc mE 0)) l0 3 = 0x7F ∧
    ((after (.smvWait l0 3 0) (busy (xf (copy [])))).hw.sqAt l0).wait = some (.mover 3 0) := by
  refine ⟨?_, ?_, ?_, ?_, ?_, ?_, ?_, ?_, ?_, ?_, ?_, ?_, ?_, ?_, ?_, ?_⟩ <;> decide +kernel

/-- MvSilent holds of a channel whose S-core does not wait. -/
theorem test_mover_silent : MvSilent (mv mc { mE with shadow := some (copy [], false) } 0) mc (copy []) :=
  ⟨by decide +kernel, fun l c e => by obtain ⟨rfl, _⟩ := MvLoc.cluster.inj (show MvLoc.cluster l0 0 = .cluster l c from e); decide +kernel⟩

/-- Channel 0 of host port 0. -/
def mh : MvLoc := .host 0 0
/-- A transfer whose bytes have all come and gone. -/
def ended (d : Nat) : Xfer := { xf d with plainIn := 64, pos := 64 }
/-- A copy from the host, with a read outstanding. -/
def fromHost : Xfer := { xf (copy [(0x3E, 8)]) with reads := [⟨3, 0, 64, 64, 0, [], false, false⟩], pos := 128 }
def hostBusy (x : Xfer) : State := mv mh { mE with active := some x } 0

/-- TransfersReadEndLateAndComplete. -/
theorem test_transfers :
    (busy (xf (copy []))).hw.mvIssueOk mc (xf (copy [])) = true ∧ (busy (xf (copy []))).hw.codedSource 0 (copy []) = none ∧ (busy (xf (copy []))).hw.windowSource 0 (copy []) = none ∧ dSrcHost (copy []) = false ∧ dShare (copy []) = 0 ∧
    (busy (xf (copy []))).hw.bit (mc.page + Reg.mover.mvrCtrl) 0 = false ∧ (xf (copy [])).pos < srcBytes (copy []) ∧ (physAddr (t0Addr 0 0 1 0)).isSome = true ∧
    ((after (.mvrReadIssue mc) (busy (xf (copy [])))).hw.mvAt mc).active.map (fun x => (x.pos, x.reads)) = some (64, [⟨0, t0Addr 0 0 1 0, 64, 0, 0, [], false, false⟩]) ∧
    (mv mc { mE with active := some (xf (copy [])), paused := true } 0).hw.mvIssueOk mc (xf (copy [])) = false ∧
    dDeadline (copy [(0x28, 4 <<< 20)]) ≠ 0 ∧ deadlineStride 5 (dDeadline (copy [(0x28, 4 <<< 20)])) < 5 ∧ (busy (xf (copy [(0x28, 4 <<< 20)]))).hw.stride = 5 ∧ (xf (copy [(0x28, 4 <<< 20)])).live = true ∧ bitOf ((busy (xf 0)).hw.policy (copy [(0x28, 4 <<< 20)])) 0 = false ∧
    (xf (copy [(0x28, 4 <<< 20)])).finished = false ∧
    ((after (.deadlineLate mc) (busy (xf (copy [(0x28, 4 <<< 20)])))).hw.mvAt mc).active.map (·.late) = some true ∧ after (.deadlineLate mc) (busy (xf (copy [(0x28, 6 <<< 20)]))) = busy (xf (copy [(0x28, 6 <<< 20)])) ∧
    (xf (copy [(0x37, 5)])).phase = 1 ∧ aifBlocks (copy [(0x37, 5)]) = 1 ∧ after (.aifDataPhaseStart mc) (busy (xf (copy [(0x37, 5)]))) = busy (xf (copy [(0x37, 5)])) ∧
    ((after (.aifDataPhaseStart mc) (busy { xf (copy [(0x37, 5)]) with own := [3], agreed := [(0, 2)] })).hw.mvAt mc).active.bind (·.status) = some 10 ∧
    ((after (.aifDataPhaseStart mc) (busy { xf (copy [(0x37, 5)]) with own := [3], agreed := [(0, 3)] })).hw.mvAt mc).active.map (·.phase) = some 2 ∧
    (xf (copy [])).finished = false ∧ after (.transferComplete mc) (busy (xf (copy []))) = busy (xf (copy [])) ∧
    (ended (copy [])).finished = true ∧ after (.transferComplete mc) (busy { ended (copy []) with sent := 1 }) = busy { ended (copy []) with sent := 1 } ∧
    (ended (copy [(0x3E, 16)])).finished = true ∧ dDstHost (copy [(0x3E, 16)]) = true ∧ ((after (.transferComplete mh) (hostBusy (ended (copy [(0x3E, 16)])))).hw.mvAt mh).active.map (·.flushed) = some true ∧
    ((after (.transferComplete mc) (busy { ended (copy []) with written := 64 })).hw.mvAt mc).records = [⟨0, 0, 0, 64⟩] ∧
    ((after (.transferComplete mc) (busy { xf (copy []) with status := some 8 })).hw.mvAt mc).records = [⟨8, 0, 0, 0⟩] ∧
    dSrcHost fromHost.desc = true ∧ fromHost.live = true ∧ fromHost.inPos = 0 ∧ dFormat fromHost.desc = 0 ∧ dSrcHost (copy []) = false ∧
    ((after (.hostCompletion 0 0 ⟨3, true, [7]⟩) (hostBusy fromHost)).hw.mvAt mh).active.map (fun x => (x.reads, x.ahead.map (·.1))) = some ([], [64]) ∧
    ((after (.hostCompletion 0 0 ⟨0, false, []⟩) (hostBusy { ended (copy [(0x3E, 16)]) with flushed := true, sent := 1 })).hw.mvAt mh).active.map (fun x => (x.acc, x.status)) = some (1, some 8) ∧
    (hostBusy fromHost).hw.obj (dHandle fromHost.desc) = none ∧ ((after (.completionTimeout 0 0) (hostBusy fromHost)).hw.mvAt mh).active.map (fun x => (x.reads, x.status)) = some ([], some 8) ∧
    (mv mc mE 0).hw.mvAt (.host 0 0) = mE ∧
    (sq ScoreState.empty).hw.paddockOfCluster l0 = some 0 ∧
    ((sq ScoreState.empty).hw.sqAt l0).head 7 = none ∧ after (.lateNotice l0 3 7) (sq ScoreState.empty) = sq ScoreState.empty ∧
    ((sq { ScoreState.empty with items := [{ item with flags := 2 }] }).hw.sqAt l0).head 7 = some { item with flags := 2 } ∧ (sq { ScoreState.empty with items := [{ item with flags := 2 }] }).hw.slackReady l0 7 = none ∧
    (after (.lateNotice l0 3 7) (sq { ScoreState.empty with items := [{ item with flags := 2 }] })).hw.fld (pdCounter 0 Reg.placeGlobal.paddock0Stall) 0 32 = 1 ∧
    (sq { ScoreState.empty with items := [{ item with flags := 2 }], slack := [{ item with tokCount := 0 }] }).hw.slackReady l0 7 = some 0 ∧
    ((after (.lateNotice l0 3 7) (sq { ScoreState.empty with items := [{ item with flags := 2 }], slack := [{ item with tokCount := 0 }] })).hw.sqAt l0).slackRun = [0] := by
  refine ⟨?_, ?_, ?_, ?_, ?_, ?_, ?_, ?_, ?_, ?_, ?_, ?_, ?_, ?_, ?_, ?_, ?_, ?_, ?_, ?_, ?_, ?_, ?_, ?_, ?_, ?_⟩ <;> decide +kernel

/-- A field's update complex set, paddock 0 mapped. -/
def uc (f : Field) (u : UcState) (os : Tab Obj) : State := (sq ScoreState.empty).onHw fun h => { h.setUc f u with objs := os }
/-- A gradient range of 64 bytes of which all have come. -/
def range0 : ArrRange := { da := 0x1000000000000, len := 64, kind := 0, fwd := 0xFFFF, token := 0, count := 64, arrived := false }
/-- A sweep entry for object 5 on engine 0. -/
def entry0 : Nat := 5
/-- A step's sweep is due in field 0. -/
def due0 : State := (uc 0 { UcState.empty with entries := [entry0] } [(5, { ob .t1 with cls := 3 })]).onHw fun h => h.setSc 0 { h.scAt 0 with sweepDue := [0] }
/-- A plan image of 96 bytes: one empty segment, no objects, no mover lists. -/
def image0 (ring : Nat) (crc : Nat) : List Byte :=
  leBytes 4 0x4C505747 ++ leBytes 4 0x10001 ++ leBytes 4 96 ++ leBytes 4 z.hw.period ++ leBytes 4 0 ++ leBytes 2 ring ++ leBytes 2 1 ++ leBytes 4 4 ++ leBytes 2 1 ++ leBytes 2 1 ++ leBytes 4 0x40 ++
    leBytes 4 0x50 ++ leBytes 4 0x58 ++ leBytes 12 0 ++ leBytes 4 crc ++ leBytes 4 0 ++ leBytes 32 0
/-- A plan slot is PENDING with an image. -/
def pend (n : Paddock) (b : List Byte) : State :=
  { (put (pl [] [(5, { ob .t1 with cls := 5, owner := n.val })]) [(psReg n Reg.hostGlobal.ps0Status, 1), (pgTimebase + Reg.timebase.strideCountLo, 5), (pgSecurity + Reg.security.secPolicy, 0)]).onHw fun h => { h with hp := { h.hp with image := [(n.val, (5, 0))] } } with mem := memPut [] 0x10000 b }

/-- ArrivalsSweepsGroupsAndPlansMoveOn. -/
theorem test_arrivals_and_sweeps :
    after (.rangeArrived 0 0) (uc 0 { UcState.empty with ranges := [{ range0 with count := 63 }] } []) = uc 0 { UcState.empty with ranges := [{ range0 with count := 63 }] } [] ∧
    ((after (.rangeArrived 0 0) (uc 0 { UcState.empty with ranges := [range0] } [])).hw.ucAt 0).ranges = [{ range0 with arrived := true }] ∧ (after (.rangeArrived 0 0) (uc 0 { UcState.empty with ranges := [range0] } [])).hw.bit (pgUpdate 0 + 0x010) 8 = true ∧
    ((after (.rangeArrived 0 0) (uc 0 { UcState.empty with ranges := [{ range0 with kind := 2, count := 65 }] } [])).hw.ucAt 0).ranges = [{ range0 with kind := 2, count := 1 }] ∧
    (uc 0 UcState.empty []).hw.paddockOfField 0 = some 0 ∧ (uc 0 UcState.empty []).hw.hostOf 0 0 = some l0 ∧ (uc 0 UcState.empty []).hw.fencedPage l0.page = false ∧
    Tab.get ((after (.rangeArrived 0 0) (uc 0 { UcState.empty with ranges := [{ range0 with token := 4 <<< 16 }] } [])).hw.sqAt l0).tok 4 0 = 1 ∧
    after (.sweepStart 0 0) (uc 0 { UcState.empty with entries := [entry0] } []) = uc 0 { UcState.empty with entries := [entry0] } [] ∧
    (0 : Nat) ∈ (due0.hw.scAt 0).sweepDue ∧ (due0.hw.ucAt 0).entries = [entry0] ∧ due0.hw.obj (eF entry0 0 6) = some { ob .t1 with cls := 3 } ∧
    ((after (.sweepStart 0 0) due0).hw.ueAt 0 0).running = some 0 ∧ (after (.sweepStart 0 0) due0).hw.blkState (pgUpdate 0) = 2 ∧
    after (.deferredEntryStart 0 0) (uc 0 { UcState.empty with entries := [entry0], engines := [(0, { UeState.empty with deferred := [0] })] } [(5, ob .promT1)]) = uc 0 { UcState.empty with entries := [entry0], engines := [(0, { UeState.empty with deferred := [0] })] } [(5, ob .promT1)] ∧
    ((after (.deferredEntryStart 0 0) (uc 0 { UcState.empty with entries := [entry0], engines := [(0, { UeState.empty with deferred := [0] })] } [(5, ob .t1)])).hw.ueAt 0 0).wasDeferred = true ∧
    (after (.updateWindowExpire 0) (put (uc 0 { UcState.empty with window := 3 } []) [(pgUpdate 0 + Reg.ucomplex.ucStatus, 1), (pgUpdate 0 + Reg.ucomplex.ucSweepStartLo, 2)])).hw.fld (pgUpdate 0 + Reg.ucomplex.ucNotReadyCount) 0 32 = 1 ∧
    after (.updateWindowExpire 0) (put (uc 0 { UcState.empty with window := 4 } []) [(pgUpdate 0 + Reg.ucomplex.ucStatus, 1), (pgUpdate 0 + Reg.ucomplex.ucSweepStartLo, 2)]) = put (uc 0 { UcState.empty with window := 4 } []) [(pgUpdate 0 + Reg.ucomplex.ucStatus, 1), (pgUpdate 0 + Reg.ucomplex.ucSweepStartLo, 2)] := by
  refine ⟨?_, ?_, ?_, ?_, ?_, ?_, ?_, ?_, ?_, ?_, ?_, ?_⟩ <;> decide +kernel

/-- ArrivalsSweepsGroupsAndPlansMoveOn: the commands of a Calliope. -/
theorem test_calliope_commands :
    CmdOpen z .rm (pgCalliope 0) [0, 1, 2] ∧ CmdOpen z .rm (pgCalliope 0) [0, 2] ∧ z.hw.blkState (pgCalliope 0) ≠ 3 ∧
    ((after (.stageLoad .rm 0) (z.onHw fun h => h.setCal 0 0 { CalGroup.empty with eff := [(0x128, 3)] })).hw.calGroup 0 0).stag = [(0x128, 3)] ∧
    ((after (.apply .rm 0) (z.onHw fun h => h.setCal 0 0 { CalGroup.empty with stag := [(0x128, 3)] })).hw.calGroup 0 0).apply = some [(0x128, 3)] ∧
    (after (.setCount .rm 0) (put z [(pgCalliope 0 + Reg.calliope.calArgLo, 7)])).hw.calCount 0 = 7 ∧ (after (.setCount .rm 0) z).hw.blkState (pgCalliope 0) = 3 ∧
    (after (.setCountDone 0) (after (.setCount .rm 0) z)).hw.blkState (pgCalliope 0) = 0 ∧ after (.setCountDone 0) z = z := by
  unfold CmdOpen; refine ⟨?_, ?_, ?_, ?_, ?_⟩ <;> decide +kernel

set_option maxRecDepth 100000 in
/-- ArrivalsSweepsGroupsAndPlansMoveOn: a plan that cannot be read, one that fails a check, one that runs; one just submitted waits. -/
theorem test_plan_take_up :
    (pend 1 []).hw.slotState 1 = 1 ∧ (pend 1 []).hw.stride ≠ ((pend 1 []).hw.pad 1).pendAt ∧ ((pend 1 []).onHw fun h => { h with objs := [] }).planImage 1 = none ∧
    (after (.planTakeUp 1) ((pend 1 []).onHw fun h => { h with objs := [] })).hw.fld (psReg 1 Reg.hostGlobal.ps0Status) 4 4 = 11 ∧
    (match (pend 1 (image0 1 5)).planCheck 1 (image0 1 5) with | .inl r => r | .inr _ => 0) = 3 ∧
    (pend 0 (image0 1 416246480)).planImage 0 = some (image0 1 416246480) ∧ leAt (image0 1 416246480) (leAt (image0 1 416246480) 0x24 4) 4 = 0 ∧
    (match (pend 0 (image0 1 416246480)).planCheck 0 (image0 1 416246480) with | .inl _ => false | .inr _ => true) = true ∧
    (match (pend 0 (image0 2 416246480)).planCheck 0 (image0 2 416246480) with | .inl r => r | .inr _ => 0) = 3 ∧
    after (.planTakeUp 0) (pl [] []) = pl [] [] := by
  refine ⟨?_, ?_, ?_, ?_, ?_, ?_, ?_⟩ <;> decide +kernel

/-- Paddock 1's engine in a state, its group 3 with VOTE_RID 9, its vote slot at the hub of field 19; a node 7 behind link 0 of port 0. -/
def com (x : CommitState) (st : Nat) : State :=
  (put z [(pgCommit 1 + 0x00C, st), (pgCommit 1 + Reg.stepCommit.scGroup, 9 <<< 16 + 3), (pgTimebase + Reg.timebase.strideCountLo, 5)]).onHw fun h =>
    { ((h.setRtr (.hub 19) { h.rtrAt (.hub 19) with slots := [(0, word 32 [(0, 1), (1, 2), (3, 9), (23, 1), (24, 4), (28, 1)], 0, 0)] }).setSc 1 x).setOpLink ⟨0, 0⟩ { OpLink.empty with state := 5 } with
      routes := [(7, word 32 [(0, 0), (8, 1), (31, 1)])] }
def cE : CommitState := { CommitState.empty with on := true }
/-- The step vote of the open step. -/
def key0 : RoundKey := ⟨1, 0, 1, 0⟩
/-- An outcome of the step vote that applies at stride 7, or at once. -/
def dec (o at_ : Nat) : LogEntry := ⟨key0, o, 0, at_⟩
/-- SC_PROGRESS and SC_PARTNER set. -/
def prog (s : State) (run partner : Nat) : State := put s [(pgCommit 1 + Reg.stepCommit.scProgress, run <<< 9), (pgCommit 1 + Reg.stepCommit.scPartner, partner + 0xFFFF0000)]
/-- A digest of run 1. -/
def dg (d : BitVec 128) : DigestMsg := ⟨3, 1, 0, 1, d⟩
/-- Paddock 0 waits for a gradient range past its last stride. -/
def late0 : State :=
  (put (uc 0 { UcState.empty with ranges := [{ range0 with count := 0 }] } []) [(pgCommit 0 + 0x00C, 1), (pgCommit 0 + Reg.stepCommit.scGroup, 9 <<< 16)]).onHw fun h =>
    (((h.setSc 0 cE).setSq l0 { h.sqAt l0 with items := [{ item with kind := 3, code := 1 }], begun := [0] }).setPad 0 { PadState.empty with baseInForce := true }).setRtr (.hub 19) { h.rtrAt (.hub 19) with slots := [(0, word 32 [(0, 1), (1, 2), (3, 9), (23, 1), (24, 4)], 0, 0)] }
/-- Object 5 of 16 bytes is walked with node 7. -/
def walk (x : CommitState) : State := (put (prog (com x 1) 0 7) [(pgCommit 1 + Reg.stepCommit.scCfg, 64)]).onHw fun h => { h with objs := [(5, { ob .t1 with size := 16 })] }
/-- Paddock 0's field 0 has a sweep to run again. -/
def again : State := due0.onHw fun h => h.setSc 0 { CommitState.empty with on := true, rerun := true }

set_option maxRecDepth 100000 in
/-- StepVotesPreparesAndDigests. -/
theorem test_step_votes :
    (com cE 1).hw.mayVote 1 = true ∧ (com cE 1).hw.allArrived 1 = true ∧ (com cE 1).hw.voteHub 1 ≠ none ∧ (com cE 2).hw.mayVote 1 = false ∧
    (after (.stepVoteContribute 1) (com cE 1)).hw.blkState (pgCommit 1) = 2 ∧ ((after (.stepVoteContribute 1) (com cE 1)).hw.scAt 1).waiting = some key0 ∧
    late0.hw.mayVote 0 = true ∧ late0.hw.allArrived 0 = false ∧ (late0.hw.pad 0).baseInForce = true ∧ (late0.hw.pad 0).stepBase + (late0.hw.pad 0).stepStrides ≤ late0.hw.stride ∧ late0.hw.voteHub 0 ≠ none ∧
    ((after (.arrivalTimeout 0) late0).hw.scAt 0).waiting.map (·.round) = some 1 ∧
    z.hw.mayWrite .rm (pgCommit 1) Reg.stepCommit.lossIn = true ∧
    (after (.lossInWrite .rm 1 5) (com { cE with voted := true } 1)).hw.bit (pgCommit 1 + 0x010) 18 = true ∧
    (after (.lossInWrite .rm 1 5) (com cE 1)).hw.reg (pgCommit 1 + Reg.stepCommit.lossIn) = 5 := by
  refine ⟨?_, ?_, ?_, ?_, ?_, ?_, ?_⟩ <;> decide +kernel

set_option maxRecDepth 100000 in
/-- StepVotesPreparesAndDigests: prepare instances and digests. -/
theorem test_prepare_rounds :
    (prog (com { cE with digestOk := some true } 3) 1 0xFFFF).hw.mayPrepare 1 = true ∧ after (.prepareContribute 1) (prog (com cE 3) 1 0xFFFF) = prog (com cE 3) 1 0xFFFF ∧
    (after (.prepareContribute 1) (prog (com { cE with digestOk := some true } 3) 1 0xFFFF)).hw.blkState (pgCommit 1) = 4 ∧
    (after (.prepareRecontribute 1) (prog (com { cE with contAt := some 10, last := some (true, none) } 3) 1 0xFFFF)).hw.clk.now = 1000010 ∧
    (after (.prepareRecontribute 1) (prog (com { cE with contAt := some 10, last := some (true, none), digestOk := some true } 3) 1 0xFFFF)).hw.clk.now = 0 ∧
    (com cE 3).hw.scCfg 1 Reg.stepCommit.scGroup % 2 ^ 16 = 3 ∧ (prog (com cE 3) 1 7).hw.partnerNode 1 = 7 ∧ (prog (com cE 3) 1 7).hw.openStep 1 = 1 ∧ (prog (com cE 3) 1 7).hw.progress 1 9 5 = 1 ∧
    after (.digest 1 (dg 0)) (com { CommitState.empty with on := false } 3) = com { CommitState.empty with on := false } 3 ∧
    ((after (.digest 1 (dg 0)) (prog (com cE 3) 1 7)).hw.scAt 1).partner = [dg 0] ∧
    ((after (.digest 1 (dg 0)) (prog (com { cE with formed := 1 } 3) 1 7)).hw.scAt 1).digestOk = some true ∧
    ((after (.digest 1 (dg 5)) (prog (com { cE with formed := 1 } 3) 1 7)).hw.scAt 1).digestOk = some false ∧ (1 : Nat) ≤ (prog (com { cE with formed := 1 } 3) 1 7).hw.resweepMax 1 ∧
    ((after (.digestTimeout 1) (put (prog (com { cE with formed := 1 } 3) 1 7) [(pgCommit 1 + Reg.stepCommit.scCfg, 16)])).hw.scAt 1).digestOk = some true ∧
    ((after (.digestTimeout 1) (put (prog (com { cE with formed := 1 } 3) 1 7) [(pgCommit 1 + Reg.stepCommit.scCfg, 0)])).hw.scAt 1).double = true ∧
    ((0 : Field) ∈ again.hw.paddockFields 0 ∧ (again.hw.ucAt 0).entries = [entry0] ∧ ∀ f ∈ again.hw.paddockFields 0, ∀ x ∈ (again.hw.ucAt f).entries, (again.hw.obj (eF x 0 6)).map (·.state) = some .t1) ∧
    ((after (.sweepRerun 0) again).hw.scAt 0).rerun = false ∧ (after (.sweepRerun 0) again).hw.bit (pgUpdate 0 + Reg.ucomplex.ucStatus) 0 = true ∧
    after (.sweepRerun 1) (com cE 3) = com cE 3 := by
  refine ⟨?_, ?_, ?_, ?_, ?_, ?_, ?_, ?_, ?_, ?_, ?_, ?_, ?_, ?_⟩ <;> decide +kernel

set_option maxRecDepth 100000 in
/-- OutcomesAreLoggedOnceAndTakeEffect. -/
theorem test_outcomes :
    (com cE 2).hw.openStep 1 = 1 ∧ (com cE 2).hw.progress 1 0 8 = 0 ∧ (com cE 2).hw.slotState 1 = 0 ∧ (2 : Nat) ^ 47 ≤ ((com cE 2).hw.stride + 2 ^ 48 - 7) % 2 ^ 48 ∧ ¬ (2 : Nat) ^ 47 ≤ ((com cE 2).hw.stride + 2 ^ 48 - 5) % 2 ^ 48 ∧
    after (.decision 1 (dec 1 7)) (com { cE with log := [dec 2 5] } 2) = com { cE with log := [dec 2 5] } 2 ∧
    ((after (.decision 1 ⟨⟨9, 0, 1, 0⟩, 1, 0, 7⟩) (com cE 2)).hw.scAt 1).log = [⟨⟨9, 0, 1, 0⟩, 1, 0, 7⟩] ∧
    (after (.decision 1 (dec 1 7)) (com cE 2)).hw.blkState (pgCommit 1) = 3 ∧ ((after (.decision 1 (dec 1 7)) (com cE 2)).hw.scAt 1).sweepArmed = true ∧
    ((after (.decision 1 (dec 2 7)) (com cE 2)).hw.scAt 1).pend = some (dec 2 7) ∧
    (after (.decision 1 (dec 2 5)) (com cE 2)).hw.committed 1 = 1 ∧
    (after (.decision 1 (dec 4 5)) (com cE 2)).hw.progress 1 0 8 = 1 ∧
    (put (com cE 2) [(psReg 1 Reg.hostGlobal.ps0Status, 3)]).hw.slotState 1 = 3 ∧
    after (.decisionReply 1 none 0) (com cE 5) = com cE 5 ∧
    ((after (.decisionReply 1 (some (dec 1 7)) 0) (com { cE with waiting := some key0 } 5)).hw.scAt 1).waiting = none ∧
    ((after (.decisionReply 1 (some (dec 2 7)) 0) (com { cE with waiting := some key0 } 5)).hw.scAt 1).pend = some (dec 2 7) ∧
    (com { cE with root := true } 2).hw.isRoot 1 = true ∧ (com cE 2).hw.isRoot 1 = false ∧
    ((after (.abortRequest 1 key0 false) (com { cE with root := true } 2)).hw.scAt 1).log = [⟨key0, 7, 3, 7⟩] ∧ after (.abortRequest 1 key0 false) (com cE 2) = com cE 2 ∧
    ((after (.roundTimeout 1) (com { cE with root := true, waiting := some key0 } 2)).hw.scAt 1).missing = true ∧ after (.roundTimeout 1) (com { cE with waiting := some key0 } 2) = com { cE with waiting := some key0 } 2 ∧
    after (.inDoubt 1) (com { cE with waiting := some key0 } 5) = com { cE with waiting := some key0 } 5 ∧
    (prog (com cE 2) 0 0xFFFF).hw.partnerNode 1 = 0xFFFF ∧ (after (.inDoubt 1) (prog (com { cE with waiting := some key0 } 2) 0 0xFFFF)).hw.blkState (pgCommit 1) = 5 ∧
    (com cE 2).hw.routeOf 7 = some (0, 1) ∧ (com cE 2).hw.chooseLink 0 1 = some ⟨0, 0⟩ ∧ ((com cE 2).hw.opLink ⟨0, 0⟩).outq = [] ∧ ((com cE 2).hw.opLink ⟨0, 0⟩).replay = [] ∧ (Tab.get ((com cE 2).hw.opLink ⟨0, 0⟩).sent 3 0 + 4096 - Tab.get ((com cE 2).hw.opLink ⟨0, 0⟩).cred 3 0) % 4096 < 1024 ∧
    (after (.decisionQuery 1 key0 7) (com cE 2)).hw.out.length = 1 ∧ (com cE 2).hw.routeOf 8 = none ∧
    (after (.decisionQuery 1 key0 8) (com cE 2)).hw.fld (pgOptGlobal + Reg.optGlobal.opUnreach) 0 32 = 1 := by
  refine ⟨?_, ?_, ?_, ?_, ?_, ?_, ?_, ?_, ?_, ?_, ?_, ?_, ?_, ?_, ?_, ?_, ?_, ?_, ?_⟩ <;> decide +kernel

set_option maxRecDepth 100000 in
/-- ArbitrationRejoinWalkAndCommitCommands. -/
theorem test_arbitration_and_commit_commands :
    (after (.arbitrate 1 ⟨7, 8, 1, 0, [], [], 5⟩) (com cE 2)).hw.out.length = 1 ∧ (after (.arbitrate 1 ⟨8, 7, 1, 0, [], [1], 5⟩) (com cE 2)).hw.out.length = 1 ∧
    after (.arbReply 1 ⟨1, 0, none, []⟩) (com cE 6) = com cE 6 ∧
    ((after (.arbReply 1 ⟨1, 0, none, []⟩) (com { cE with arbAt := some 4 } 6)).hw.scAt 1).noRestore = true ∧
    (com cE 6).hw.shardDigest 1 = 0 ∧ (com cE 6).hw.partnerDigest 1 = none ∧ ((after (.arbReply 1 ⟨1, 0, some 5, []⟩) (com { cE with arbAt := some 4 } 6)).hw.scAt 1).noRestore = true ∧
    ((after (.arbReply 1 ⟨1, 0, some 0, []⟩) (com { cE with arbAt := some 4 } 6)).hw.scAt 1).digestOk = some true ∧
    (prog (com { cE with arbAt := some 4, partner := [dg 5] } 6) 1 7).hw.partnerDigest 1 = some 5 ∧ (after (.arbReply 1 ⟨1, 0, some 5, []⟩) (prog (com { cE with arbAt := some 4, partner := [dg 5] } 6) 1 7)).hw.shardDigest 1 = 5 ∧
    after (.arbTimeout 1) (com cE 6) = com cE 6 ∧ ((after (.arbTimeout 1) (com { cE with arbAt := some 4 } 6)).hw.scAt 1).noRestore = true ∧
    (com CommitState.empty 0).hw.committed 1 = 0 ∧ (after (.rejoin 1 none) (com CommitState.empty 0)).hw.blkState (pgCommit 1) = 7 ∧
    after (.rejoin 1 none) (com { cE with log := [dec 2 5] } 1) = com { cE with log := [dec 2 5] } 1 ∧ after (.rejoin 1 (some ⟨0, false, none, 0, 0, 0, 0, []⟩)) (com cE 1) = com cE 1 ∧
    (after (.rejoin 1 (some ⟨9, true, none, 4, 0, 6, 7, []⟩)) (com cE 1)).hw.committed 1 = 9 ∧ (after (.rejoin 1 (some ⟨9, true, none, 4, 0, 6, 7, []⟩)) (com cE 1)).hw.genSlot 1 = 1 ∧
    after (.walkChunk 1 ⟨6, 0, 0, 0⟩) (com cE 1) = com cE 1 ∧
    (after (.walkChunk 1 ⟨5, 0, 0, BitVec.ofNat 128 (walkDigest 0 (List.replicate 8 0))⟩) (walk cE)).hw.fld (pgCommit 1 + Reg.stepCommit.scWalkPos) 0 32 = 1 ∧
    ((after (.walkChunk 1 ⟨5, 0, 0, 0⟩) (walk cE)).hw.scAt 1).walkAgain = some (5, 0) ∧ ((after (.walkChunk 1 ⟨5, 0, 0, 0⟩) (walk { cE with walkAgain := some (5, 0) })).hw.scAt 1).noRestore = true ∧
    CmdOpen (com cE 7) .rm (pgCommit 1) [7] ∧ CmdOpen (com cE 7) .rm (pgCommit 1) [0, 7] ∧
    (after (.resume .rm 1) (com cE 7)).hw.reg (pgCommit 1 + 0x020) = resultWord .rm 1 .illegal ∧ (after (.resume .rm 1) (put (com { cE with held := true } 7) [(pgCommit 1 + Reg.stepCommit.scArg, 2)])).hw.reg (pgCommit 1 + 0x020) = resultWord .rm 1 .badArg ∧
    (after (.resume .rm 1) (com { cE with held := true } 7)).hw.progress 1 0 8 = 1 ∧
    (after (.setLossExp .rm 1) (put (com cE 7) [(pgCommit 1 + Reg.stepCommit.scLossScale, 10 <<< 8), (pgCommit 1 + Reg.stepCommit.scArg, 12)])).hw.lossExp 1 = 10 ∧
    (after (.resetLoss .rm 1) (put (com cE 7) [(pgCommit 1 + Reg.stepCommit.lossCount, 12)])).hw.regN (pgCommit 1 + Reg.stepCommit.lossCount) = 0 := by
  unfold CmdOpen; refine ⟨?_, ?_, ?_, ?_, ?_, ?_, ?_, ?_, ?_, ?_, ?_, ?_, ?_, ?_, ?_, ?_, ?_, ?_⟩ <;> decide +kernel

/-- Cluster 0 serves logical cluster 0 with M-core slot 0; FR_SEL names a unit. -/
def far (sel : Nat) (ws : List (Nat × Nat)) (fr : FarrierState) : State :=
  (put (sq ScoreState.empty) ([(l0.page + Reg.score.l2pMcore0, l2pWord m0), (pgFarrier + Reg.farrier.frSel, sel)] ++ ws)).onHw fun h => { h with fr := fr }
def fE : FarrierState := z.hw.fr
/-- ME 0 of M-core slot 0. -/
def unit0 : Nat := unitKey 0 0 1 0
/-- The slot is fenced. -/
def fenced0 : Nat × Nat := (m0.page + 0x008, 3)
/-- Slot 0's paddock runs a plan. -/
def runs0 : List (Nat × Nat) := [slot0 3, (pgCommit 0 + 0x00C, 1)]
def good : TestResult := ⟨false, none, none⟩

/-- FarrierRecordsFencesAndRepairs: error reports, ERR_CLEAR and ABORT_REQ. -/
theorem test_errors_reported :
    (List.range 4).all (fun i => blockAt (m0.page) ≠ some (.uengine, i)) = true ∧ blockAt m0.page = some (.mcore, 1) ∧
    (after (.errorReport l0 ⟨BitVec.ofNat 56 m0.page, 1, 2, 3, 4⟩) (far 0 [] fE)).hw.regN (l0.page + Reg.score.sqErrStatus) = 1 + 256 + 2 <<< 16 ∧
    (after (.errorReport l0 ⟨BitVec.ofNat 56 m0.page, 1, 2, 3, 4⟩) (far 0 [(l0.page + Reg.score.sqErrStatus, 257)] fE)).hw.regN (l0.page + Reg.score.sqErrStatus) = 257 ∧
    (after (.errorReport l0 ⟨BitVec.ofNat 56 m0.page, 1, 2, 3, 4⟩) (far 0 [] fE)).hw.bit (pgFarrier + 0x010) 8 = true ∧ unitOfPage m0.page ∈ (after (.errorReport l0 ⟨BitVec.ofNat 56 m0.page, 1, 2, 3, 4⟩) (far 0 [(pgFarrier + Reg.farrier.frCfg, 1 <<< 8)] fE)).hw.fr.todo ∧
    (far 0 runs0 fE).hw.deadFor .rm l0.page = false ∧ (far 0 runs0 fE).hw.fencedPage l0.page = false ∧ (far 0 runs0 fE).hw.stateCode l0.page ≤ 7 ∧ (far 0 runs0 fE).hw.mayCommand .rm l0.page none = true ∧ (far 0 runs0 fE).hw.paddockOfScore l0 = some 0 ∧ lit.hw.paddockOfScore l0 = none ∧
    lit.hw.deadFor .rm l0.page = false ∧ (after (.errClear .rm l0) lit).hw.reg (l0.page + 0x020) = resultWord .rm 0x10 .illegal ∧ (after (.abortReq .rm l0) lit).hw.reg (l0.page + 0x020) = resultWord .rm 0x11 .illegal ∧
    (after (.errClear .rm l0) (far 0 ((l0.page + Reg.score.sqErrStatus, 257) :: runs0) fE)).hw.regN (l0.page + Reg.score.sqErrStatus) = 0 ∧
    ((after (.abortReq .rm l0) ((far 0 runs0 fE).onHw fun h => h.setSc 0 cE)).hw.scAt 0).want = some false := by
  refine ⟨?_, ?_, ?_, ?_, ?_, ?_, ?_, ?_⟩ <;> decide +kernel

set_option maxRecDepth 100000 in
/-- FarrierRecordsFencesAndRepairs: the commands. -/
theorem test_farrier_commands :
    (far unit0 [] fE).hw.frSel = unit0 ∧ (far unit0 [] fE).hw.unitPaddock unit0 = some 0 ∧ (far unit0 [] fE).hw.frMay .rm (some 0) = true ∧ (far unit0 [] fE).hw.fencedPage pgFarrier = false ∧ (far unit0 [] fE).hw.blkState pgFarrier = 0 ∧
    unitOk unit0 = true ∧ unitOk 48 = false ∧ unit0 < 2 ^ 16 ∧ unitCluster unit0 ≤ 6 ∧ unitUnit unit0 ≠ 0 ∧
    (after (.farrierFence .rm) (far 48 [] fE)).hw.reg (pgFarrier + 0x020) = resultWord .rm 1 .badArg ∧
    (after (.farrierFence .rm) (far unit0 [] fE)).hw.fencedPage m0.page = true ∧
    unitWhole unit0 ∉ (far unit0 [] fE).hw.flash.service ∧ ((far unit0 [] fE).onHw fun h => { h with flash := { h.flash with service := [unitWhole unit0] } }).hw.flash.service = [unitWhole unit0] ∧
    (after (.retire .rm) ((far unit0 [] fE).onHw fun h => { h with flash := { h.flash with service := [unitWhole unit0] } })).hw.reg (pgFarrier + 0x020) = resultWord .rm 6 .ok ∧
    (far unit0 [] fE).hw.unitHalted unit0 = true ∧ (far unit0 runs0 fE).hw.unitHalted unit0 = false ∧ (far unit0 runs0 fE).hw.anyPlan = true ∧ (far unit0 [] fE).hw.anyPlan = false ∧
    (after (.unfence .rm) (far unit0 (fenced0 :: runs0) fE)).hw.reg (pgFarrier + 0x020) = resultWord .rm 2 .illegal ∧ (after (.unfence .rm) (far unit0 [fenced0] fE)).hw.fencedPage m0.page = false ∧
    (after (.unretire .rm) (far unit0 runs0 fE)).hw.reg (pgFarrier + 0x020) = resultWord .rm 9 .illegal ∧ (after (.unretire .rm) ((far unit0 [] fE).onHw fun h => { h with flash := { h.flash with service := [unitWhole unit0, 1] } })).hw.flash.service = [1] ∧
    (after (.readmitField .rm) (far unit0 [] fE)).hw.reg (pgFarrier + 0x020) = resultWord .rm 8 .illegal ∧
    ((far unit0 [] fE).onHw fun h => { h with outFields := [0], pw := { h.pw with hotOut := [0] } }).hw.fieldQuiet 0 = true ∧ (far unit0 [] fE).hw.fieldCool 0 = true ∧
    (far unit0 [] fE).hw.fencedMe unit0 = false ∧ (far unit0 [fenced0] fE).hw.fencedMe unit0 = true ∧ fE.test = none ∧
    (after (.arrayTest .rm) (far unit0 [] fE)).hw.reg (pgFarrier + 0x020) = resultWord .rm 3 .illegal ∧ (after (.arrayTest .rm) (far unit0 [fenced0] fE)).hw.blkState e0.page = 4 ∧
    (far unit0 [fenced0, (pgFarrier + Reg.farrier.frArg, 0x83)] fE).hw.softFree e0 0x83 = true ∧ (after (.softRepair .rm) (far unit0 [fenced0, (pgFarrier + Reg.farrier.frArg, 0x83)] fE)).hw.softMap e0 = 0x83 ∧
    (after (.softRepair .rm) (far unit0 [(pgFarrier + Reg.farrier.frArg, 0x83)] fE)).hw.reg (pgFarrier + 0x020) = resultWord .rm 4 .illegal ∧
    unitIsMc unit0 = true ∧ (far unit0 [] fE).hw.servedBy m0 = some (l0, 0) ∧ (clSlots l0).find? (fun x => decide (x ≠ m0) && (far unit0 [] fE).hw.isSpare x) = some ⟨l0, 1⟩ ∧
    (after (.swapSpare .rm) (far unit0 [] fE)).hw.mcoreSlot l0 0 = some ⟨l0, 1⟩ ∧ (after (.swapSpare .rm) (far unit0 runs0 fE)).hw.reg (pgFarrier + 0x020) = resultWord .rm 5 .illegal ∧
    ((after (.requestHold .rm) ((far unit0 runs0 fE).onHw fun h => h.setSc 0 cE)).hw.scAt 0).want = some true ∧
    (after (.frClearCounters .rm) (far unit0 [(pgFarrier + Reg.farrier.frTransients, 5)] fE)).hw.regN (pgFarrier + Reg.farrier.frTransients) = 0 := by
  refine ⟨?_, ?_, ?_, ?_, ?_, ?_, ?_, ?_, ?_, ?_, ?_, ?_, ?_, ?_, ?_, ?_, ?_, ?_, ?_⟩ <;> decide +kernel

set_option maxRecDepth 100000 in
/-- FarrierRecordsFencesAndRepairs: array tests, the main path, spares. -/
theorem test_farrier_path :
    after (.arrayTestDone e0 good) (far unit0 [] fE) = far unit0 [] fE ∧ after (.arrayTestDone e3 good) (far unit0 [] { fE with test := some (e0.page, 5) }) = far unit0 [] { fE with test := some (e0.page, 5) } ∧
    (after (.arrayTestDone e0 good) (far unit0 [] { fE with test := some (e0.page, 5) })).hw.fr.test = none ∧ (after (.arrayTestDone e0 good) (far unit0 [] { fE with test := some (e0.page, 5) })).hw.clk.now = 113783 ∧
    unitOfPage e0.page ∈ (after (.arrayTestDone e0 ⟨true, none, none⟩) (far unit0 [] { fE with test := some (e0.page, 5) })).hw.fr.todo ∧
    unitKey 0 0 1 0 = unit0 ∧ after (.farrierMainPath ⟨0, 0, 1, 0⟩) (far unit0 [] fE) = far unit0 [] fE ∧ after (.farrierMainPath ⟨1, 0, 1, 0⟩) (far unit0 [] { fE with act := some ⟨unit0, 0, [0]⟩ }) = far unit0 [] { fE with act := some ⟨unit0, 0, [0]⟩ } ∧
    after (.farrierMainPath ⟨0, 0, 1, 0⟩) (far unit0 [(pgFarrier + Reg.farrier.frCfg, 0)] { fE with todo := [unit0] }) = far unit0 [(pgFarrier + Reg.farrier.frCfg, 0)] { fE with todo := [unit0] } ∧
    ((far unit0 ((pgFarrier + Reg.farrier.frCfg, 1) :: runs0) { fE with todo := [unit0] }).onHw fun h => h.setSc 0 cE).hw.affected unit0 = [0] ∧
    (after (.farrierMainPath ⟨0, 0, 1, 0⟩) ((far unit0 ((pgFarrier + Reg.farrier.frCfg, 1) :: runs0) { fE with todo := [unit0] }).onHw fun h => h.setSc 0 cE)).hw.fr.act = some ⟨unit0, 0, [0]⟩ ∧
    (after (.farrierMainPath ⟨0, 0, 0, 0⟩) (far unit0 [] { fE with act := some ⟨2 ^ 16, 0, []⟩ })).hw.fr.act = none ∧
    unitEngine (unitKey 0 0 2 7) = 7 ∧ unitIsMc (unitKey 0 0 2 7) = true ∧ (far unit0 [] fE).hw.servedBy (unitMc (unitKey 0 0 2 7)) = none ∧
    mcKey m0 ∉ fE.retest ∧ after (.spareRetest m0 [] []) (far unit0 [] fE) = far unit0 [] fE ∧
    (far unit0 [] fE).hw.slotFaults m0 = 0 ∧ (after (.spareRetest m0 [good, good, good, good] [good, good, good, good]) (far unit0 [fenced0] { fE with retest := [mcKey m0] })).hw.fencedPage m0.page = false ∧
    (⟨true, none, none⟩ : TestResult).multi = true ∧ (⟨true, none, none⟩ : TestResult).pass = false := by
  refine ⟨?_, ?_, ?_, ?_, ?_, ?_, ?_, ?_, ?_, ?_, ?_, ?_⟩ <;> decide +kernel

/-- A frame: header fields (lowest bit, value), HOPS 5 and no credits unless set, payload, CRC-32. -/
def frame (fs : List (Nat × Nat)) (bytes : List Byte) (crc : BitVec 32) : Frame := ⟨word 224 ([(33, 7)] ++ fs), sliceD bytes 0 256 0, crc⟩
/-- A frame that carries a flit. -/
def carry (dst src hops : Nat) (k : Flit) (crc : BitVec 32) : Frame := frame [(0, 1), (48, dst), (64, src), (96, hops), (112, k.f 35 77)] k.payload crc
def k0 : LinkLoc := ⟨0, 0⟩
def k1 : LinkLoc := ⟨0, 1⟩
def oE : OpLink := { OpLink.empty with state := 5 }
/-- Node 1: links 0 and 1 of port 0 and link 0 of port 1 UP; node 7 behind link 0, node 9 behind link 1, node 8 behind port 1. -/
def fib (l : OpLink) (p : OpPort) : State :=
  (put lit [(pgOptGlobal + Reg.optGlobal.opNodeId, 1)]).onHw fun h =>
    { (((h.setOpLink k0 l).setOpLink k1 oE).setOpLink ⟨1, 0⟩ oE).setOpPort 0 p with routes := [(7, word 32 [(8, 1), (31, 1)]), (8, word 32 [(0, 1), (8, 1), (31, 1)]), (9, word 32 [(8, 2), (31, 1)])] }
def oP : OpPort := OpPort.empty
/-- The paddock of field 0 runs; its map is valid. -/
def live0 (l : OpLink) (p : OpPort) : State := put (fib l p) [rings, slot0 3, (l0.page + Reg.score.l2pCluster, 2 ^ 31)]
/-- Paddock 0's object of 512 bytes, resident in T1. -/
def obj0 : State := (live0 oE oP).onHw fun h => { h with objs := [(5, { ob .t1 with size := 512 })] }
/-- ALT_READ of 300 bytes of object 5 by node 9, op and CHECK_GEN as given. -/
def altRead (aux step : Nat) (crc : BitVec 32) : Frame := frame [(0, 6), (48, 1), (64, 9), (96, 5), (112, 5), (192, aux)] (leBytes 4 300 ++ leBytes 6 step ++ leBytes 6 0 ++ leBytes 2 (epNum 0 0 8) ++ leBytes 1 3 ++ leBytes 9 0 ++ leBytes 4 0) crc
/-- Number of frames, and of flits, sent. -/
def framesOut (s : State) : Nat := s.hw.out.countP fun e => match e with | .frame _ _ => true | _ => false
def flitsOut (s : State) : Nat := s.hw.out.countP fun e => match e with | .flit _ _ _ _ => true | _ => false
def msgAt (seq : Nat) (crc : BitVec 32) : Frame := frame [(0, 5), (4, 3), (8, seq), (48, 1), (64, 7), (96, 5), (192, 2)] [9] crc
def msg : Frame := msgAt 0 1802366394#32
def pass (dst hops : Nat) (crc : BitVec 32) : Frame := frame [(0, 5), (4, 3), (48, dst), (64, 7), (96, hops), (192, 2)] [9] crc
def pass8 : Frame := pass 8 5 3968228012#32
def pass9 : Frame := pass 9 5 1224662709#32
def idle (nak : Nat) (crc : BitVec 32) : Frame := frame [(32, nak)] [] crc

set_option maxRecDepth 100000 in
/-- FramesAreSequencedDeliveredAndPassedOn: the link, and frames for other nodes. -/
theorem test_frames_on_a_link :
    carried (.frameFlit k0 msg) = some (k0, msg) ∧ after (.frameFlit k0 msg) (fib OpLink.empty oP) = fib OpLink.empty oP ∧
    ({ msg with crc := 0 } : Frame).crcOk = false ∧ ((after (.frameFlit k0 { msg with crc := 0 }) (fib oE oP)).hw.opLink k0).dropping = true ∧
    ((msgAt 2 2392441551#32)).f 8 12 = 2 ∧ ((after (.frameFlit k0 (msgAt 2 2392441551#32)) (fib oE oP)).hw.opLink k0).dropping = true ∧ framesOut (after (.frameFlit k0 (msgAt 2 2392441551#32)) (fib { oE with rxSeq := 2 } oP)) = 0 ∧
    FrameNext (fib oE oP) k0 pass8 ∧ (fib oE oP).hw.nodeId = 1 ∧ (fib oE oP).hw.routeOf 8 = some (1, 1) ∧ (fib oE oP).hw.chooseLink 1 1 = some ⟨1, 0⟩ ∧
    ((after (.frameFlit k0 pass8) (fib oE oP)).hw.opPort 0).bundles.map (·.dest) = [1] ∧
    FrameNext (fib oE oP) k0 pass9 ∧ LinkReady (fib oE oP).hw k1 3 1 ∧ (fib oE oP).hw.routeOf 9 = some (0, 2) ∧ (fib oE oP).hw.chooseLink 0 2 = some k1 ∧
    framesOut (after (.frameFlit k0 pass9) (fib oE oP)) = 1 ∧
    (after (.frameFlit k0 (pass 9 0 520330930#32)) (fib oE oP)).hw.fld (pgOptGlobal + Reg.optGlobal.opUnreach) 0 32 = 1 ∧
    FrameNext (fib oE oP) k0 (carry 9 1 0 (flit 1 0 [1]) 1200013804#32) ∧ flitsOut (after (.frameFlit k0 (carry 9 1 0 (flit 1 0 [1]) 1200013804#32)) (fib oE oP)) = 1 := by
  unfold FrameNext LinkReady; refine ⟨?_, ?_, ?_, ?_, ?_, ?_, ?_, ?_, ?_⟩ <;> decide +kernel

set_option maxRecDepth 100000 in
/-- FramesAreSequencedDeliveredAndPassedOn: frames for this node. -/
theorem test_frames_delivered :
    framesOut (after (.frameFlit k0 (idle 0 414632879#32)) (fib { oE with replay := [msg] } oP)) = 0 ∧
    framesOut (after (.frameFlit k0 (idle 1 1768129014#32)) (fib { oE with replay := [msg.put 8 12 3] } oP)) = 1 ∧
    FrameNext (fib oE oP) k0 msg ∧ (after (.frameFlit k0 msg) (fib oE oP)).hw.out = [.message 7 2 (9 :: List.replicate 255 0)] ∧
    (live0 oE oP).hw.groupOk (carry 1 7 5 (flit 1 (epNum 0 0 1) [1]) 1878114428#32) = true ∧ ((live0 oE oP).hw.ctxFor 0 (carry 1 7 5 (flit 1 (epNum 0 0 1) [1]) 1878114428#32)).map (·.1) = some 63 ∧
    ((Tab.find ((after (.frameFlit k0 (carry 1 7 5 (flit 1 (epNum 0 0 1) [1]) 1878114428#32)) (live0 oE oP)).hw.opPort 0).ctxs 63).map (·.out)) = some 1 ∧
    (fib oE oP).hw.groupOk (carry 1 9 5 (flit 1 (epNum 0 0 1) [1]) 2209071283#32) = false ∧ FrameNext (fib oE oP) k0 (carry 1 9 5 (flit 1 (epNum 0 0 1) [1]) 2209071283#32) ∧ LinkReady (fib oE oP).hw k1 0 1 ∧
    ((after (.frameFlit k0 (carry 1 7 5 (flit 4 (epNum 0 0 8) [1, 0, 0, 0, 0, 3]) 2687577138#32)) (fib oE { oP with streams := [⟨epNum 0 0 8, 3, 4, 0⟩] })).hw.opPort 0).streams.map (·.out) = [3] ∧
    flitsOut (after (.frameFlit k0 (carry 1 7 5 (raw 7 1 0 9 [5]) 3941163948#32)) (fib oE oP)) = 1 ∧
    FrameNext obj0 k0 (altRead (3 <<< 11) 0 3990050800#32) ∧ LinkReady obj0.hw k1 0 3 ∧ obj0.hw.groupId 0 = 0 ∧ obj0.hw.committed 0 = 0 ∧ (altRead (3 <<< 11) 0 3990050800#32).f 112 48 = 5 ∧
    (∀ i : Fin 8, (bitOf 2 i.val = true ∧ (obj0.hw.opLink ⟨0, i⟩).up = true) ↔ (⟨0, i⟩ : LinkLoc) = k1) ∧
    bitsOf ((altRead (2 <<< 11) 0 1302450560#32).f 192 32) 11 4 = 2 ∧ bitOf ((altRead (3 <<< 11 + 2 ^ 15) 1 3920424733#32).f 192 32) 15 = true ∧ leAt (altRead (3 <<< 11 + 2 ^ 15) 1 3920424733#32).payload 4 6 = 1 := by
  unfold FrameNext LinkReady; refine ⟨?_, ?_, ?_, ?_, ?_, ?_, ?_, ?_, ?_, ?_, ?_⟩ <;> decide +kernel

set_option maxRecDepth 100000 in
/-- FramesAreSequencedDeliveredAndPassedOn: replays, contexts, streams, bundles; a WRITE waits where no context is free. -/
theorem test_frames_timed_and_bundled :
    after (.frameReplayTimeout k0) (fib oE oP) = fib oE oP ∧ (after (.frameReplayTimeout k0) (fib { oE with replay := [msg] } oP)).hw.clk.now = 8000 ∧
    after (.contextFree 0 5) (fib oE oP) = fib oE oP ∧ after (.contextFree 0 5) (fib oE { oP with ctxs := [(5, ⟨7, 0, 0, 0, 1, 9⟩)] }) = fib oE { oP with ctxs := [(5, ⟨7, 0, 0, 0, 1, 9⟩)] } ∧
    ((after (.contextFree 0 5) (fib oE { oP with ctxs := [(5, ⟨7, 0, 0, 0, 0, 9⟩)] })).hw.opPort 0).ctxs = [] ∧
    ((after (.contextFree 0 5) (fib oE { oP with ctxs := [(5, ⟨7, 0, 0, 0, 0, 9⟩)], waiting := [carry 1 7 5 (flit 1 (epNum 0 0 1) [1]) 1878114428#32] })).hw.opPort 0).waiting = [] ∧
    ((fib oE { oP with ctxs := (List.range 64).map fun i => (i, ⟨2, i, 0, 0, 1, 0⟩) }).hw.ctxFor 0 (carry 1 7 5 (flit 1 (epNum 0 0 1) [1]) 1878114428#32)).isNone = true ∧
    after (.remoteTimeout 0 0) (fib oE oP) = fib oE oP ∧ after (.remoteTimeout 0 0) (fib oE { oP with streams := [⟨epNum 0 0 8, 3, 0, 0⟩] }) = fib oE { oP with streams := [⟨epNum 0 0 8, 3, 0, 0⟩] } ∧
    ((after (.remoteTimeout 0 0) (fib oE { oP with streams := [⟨epNum 0 0 8, 3, 4, 0⟩] })).hw.opPort 0).streams = [] ∧
    after (.bundleSend 0 1 true) (fib oE oP) = fib oE oP ∧ flitsOut (after (.bundleSend 0 1 true) (after (.frameFlit k0 pass8) (fib oE oP))) = 2 := by
  refine ⟨?_, ?_, ?_, ?_, ?_, ?_, ?_, ?_⟩ <;> decide +kernel

/-- Node 1, the timebase LOCKED, links of port 0 enabled; node's link 0 as given. -/
def opt (ws : List (Nat × Nat)) (l : OpLink) : State :=
  put (fib l oP) ([(pgTimebase + 0x00C, 2), (pgPort 0 + Reg.port.opLinkEn, 3), (pgPort 0 + 0x00C, 1)] ++ ws)
def peer (node : BitVec 16) : PeerId := ⟨node, 2, 3, 4⟩
/-- The link in a state. -/
def lk (st : Nat) : OpLink := { oE with state := st }
/-- Link 0 after a command. -/
def link0 (c : Instr) (s : State) : OpLink := (after c s).hw.opLink k0

set_option maxRecDepth 100000 in
/-- LinksComeUpBeatFailAndGoDown: bring-up, heartbeats, delay. -/
theorem test_links_come_up_and_beat :
    after (.frameDelay k0 90 10) (opt [] (lk 3)) = opt [] (lk 3) ∧ (link0 (.frameDelay k0 90 10) (opt [] (lk 4))).delay = 40 ∧ (link0 (.frameDelay k0 90 10) (opt [] oE)).delay = 40 ∧
    after (.delayMeasure k0) (opt [] (lk 3)) = opt [] (lk 3) ∧ (after (.delayMeasure k0) (opt [] oE)).hw.clk.now = 10000000 ∧
    (opt [] oE).hw.nodeId = 1 ∧ after (.heartbeat k0 (peer 7)) (opt [] (lk 3)) = opt [] (lk 3) ∧ (link0 (.heartbeat k0 (peer 7)) (opt [] (lk 4))).peerNode = 7 ∧ (link0 (.heartbeat k0 (peer 1)) (opt [] oE)).state = 7 ∧ (link0 (.heartbeat k0 (peer 1)) (opt [] (lk 4))).state = 7 ∧
    (opt [] oE).hw.linkMayRun k0 = true ∧ (opt [(pgPort 0 + Reg.port.opLinkEn, 2)] (lk 1)).hw.linkMayRun k0 = false ∧ after (.linkBringupAdvance k0 (peer 7)) (opt [(pgPort 0 + Reg.port.opLinkEn, 2)] (lk 1)) = opt [(pgPort 0 + Reg.port.opLinkEn, 2)] (lk 1) ∧
    after (.linkBringupAdvance k0 (peer 7)) (opt [] (lk 0)) = opt [] (lk 0) ∧ after (.linkBringupAdvance k0 (peer 7)) (opt [] (lk 5)) = opt [] (lk 5) ∧
    (link0 (.linkBringupAdvance k0 (peer 7)) (opt [] (lk 1))).state = 2 ∧ (link0 (.linkBringupAdvance k0 (peer 7)) (opt [] (lk 2))).state = 3 ∧ (link0 (.linkBringupAdvance k0 (peer 7)) (opt [] (lk 3))).state = 4 ∧
    (opt [] (lk 4)).hw.tb.best = none ∧ (link0 (.linkBringupAdvance k0 (peer 7)) (opt [] (lk 4))).state = 5 ∧ (link0 (.linkBringupAdvance k0 (peer 1)) (opt [] (lk 4))).state = 7 ∧
    framesOut (after (.linkBringupAdvance k0 (peer 7)) ((opt [] (lk 4)).onHw fun h => { h with tb := { h.tb with best := some (1, 2) } })) = 1 ∧
    after (.heartbeatTimeout k0) (opt [] (lk 4)) = opt [] (lk 4) ∧ (link0 (.heartbeatTimeout k0) (opt [] oE)).state = 4 ∧
    LinkReady (opt [] oE).hw k0 3 1 ∧ framesOut (after (.heartbeatSend 0) (opt [] oE)) = 2 := by
  unfold LinkReady; refine ⟨?_, ?_, ?_, ?_, ?_, ?_, ?_, ?_, ?_, ?_⟩ <;> decide +kernel

set_option maxRecDepth 100000 in
/-- LinksComeUpBeatFailAndGoDown: lanes, causes, laser power. -/
theorem test_links_fail_and_go_down :
    (link0 (.laneFailRetrain k0 1 false) (opt [] (lk 3))).failed = 1 ∧ after (.laneFailRetrain k0 0 false) (opt [] oE) = opt [] oE ∧ after (.laneFailRetrain k0 0 true) (opt [] (lk 6)) = opt [] (lk 6) ∧
    (link0 (.laneFailRetrain k0 0x21 false) (opt [] oE)).state = 1 ∧ (link0 (.laneFailRetrain k0 0x10 false) (opt [] { oE with failed := 2 })).state = 1 ∧
    (link0 (.laneFailRetrain k0 0x20 false) (opt [] oE)).state = 6 ∧ (link0 (.laneFailRetrain k0 0x20 false) (opt [] oE)).upper = false ∧ (link0 (.laneFailRetrain k0 2 true) (opt [] (lk 6))).upper = true ∧
    (link0 (.laneFailRetrain k0 0 true) (opt [] oE)).state = 6 ∧ (link0 (.laneFailRetrain k0 0 true) (opt [] oE)).half = false ∧
    after (.opticalLinkDown k0 .noFrame) (opt [] (lk 3)) = opt [] (lk 3) ∧ after (.opticalLinkDown k0 .los) (opt [] (lk 1)) = opt [] (lk 1) ∧
    (link0 (.opticalLinkDown k0 .los) (opt [] (lk 3))).state = 1 ∧ (link0 (.opticalLinkDown k0 .fecLost) (opt [] (lk 4))).state = 3 ∧ (link0 (.opticalLinkDown k0 .noFrame) (opt [] oE)).state = 3 ∧
    ({ oE with replay := [msg] } : OpLink).up = true ∧ (link0 (.opticalLinkDown k0 .los) (opt [] { oE with replay := [msg] })).replay = [] ∧
    (after (.laserPowerLow 0 0 2 5) (opt [(pgPort 0 + Reg.port.opLaserThresh, 0)] oE)).hw.bit (pgPort 0 + 0x010) 11 = false ∧
    (after (.laserPowerLow 0 0 2 5) (opt [(pgPort 0 + Reg.port.opLaserThresh, 10)] oE)).hw.bit (pgPort 0 + 0x010) 11 = true ∧ (link0 (.laserPowerLow 0 0 2 5) (opt [(pgPort 0 + Reg.port.opLaserThresh, 10)] oE)).state = 5 ∧
    (link0 (.laserPowerLow 0 0 2 5) (opt [(pgPort 0 + Reg.port.opLaserThresh, 10 + 10 <<< 16)] oE)).state = 6 ∧ (link0 (.laserPowerLow 0 0 2 5) (opt [(pgPort 0 + Reg.port.opLaserThresh, 10 <<< 16)] { oE with failed := 0x10 })).state = 1 ∧ (link0 (.laserPowerLow 0 1 2 5) (opt [(pgPort 0 + Reg.port.opLaserThresh, 10 <<< 16)] oE)).failed = 0 := by
  refine ⟨?_, ?_, ?_, ?_, ?_, ?_, ?_, ?_, ?_, ?_⟩ <;> decide +kernel

set_option maxRecDepth 100000 in
/-- LinksComeUpBeatFailAndGoDown: commands and register writes. -/
theorem test_port_commands_and_registers :
    CmdOpen (opt [] oE) .rm (pgPort 0) [1] ∧
    (link0 (.opClearCounters .rm 0) (opt [] { oE with crcErr := 3 })).crcErr = 0 ∧ (after (.opClearCounters .rm 0) (opt [(pgPort 0 + Reg.port.opReject, 3)] oE)).hw.regN (pgPort 0 + Reg.port.opReject) = 0 ∧
    (opt [] oE).hw.linkMayRun ⟨0, 0⟩ = true ∧ (opt [(pgPort 0 + Reg.port.opSel, 5)] oE).hw.linkMayRun ⟨0, 5⟩ = false ∧ (link0 (.retrain .rm 0) (opt [] oE)).state = 2 ∧
    (after (.retrain .rm 0) (opt [(pgPort 0 + Reg.port.opSel, 5)] oE)).hw.reg (pgPort 0 + 0x020) = resultWord .rm 2 .illegal ∧
    (opt [] oE).hw.planRunning 0 = false ∧ (opt [(pgPort 0 + Reg.port.opTreeData, 1 <<< 8)] oE).hw.planRunning 1 = false ∧ (opt runs0 oE).hw.planRunning 0 = true ∧
    Tab.get ((after (.writeTree .rm 0) (opt [(pgPort 0 + Reg.port.opTreeSel, 9), (pgPort 0 + Reg.port.opTreeData, 0x155)] oE)).hw.opPort 0).trees 9 0 = 0x155 ∧
    (after (.writeTree .rm 0) (opt ((pgPort 0 + Reg.port.opTreeData, 0x55) :: runs0) oE)).hw.reg (pgPort 0 + 0x020) = resultWord .rm 3 .illegal ∧
    WriteOpen (opt [] oE) .rm pgOptGlobal Reg.optGlobal.opNodeId ∧ WriteOpen (opt [] oE) .rm pgOptGlobal Reg.optGlobal.opRtData ∧ WriteOpen (opt [] oE) .rm (pgPort 0) Reg.port.opLinkEn ∧
    (((opt [] oE).hw.opLink k0).up = true ∧ ∀ f : Field, ∀ i : Fin 8, (lit.hw.opLink ⟨f, i⟩).up = false) ∧
    (after (.opNodeIdWrite .rm 7) (opt [] oE)).hw.nodeId = 1 ∧ (after (.opNodeIdWrite .rm 7) lit).hw.nodeId = 7 ∧
    Tab.get (after (.opRtDataWrite .rm 0xFFFFFFFF) (put lit [(pgOptGlobal + Reg.optGlobal.opRtSel, 3)])).hw.routes 3 0 = 0x8000FF3F ∧
    (link0 (.opLinkEnWrite .rm 0 0) (opt [] oE)).state = 0 ∧ (link0 (.opLinkEnWrite .rm 0 3) (opt [] (lk 0))).state = 1 ∧ (link0 (.opLinkEnWrite .rm 0 7) (opt [] oE)).state = 5 := by
  unfold CmdOpen WriteOpen; refine ⟨?_, ?_, ?_, ?_, ?_, ?_, ?_, ?_, ?_, ?_, ?_, ?_⟩ <;> decide +kernel

/-- Stride 5, TIMEBASE_LEAD_NS 3000; the timebase in a state and role. -/
def tbs (st role : Nat) (t : TbState) (ws : List (Nat × Nat)) : State :=
  (put (fib oE oP) ([(pgTimebase + 0x00C, st), (pgTimebase + Reg.timebase.tbRole, role), (pgTimebase + Reg.timebase.strideCountLo, 5), (pgTimebase + Reg.timebase.timebaseLeadNs, 3000)] ++ ws)).onHw fun h => { h with tb := t }
def tE : TbState := z.hw.tb
/-- The same with no link in service. -/
def dark (st : Nat) (t : TbState) : State := (put lit [(pgTimebase + 0x00C, st)]).onHw fun h => { h with tb := t }
/-- Link 0 leads toward the master. -/
def tF : TbState := { tE with up := some k0.key }
/-- An election is under way. -/
def tV (best : Option (Nat × Nat)) (heard : Tab (Nat × Nat)) : TbState := { tE with electing := true, best := best, heard := heard }
def cand (prio : BitVec 8) (node : BitVec 16) : ElectMsg := ⟨k0, prio, node, 3, 1, 100⟩
/-- A TIMING frame of master 7 for a tick. -/
def tick (m remain : Nat) (crc : BitVec 32) : Frame := frame [(0, 2), (4, 3), (48, 1), (64, 7), (96, 5)] (timingBytes m 25000 remain 7 4 0 9 none) crc
def tick6 : Frame := tick 6 400000 856777182#32
def tick6late : Frame := tick 6 400064 1900824018#32
def tick9 : Frame := tick 9 400000 4080316273#32

set_option maxRecDepth 100000 in
/-- TimebaseSymbolsElectionsAndHoldover: symbols, stretches, reports. -/
theorem test_symbols_and_stretches :
    (tbs 2 1 tE []).hw.stride = 5 ∧ (tbs 2 1 tE []).hw.tbRole = 1 ∧ (tbs 2 1 tE []).hw.predict 6 = 25000 ∧ (tbs 2 1 tE []).hw.tbLead = 3000 ∧ (tbs 2 1 tE []).hw.curLen = 25000 ∧
    (after .timingSend (tbs 2 1 tE [])).hw.clk.now = 22000 ∧ (after .timingSend (tbs 2 1 tE [])).hw.tb.sentTo = 6 ∧ framesOut (after .timingSend (tbs 2 1 tE [])) = 3 ∧
    after .timingSend (tbs 2 2 tE []) = tbs 2 2 tE [] ∧ after .timingSend (tbs 2 1 { tE with sentTo := 6 } []) = tbs 2 1 { tE with sentTo := 6 } [] ∧
    (after (.stretchReq 9) (tbs 3 1 tE [])).hw.regN (pgTimebase + Reg.timebase.stretchWithheld) = 1 ∧ after (.stretchReq 9) (tbs 1 1 tE []) = tbs 1 1 tE [] ∧
    (after (.stretchReq 9) (tbs 2 1 tE [])).hw.tb.stretched = [6] ∧
    (tbs 2 2 tF []).hw.masterLink = some k0 ∧ (tbs 2 2 tE []).hw.masterLink = none ∧ LinkReady (tbs 2 2 tF []).hw k0 3 1 ∧
    after (.stretchReq 9) (tbs 2 2 { tF with forwarded := [9] } []) = tbs 2 2 { tF with forwarded := [9] } [] ∧ after (.stretchReq 9) (tbs 2 2 tE []) = tbs 2 2 tE [] ∧
    framesOut (after (.stretchReq 9) (tbs 2 2 tF [])) = 1 ∧ (after (.stretchReq 9) (tbs 2 2 tF [])).hw.tb.forwarded = [9] ∧
    (after (.tbReport 1500) (tbs 2 1 tE [])).hw.tbLead = 3000 ∧ (after (.tbReport 1) (tbs 2 1 { tE with report := 2001 } [])).hw.tbLead = 4000 ∧
    after (.tbReport 1500) (tbs 2 2 tE []) = tbs 2 2 tE [] ∧ framesOut (after (.tbReport 1500) (tbs 2 2 tF [])) = 1 := by
  unfold LinkReady; refine ⟨?_, ?_, ?_, ?_, ?_, ?_, ?_, ?_, ?_, ?_⟩ <;> decide +kernel

set_option maxRecDepth 100000 in
/-- TimebaseSymbolsElectionsAndHoldover: holdover and elections. -/
theorem test_holdover_and_elections :
    after .tbLost (tbs 1 1 tE []) = tbs 1 1 tE [] ∧ (after .tbLost (tbs 2 1 tE [])).hw.blkState pgTimebase = 3 ∧ LinkReady (tbs 2 1 tE []).hw k0 3 2 ∧ framesOut (after .tbLost (tbs 2 1 tE [])) = 6 ∧
    (tbs 2 1 tE []).hw.ownCandidate = some (128, 1) ∧ (tbs 2 1 tE [(pgOptGlobal + Reg.optGlobal.tbPrio, 255)]).hw.ownCandidate = none ∧
    after .tbTimingTimeout (tbs 2 1 tE []) = tbs 2 1 tE [] ∧ after .tbTimingTimeout (tbs 3 2 tF []) = tbs 3 2 tF [] ∧
    (after .tbTimingTimeout (tbs 2 2 tF [])).hw.clk.now = 50000 ∧ ((tbs 2 2 tF []).hw.opLink k0).up = true ∧
    (after .tbTimingTimeout (tbs 2 2 { tE with up := some 7 } [])).hw.clk.now = 0 ∧ (after .tbTimingTimeout (tbs 2 2 { tE with up := some 7 } [])).hw.blkState pgTimebase = 3 ∧ ((tbs 2 2 tE []).hw.opLink ⟨0, 7⟩).up = false ∧
    after .timebaseSelfMaster (dark 1 tE) = dark 1 tE ∧ after .timebaseSelfMaster (tbs 1 0 { tE with stageAt := some 0 } []) = tbs 1 0 { tE with stageAt := some 0 } [] ∧
    (after .timebaseSelfMaster (dark 1 { tE with stageAt := some 3 })).hw.clk.now = 10000000003 ∧ (after .timebaseSelfMaster (dark 1 { tE with stageAt := some 3 })).hw.tbRole = 1 ∧
    after (.elect (cand 255 7)) (tbs 2 1 tE []) = tbs 2 1 tE [] ∧ (cand 9 7).prio.toNat ≠ 0xFF ∧
    (after (.elect (cand 9 7)) (tbs 2 1 (tV (some (128, 1)) []) [])).hw.tb.best = some (9, 7) ∧ framesOut (after (.elect (cand 9 7)) (tbs 2 1 (tV (some (128, 1)) []) [])) = 3 ∧ framesOut (after (.elect (cand 9 1)) (tbs 2 1 (tV (some (128, 1)) []) [])) = 3 ∧
    (after (.elect (cand 9 7)) (tbs 2 1 tE [])).hw.blkState pgTimebase = 3 ∧ (after (.elect (cand 9 7)) (tbs 1 1 tE [])).hw.tb.electing = true ∧
    (after (.elect (cand 9 7)) (tbs 2 1 (tV (some (9, 7)) []) [])).hw.tb.heard = [(0, (2, 100))] ∧ after (.elect (cand 9 7)) (tbs 2 1 { tE with best := some (9, 7) } []) = tbs 2 1 { tE with best := some (9, 7) } [] ∧
    after (.elect (cand 9 7)) (tbs 2 1 (tV (some (8, 7)) []) []) = tbs 2 1 (tV (some (8, 7)) []) [] ∧ framesOut (after (.elect (cand 9 7)) (tbs 2 1 { tE with best := some (8, 7) } [])) = 1 ∧
    after .electionSettle (tbs 2 1 tE []) = tbs 2 1 tE [] ∧ after .electionSettle (tbs 0 0 (tV none []) []) = tbs 0 0 (tV none []) [] ∧
    (after .electionSettle (tbs 2 1 (tV none []) [])).hw.tbRole = 0 ∧ (after .electionSettle (tbs 2 1 (tV (some (9, 7)) [(7, (1, 1))]) [])).hw.tbRole = 0 ∧
    (after .electionSettle (tbs 1 0 (tV (some (9, 1)) []) [])).hw.blkState pgTimebase = 2 ∧ (after .electionSettle (tbs 3 2 (tV (some (9, 1)) []) [])).hw.tbRole = 1 ∧
    (after .electionSettle (tbs 3 0 (tV (some (9, 7)) [(0, (2, 100)), (1, (1, 900))]) [])).hw.tb.up = some 1 ∧ (after .electionSettle (tbs 3 0 (tV (some (9, 7)) [(0, (2, 100)), (1, (2, 99))]) [])).hw.tb.up = some 1 ∧ (after .electionSettle (tbs 3 0 (tV (some (9, 7)) [(1, (2, 100)), (0, (2, 100))]) [])).hw.tb.up = some 0 := by
  unfold LinkReady; refine ⟨?_, ?_, ?_, ?_, ?_, ?_, ?_, ?_, ?_, ?_, ?_, ?_, ?_, ?_, ?_, ?_⟩ <;> decide +kernel

set_option maxRecDepth 100000 in
/-- TimebaseSymbolsElectionsAndHoldover: TIMING frames. -/
theorem test_timing_frames :
    tick6.crcOk = true ∧ tick6.kind = 2 ∧ tick6.f 32 1 = 0 ∧ tick6.sequenced = false ∧ after (.frameTiming ⟨0, 5⟩ tick6) (tbs 2 2 tF []) = tbs 2 2 tF [] ∧
    (after (.frameTiming k0 tick6) (tbs 2 1 tF [])).hw.tb = tF ∧ (tbs 2 2 tF []).hw.anyPlan = false ∧ (tbs 2 2 tF runs0).hw.anyPlan = true ∧
    (after (.frameTiming k0 tick9) (tbs 3 2 tF runs0)).hw.bit (pgTimebase + 0x010) 13 = true ∧ (tbs 3 2 tF runs0).hw.predict 9 = 100000 ∧
    (after (.frameTiming k0 tick9) (tbs 3 2 tF [])).hw.stride = 8 ∧ (after (.frameTiming k0 tick9) (tbs 1 2 tF [])).hw.stride = 8 ∧
    (after (.frameTiming k0 tick6) (tbs 2 2 tF [])).hw.tb.due = [(6, 25000)] ∧ (after (.frameTiming k0 tick6late) (tbs 2 2 tF [])).hw.tb.due = [(6, 25004)] ∧
    (after (.frameTiming k0 tick6late) (tbs 3 2 tF runs0)).hw.tb.due = [(6, 25001)] ∧ (after (.frameTiming k0 tick6late) (tbs 3 2 tF [])).hw.blkState pgTimebase = 2 ∧
    (tbs 2 2 tF []).hw.tickRoot = some 19 ∧ ((tbs 2 2 tF []).onHw fun h => { h with outFields := [19, 20, 27, 28] }).hw.tickRoot.isNone = true := by
  refine ⟨?_, ?_, ?_, ?_, ?_, ?_, ?_⟩ <;> decide +kernel

/-- Host port 0 is UP, the module READY, host 0 holds lease 0, HP_ARG_G of host 0 is set; registers, object 5, host part as given. -/
def hst (g : Nat) (ws : List (Nat × Nat)) (os : Tab Obj) (y : HostState) : State :=
  (put lit ([rings, (pgModule + Reg.module.glbStatus, 1), (pgHostPort 0 + 0x00C, 2), (leaseReg 0, 1)] ++ ws)).onHw fun h => { h.setArg .h0 (pgHostGlobal + Reg.hostGlobal.hpArgG) (BitVec.ofNat 32 g) with objs := os, hp := y }
def hE : HostState := HostState.empty
/-- An aperture on object 5 in T1. -/
def ap5 (write : Bool) (off : Nat) : Aperture := ⟨5, 1, write, 0, off⟩
/-- Aperture 0 of port 0 is bound, or being bound. -/
def bound (w : Bool) (off : Nat) : State := { hst 0 [] [(5, ob .t1)] { hE with aps := [(0, ap5 w off)] } with mem := memPut [] 0x10000 [7] }
def binding (a : Aperture) (aps : Tab Aperture) (o : Obj) : State := hst 0 [] [(5, o)] { hE with binding := [(0, (0, 1, a))], aps := aps }
def hpRes (c : Instr) (s : State) : Word := (after c s).hw.reg (pgHostPort 0 + 0x020)
/-- Results of the lease and slot commands of host 0. -/
def gRes (c : Instr) (s : State) : Word := (after c s).hw.reg (pgHostGlobal + 0x020)
def lease0 : HostState := { hE with leases := [(0, ⟨0, 100⟩)] }
/-- The last bytes read. -/
def readOut (s : State) : List Byte := match s.hw.out.getLast? with | some (.readData _ b) => b | _ => []
/-- Plan slot 0 in a state, with its image pinned. -/
def slotIn (g st : Nat) (ws : List (Nat × Nat)) (y : HostState) : State := (hst g (slot0 st :: ws) [(5, { ob .t1 with pins := 1 })] y).onHw fun h => h.setPad 0 { PadState.empty with pinned := [5] }
/-- A port in a state. -/
def port (st : Nat) (link : Nat) : State := hst 0 [(pgHostPort 0 + 0x00C, st), (pgHostPort 0 + Reg.hostPort.hpLink, link)] [] hE

/-- HostsUseAperturesLeasesSlotsAndPorts: apertures and the field window. -/
theorem test_apertures :
    (bound true 0).hw.apTarget 0 0 = some (ap5 true 0, 0x10000, 4096) ∧ (bound true 0).hw.apTarget 0 (2 ^ 32) = none ∧ (bound true 0).hw.apTarget 0 4095 = some (ap5 true 0, 0x10FFF, 1) ∧ (bound true 0).hw.apTarget 0 4096 = some (ap5 true 0, 0x11000, 0) ∧
    readOut (after (.apertureRead 0 0 2 .ok) (bound true 0)) = [7, 0] ∧ readOut (after (.apertureRead 0 0 2 .failed) (bound true 0)) = [255, 255] ∧ readOut (after (.apertureRead 0 4095 2 .ok) (bound true 0)) = [0, 255] ∧ readOut (after (.apertureRead 0 4096 2 .failed) (bound true 0)) = [255, 255] ∧
    readOut (after (.apertureRead 0 (2 ^ 32) 2 .ok) (bound true 0)) = [255, 255] ∧ (after (.apertureRead 0 (2 ^ 32) 2 .ok) (bound true 0)).hw.regN (pgHostPort 0 + Reg.hostPort.hpApFault) = 1 ∧
    (after (.apertureWrite 0 0 [9] .ok) (bound true 0)).mem = memPut [] 0x10000 [9] ∧ (after (.apertureWrite 0 0 [9] .ok) (bound false 0)).mem = memPut [] 0x10000 [7] ∧ (after (.apertureWrite 0 (2 ^ 32) [9] .ok) (bound true 0)).mem = memPut [] 0x10000 [7] ∧
    (after (.apertureWrite 0 4095 [9, 8] .ok) (bound true 0)).mem = memPut (memPut [] 0x10000 [7]) 0x10FFF [9] ∧ (after (.apertureWrite 0 0 [9] .failed) (bound true 0)).hw.regN (pgHostPort 0 + Reg.hostPort.hpApFault) = 2 ^ 16 ∧ (after (.apertureWrite 0 4096 [9] .failed) (bound true 0)).hw.regN (pgHostPort 0 + Reg.hostPort.hpApFault) = 1 ∧
    WriteOpen (hst 0 [] [] hE) .h0 (pgHostPort 0) Reg.hostPort.hpFieldWin ∧ (after (.hpFieldWinWrite .h0 0 0x3E) (hst 0 [] [] hE)).hw.regN (pgHostPort 0 + Reg.hostPort.hpFieldWin) = 0x3E ∧ (after (.hpFieldWinWrite .h0 0 47) (hst 0 [] [] hE)).hw.regN (pgHostPort 0 + Reg.hostPort.hpFieldWin) = 47 ∧ after (.hpFieldWinWrite .h0 0 48) (hst 0 [] [] hE) = hst 0 [] [] hE := by
  unfold WriteOpen; refine ⟨?_, ?_, ?_, ?_, ?_, ?_⟩ <;> decide +kernel

/-- HostsUseAperturesLeasesSlotsAndPorts: BIND_AP, UNBIND_AP, ASSIGN_CHANNEL. -/
theorem test_binding_and_channels :
    CmdOpen (hst 0 [] [] hE) .h0 (pgHostPort 0) [2] ∧ (hst 0 [] [] hE).hw.ready = true ∧ (hst 0 [(pgModule + Reg.module.glbStatus, 0)] [] hE).hw.ready = false ∧ Tab.sorted hE.aps = true ∧
    (after (.bindAp .h0 0) (hst 0 [(pgModule + Reg.module.glbStatus, 0)] [] hE)).hw.reg (pgHostPort 0 + 0x020) = resultWord .h0 1 .illegal ∧ (after (.bindAp .h0 0) (binding (ap5 false 0) [] (ob .t1))).hw.reg (pgHostPort 0 + 0x020) = resultWord .h0 1 .busy ∧
    Tab.find (after (.bindAp .h0 0) (hst 0 [(pgHostPort 0 + Reg.hostPort.hpApSel, 3), (pgHostPort 0 + Reg.hostPort.hpApCfg, 7)] [] hE)).hw.hp.binding 0 = some (3, 1, ⟨0, 1, true, 1, 0⟩) ∧
    hpRes (.bindApDone 0) (binding (ap5 false 0) [] (ob .t1)) = resultWord .h0 1 .ok ∧ (after (.bindApDone 0) (binding (ap5 false 0) [] (ob .t1))).hw.hp.aps = [(0, ap5 false 0)] ∧ (after (.bindApDone 0) (binding (ap5 false 0) [] (ob .t1))).hw.obj 5 = some { ob .t1 with pins := 1 } ∧
    hpRes (.bindApDone 0) (binding { ap5 false 0 with handle := 6 } [] (ob .t1)) = resultWord .h0 1 .badArg ∧ hpRes (.bindApDone 0) (binding { ap5 false 0 with pad := 1 } [] { ob .t1 with owner := 1 }) = resultWord .h0 1 .badArg ∧ hpRes (.bindApDone 0) (binding (ap5 false 0) [] { ob .t1 with owner := 1 }) = resultWord .h0 1 .badArg ∧ hpRes (.bindApDone 0) (binding (ap5 false 0) [] { ob .t1 with owner := 1, share := 1 }) = resultWord .h0 1 .ok ∧
    hpRes (.bindApDone 0) (binding (ap5 true 0) [] { ob .t1 with owner := 1, share := 1 }) = resultWord .h0 1 .badArg ∧ hpRes (.bindApDone 0) (binding (ap5 true 0) [] { ob .t1 with cls := 3 }) = resultWord .h0 1 .badArg ∧ hpRes (.bindApDone 0) (binding (ap5 false 4096) [] (ob .t1)) = resultWord .h0 1 .badArg ∧
    hpRes (.bindApDone 0) (binding (ap5 false 0) [(0, ap5 false 0)] (ob .t1)) = resultWord .h0 1 .illegal ∧ hpRes (.bindApDone 0) (binding (ap5 false 0) [] (ob .t2)) = resultWord .h0 1 .illegal ∧ hpRes (.bindApDone 0) (binding { ap5 false 0 with tier := 0 } [] (ob .t1)) = resultWord .h0 1 .illegal ∧
    hpRes (.bindApDone 0) (binding (ap5 false 65536) [] (ob .t1)) = resultWord .h0 1 .limit ∧ hpRes (.bindApDone 0) (binding (ap5 false 0) [] { ob .t1 with pins := 255 }) = resultWord .h0 1 .limit ∧ after (.bindApDone 0) (hst 0 [] [] hE) = hst 0 [] [] hE ∧
    (after (.unbindAp .h0 0) (hst 0 [] [(5, { ob .t1 with pins := 2 })] { hE with aps := [(0, ap5 false 0)] })).hw.hp.aps = [] ∧ (after (.unbindAp .h0 0) (hst 0 [] [(5, { ob .t1 with pins := 2 })] { hE with aps := [(0, ap5 false 0)] })).hw.obj 5 = some { ob .t1 with pins := 1 } ∧
    (hst 0 [] [] hE).hw.holds 0 0 = true ∧ (hst 0 [] [] hE).hw.holds 0 1 = false ∧ (hst 0 [] [] hE).hw.blkState (MvLoc.host 0 0).page = 0 ∧
    (after (.assignChannel .h0 0) (hst 0 [] [] hE)).hw.reg (pgHostPort 0 + 0x020) = resultWord .h0 3 .ok ∧ (after (.assignChannel .h0 0) (hst 0 [(pgHostPort 0 + Reg.hostPort.hpArg, 0x10)] [] hE)).hw.reg (pgHostPort 0 + 0x020) = resultWord .h0 3 .badArg ∧
    (after (.assignChannel .h0 0) (hst 0 [((MvLoc.host 0 0).page + 0x00C, 1)] [] hE)).hw.reg (pgHostPort 0 + 0x020) = resultWord .h0 3 .illegal ∧ (after (.assignChannel .h0 0) (hst 0 [(leaseReg 1, 1), (pgHostPort 0 + Reg.hostPort.hpArg, 0x10)] [] hE)).hw.fld ((MvLoc.host 0 0).page + Reg.mover.mvrCtrl) 4 2 = 1 := by
  unfold CmdOpen; refine ⟨?_, ?_, ?_, ?_, ?_, ?_, ?_, ?_, ?_, ?_, ?_, ?_⟩ <;> decide +kernel

/-- HostsUseAperturesLeasesSlotsAndPorts: leases. -/
theorem test_leases :
    LeaseOpen (hst 0 [] [] hE) .h0 0 ∧ (hst 3 [] [] hE).hw.hpArgG .h0 = 3 ∧
    gRes (.claim .h0) (hst 5 [] [] hE) = resultWord .h0 1 .badArg ∧ gRes (.renew .h0) (hst 5 [] [] hE) = resultWord .h0 2 .badArg ∧ gRes (.release .h0) (hst 5 [] [] hE) = resultWord .h0 3 .badArg ∧
    gRes (.claim .h0) (hst 4 [(leaseReg 4, 2)] [] hE) = resultWord .h0 1 .illegal ∧ gRes (.renew .h0) (hst 4 [] [] hE) = resultWord .h0 2 .illegal ∧ gRes (.release .h0) (hst 4 [] [] hE) = resultWord .h0 3 .illegal ∧
    (after (.claim .h0) (hst 0 [] [] hE)).hw.hp.leases = [(0, ⟨0, 1000000000⟩)] ∧ (after (.renew .h0) (hst 0 [(leaseReg 0, 5)] [] hE)).hw.bit (leaseReg 0) 2 = false ∧ (after (.release .h0) (hst 0 [] [] lease0)).hw.holder 0 = 0 ∧
    (hst 4 [] [] hE).hw.holder 4 = 0 ∧ (after (.claim .h0) (hst 4 [] [] hE)).hw.holder 4 = 1 ∧ (after (.claim .h0) (hst 1 [] [] hE)).hw.bit (pgHostGlobal + 0x010) 8 = true ∧
    after (.leaseWarn 0) (hst 0 [] [] hE) = hst 0 [] [] hE ∧ (after (.leaseWarn 0) (hst 0 [] [] lease0)).hw.clk.now = 75 ∧ after (.leaseWarn 0) (hst 0 [(leaseReg 0, 5)] [] lease0) = hst 0 [(leaseReg 0, 5)] [] lease0 ∧
    after (.leaseExpire 0) (hst 0 [] [] hE) = hst 0 [] [] hE ∧ after (.leaseExpire 0) (hst 0 [(leaseReg 0, 0)] [] lease0) = hst 0 [(leaseReg 0, 0)] [] lease0 ∧ (after (.leaseExpire 0) (hst 0 [] [] lease0)).hw.clk.now = 101 ∧
    (after (.leaseExpire 0) (bound true 0)).hw.hp.aps = [(0, ap5 true 0)] ∧ (after (.leaseExpire 0) ((bound true 0).onHw fun h => { h with hp := { h.hp with leases := [(0, ⟨0, 100⟩)] } })).hw.hp.aps = [] ∧
    (after (.leaseExpire 0) ((hst 0 [slot0 3, (pgHostGlobal + Reg.hostGlobal.hpLeaseCfg, 2 ^ 16)] [] lease0).onHw fun h => h.setSc 0 cE)).hw.out = [.abortAsk 0 true] := by
  unfold LeaseOpen; refine ⟨?_, ?_, ?_, ?_, ?_, ?_, ?_, ?_, ?_⟩ <;> decide +kernel

/-- HostsUseAperturesLeasesSlotsAndPorts: plan slots. -/
theorem test_plan_slots :
    SlotOpen (slotIn 0 0 [] hE) .h0 0 ∧ (slotIn 0 0 [] hE).hw.slotState 0 = 0 ∧
    gRes (.submit .h0) (slotIn 0 1 [] hE) = resultWord .h0 0x10 .illegal ∧ gRes (.submit .h0) (slotIn 0 0 [(pgModule + Reg.module.glbStatus, 0)] hE) = resultWord .h0 0x10 .illegal ∧ gRes (.submit .h0) (slotIn 0 0 [(psReg 0 Reg.hostGlobal.ps0Offset, 8)] hE) = resultWord .h0 0x10 .badArg ∧
    gRes (.submit .h0) (slotIn 0 4 [] { hE with submit := [(0, ⟨1, 5, 0⟩)] }) = resultWord .h0 0x10 .busy ∧ (after (.submit .h0) (slotIn 0 0 [(psReg 0 Reg.hostGlobal.ps0HandleLo, 5)] hE)).hw.hp.submit = [(0, ⟨1, 5, 0⟩)] ∧
    gRes (.withdraw .h0) (slotIn 0 0 [] hE) = resultWord .h0 0x11 .illegal ∧ (after (.withdraw .h0) (slotIn 0 1 [] hE)).hw.slotState 0 = 0 ∧ (after (.withdraw .h0) (slotIn 0 1 [] hE)).hw.obj 5 = some (ob .t1) ∧
    gRes (.psStop .h0) (slotIn 0 0 [] hE) = resultWord .h0 0x12 .illegal ∧ (after (.psStop .h0) (slotIn 0 1 [] hE)).hw.slotState 0 = 0 ∧ (after (.psStop .h0) (slotIn 0 3 [] hE)).hw.slotState 0 = 5 ∧
    (slotIn 0 4 [] hE).hw.slotState 0 = 4 ∧
    after (.submitDone 0) (slotIn 0 0 [] hE) = slotIn 0 0 [] hE ∧ gRes (.submitDone 0) (slotIn 0 3 [] { hE with submit := [(0, ⟨1, 5, 0⟩)] }) = resultWord .h0 0x10 .illegal ∧
    gRes (.submitDone 0) (slotIn 0 0 [] { hE with submit := [(0, ⟨1, 6, 0⟩)] }) = resultWord .h0 0x10 .badArg ∧ gRes (.submitDone 0) (hst 0 [] [(5, { ob .t1 with pins := 255 })] { hE with submit := [(0, ⟨1, 5, 0⟩)] }) = resultWord .h0 0x10 .limit ∧
    (after (.submitDone 0) (hst 0 [] [(5, ob .t1)] { hE with submit := [(0, ⟨1, 5, 0⟩)] })).hw.slotState 0 = 1 ∧ (after (.submitDone 0) (hst 0 [] [(5, ob .t1)] { hE with submit := [(0, ⟨1, 5, 0⟩)] })).hw.obj 5 = some { ob .t1 with pins := 1 } := by
  unfold SlotOpen; refine ⟨?_, ?_, ?_, ?_, ?_, ?_, ?_, ?_, ?_⟩ <;> decide +kernel

set_option maxRecDepth 100000 in
/-- HostsUseAperturesLeasesSlotsAndPorts: PERST and the link. -/
theorem test_host_ports :
    after (.perstAssert 0) (port 1 (2 ^ 11)) = port 1 (2 ^ 11) ∧ (port 2 0).hw.bit (pgHostPort 0 + Reg.hostPort.hpLink) 11 = false ∧
    (after (.perstAssert 0) (port 2 0)).hw.regN (pgHostPort 0 + Reg.hostPort.hpLink) = 2 ^ 11 ∧ (after (.perstAssert 0) (port 2 0)).hw.regN (pgHostPort 1 + Reg.hostPort.hpPeer) = 2 ∧ (after (.perstAssert 0) (port 2 0)).hw.holder 0 = 0 ∧
    after (.perstDeassert 0 true) (port 1 0) = port 1 0 ∧ (after (.perstDeassert 0 true) (port 0 (2 ^ 11))).hw.blkState (pgHostPort 0) = 1 ∧
    after (.dlUp 0 ⟨5, 8, true⟩) (port 2 0) = port 2 0 ∧ (after (.dlUp 0 ⟨5, 8, true⟩) (port 1 0)).hw.regN (pgHostPort 0 + Reg.hostPort.hpLink) = 5 + 8 * 8 + 256 + 512 ∧ (after (.dlUp 0 ⟨4, 8, true⟩) (port 1 0)).hw.bit (pgHostPort 0 + 0x010) 10 = true ∧
    after (.dlDown 0) (port 1 0) = port 1 0 ∧ (after (.dlDown 0) (port 2 0)).hw.blkState (pgHostPort 0) = 1 ∧ (after (.dlDown 0) (port 2 0)).hw.bit (pgHostPort 0 + 0x010) 9 = true ∧
    (((port 2 0).onHw fun h => { h with mv := [((MvLoc.host 0 1).page, { mE with active := some fromHost })] }).hw.mvAt (.host 0 1)).active = some fromHost ∧ dSrcHost fromHost.desc = true ∧
    ((after (.dlDown 0) ((port 2 0).onHw fun h => { h with mv := [((MvLoc.host 0 1).page, { mE with active := some fromHost })] })).hw.mvAt (.host 0 1)).active.map (·.status) = some (some 5) := by
  refine ⟨?_, ?_, ?_, ?_, ?_, ?_, ?_⟩ <;> decide +kernel

/-- Field 0 and 1 powered, with registers and the power part. -/
def pow (ws : List (Nat × Nat)) (p : PowerState) : State := (put lit ws).onHw fun h => { h with pw := p }
def pE : PowerState := PowerState.empty
/-- Samples of field 0: its hottest die sensor, both stacks, optics, update stage; the Ringmaster's die. -/
def temps (j st op ue : Int) : FieldTemps := ⟨[j, 0, 0, 0, 0], [st, 0], op, ue⟩
def ring (d : Int) : HarnessTemps := ⟨d, 0, 0, 0, 0⟩
/-- A monitor of field 0 runs on a source. -/
def monOn (src : Nat) : List (Nat × Nat) := [(pgMonitor 0 3 + 0x00C, 2), (pgMonitor 0 3 + Reg.monitor.monSrc, src)]
def liveCount (s : State) : Nat := s.hw.regN (pgMonitor 0 3 + Reg.monitor.monLiveCount)
/-- Cluster 2 of field 0 in a gait, the others at WALK. -/
def gait2 (g : Nat) : Nat × Nat := (pgFieldPower 0 + Reg.fieldPower.ptClusterGait, 0x1B6DB - 3 <<< 6 + g <<< 6)
def l2 : ClLoc := ⟨0, 2⟩
/-- A wake of cluster 2 to GALLOP waits. -/
def want2 : GovReq := ⟨0, some 2, 0, 0, false⟩
def onPower (b : BootState → BootState) (s : State) : State := s.onHw fun h => { h with boot := b h.boot }
def live (ws : List (Nat × Nat)) : State := onPower (fun b => { b with on := true, pwrEn := true }) (pow ws pE)
/-- The latch is set, by ESTOP. -/
def latch1 : Nat × Nat := (pgPower + Reg.powerGlobal.ptLatch, 3)

set_option maxRecDepth 100000 in
/-- PowerHeatGaitsAndTheLatch: droop, input and power samples. -/
theorem test_power_samples :
    (pow [gait2 3] pE).hw.clusterGait l2 = 3 ∧ (pow [gait2 2] pE).hw.clusterGait l2 = 2 ∧ (pow [gait2 2] pE).hw.fencedPage l2.page = false ∧ after (.vdroopSample l2 40) (pow [gait2 3] pE) = pow [gait2 3] pE ∧
    liveCount (after (.vdroopSample l2 40) (pow (gait2 2 :: monOn (4 + 2 <<< 8)) pE)) = 1 ∧ liveCount (after (.vdroopSample l2 40) (pow (gait2 2 :: monOn (4 + 3 <<< 8)) pE)) = 0 ∧
    (after (.inputSample 7199 100 []) (pow [] pE)).hw.bit (pgPower + 0x010) 8 = true ∧ (after (.inputSample 8601 100 []) (pow [] pE)).hw.bit (pgPower + 0x010) 9 = true ∧
    (after (.inputSample 6999 100 []) (pow [] pE)).hw.pw.inputBad = some 0 ∧ (after (.inputSample 7000 100 []) (pow [] { pE with inputBad := some 3 })).hw.pw.inputBad = none ∧ (after (.inputSample 8801 100 []) (pow [] { pE with inputBad := some 3 })).hw.pw.inputBad = some 3 ∧
    liveCount (after (.inputSample 8000 100 []) (pow (monOn 7) pE)) = 1 ∧ (pow [] pE).hw.fieldOn 0 = true ∧ (pow [] pE).hw.fieldOn 2 = false ∧
    (after (.powerAverage 46001 [7]) (pow [rings, slot0 3] pE)).hw.bit (pgPower + 0x010) 12 = true ∧ (after (.powerAverage 46001 []) (pow [rings, slot0 3] pE)).hw.pw.powerDown ≠ [] ∧ (after (.powerAverage 46000 []) (pow [rings, slot0 3] pE)).hw.pw.powerDown = [] ∧
    (after (.powerAverage 41400 [7]) (pow [] { pE with lowAverages := 5 })).hw.pw.lowAverages = 0 ∧ (after (.powerAverage 41399 []) (pow [] { pE with lowAverages := 98 })).hw.pw.lowAverages = 99 ∧ (after (.powerAverage 41399 []) (pow [(pgFieldPower 1 + Reg.fieldPower.ptGait, 256)] { pE with lowAverages := 99 })).hw.pw.powerUp = [1] ∧
    (after (.powerAverage 100 [7]) (pow [] pE)).hw.regN (pgFieldPower 0 + Reg.fieldPower.ptPower) = 7 + 7 <<< 16 ∧ (after (.powerAverage 100 []) (pow [(pgFieldPower 0 + Reg.fieldPower.ptGait, 1 <<< 12)] pE)).hw.fld (pgFieldPower 0 + Reg.fieldPower.ptThrottleCount) 16 16 = 1 := by
  refine ⟨?_, ?_, ?_, ?_, ?_, ?_, ?_, ?_⟩ <;> decide +kernel

set_option maxRecDepth 100000 in
/-- PowerHeatGaitsAndTheLatch: temperatures, throttling, ceilings, fuses. -/
theorem test_heat :
    (pow [] pE).hw.regN (pgPower + Reg.powerGlobal.ptThresh) = 0x6E695F5A ∧ (pow [] pE).hw.gaitFld 0 4 = 0 ∧ (pow [] pE).hw.bit (pgFieldPower 0 + Reg.fieldPower.ptFuse) 0 = false ∧
    (after (.tempSample 0 (temps 1439 1439 1199 0) (ring 1759)) (pow [] { pE with stepAt := [(0, 5)] })).hw.bit (pgFieldPower 0 + 0x010) 8 = false ∧ (after (.tempSample 0 (temps 1439 0 0 0) (ring 0)) (pow [] { pE with stepAt := [(0, 5)] })).hw.pw.stepAt = [] ∧
    (after (.tempSample 0 (temps 1440 0 0 0) (ring 1760)) (pow [] pE)).hw.bit (pgFieldPower 0 + 0x010) 8 = true ∧ (after (.tempSample 0 (temps 0 1440 0 0) (ring 0)) (pow [] pE)).hw.bit (pgFieldPower 0 + 0x010) 8 = true ∧ (after (.tempSample 0 (temps 0 0 1200 0) (ring 0)) (pow [] pE)).hw.bit (pgFieldPower 0 + 0x010) 8 = true ∧
    (after (.tempSample 0 (temps 1520 0 0 0) (ring 0)) (pow [] pE)).hw.gaitFld 0 4 = 1 ∧ (after (.tempSample 0 (temps 1680 0 0 0) (ring 0)) (pow [] pE)).hw.gaitFld 0 4 = 2 ∧ (after (.tempSample 0 (temps 1680 0 0 0) (ring 0)) (pow [] pE)).hw.bit (pgFieldPower 0 + 0x010) 11 = true ∧
    (after (.tempSample 0 (temps 1680 0 0 0) (ring 0)) (pow [(pgFieldPower 0 + Reg.fieldPower.ptGait, 2 <<< 4)] pE)).hw.blkState (pgFieldPower 0) = 3 ∧ (after (.tempSample 0 (temps 0 1600 0 0) (ring 0)) (pow [] pE)).hw.blkState (pgFieldPower 0) = 3 ∧ (after (.tempSample 0 (temps 0 0 1360 0) (ring 0)) (pow [] pE)).hw.pw.opticOff = [0] ∧
    (after (.tempSample 0 (temps 1760 0 0 0) (ring 0)) (pow [] { pE with tripSamples := [(0, 1)] })).hw.blkState (pgFieldPower 0) = 4 ∧ (after (.tempSample 0 (temps 0 1680 0 0) (ring 0)) (pow [] pE)).hw.blkState (pgFieldPower 0) = 3 ∧ (after (.tempSample 0 (temps 0 0 0 1760) (ring 0)) (pow [] { pE with tripSamples := [(2, 1)] })).hw.blkState (pgFieldPower 0) = 4 ∧
    (after (.tempSample 0 (temps 0 0 0 0) (ring 1760)) (onPower (fun b => { b with on := true }) (pow [] { pE with tripSamples := [(192, 1)] }))).hw.boot.on = false ∧
    after (.throttleStep 0) (pow [] pE) = pow [] pE ∧ (after (.throttleStep 0) (pow [] { pE with stepAt := [(0, 5)] })).hw.gaitFld 0 4 = 1 ∧ (after (.throttleStep 0) (pow [(pgFieldPower 0 + Reg.fieldPower.ptGait, 2 <<< 4)] { pE with stepAt := [(0, 5)] })).hw.pw.stepAt = [(0, 1000005)] ∧
    after (.ceilRelease 0) (pow [] { pE with coolSince := [(0, 5)] }) = pow [] { pE with coolSince := [(0, 5)] } ∧ (after (.ceilRelease 0) (pow [(pgFieldPower 0 + Reg.fieldPower.ptGait, 2 <<< 4)] { pE with coolSince := [(0, 5)] })).hw.gaitFld 0 4 = 1 ∧ (after (.ceilRelease 0) (pow [rings, slot0 3, (pgFieldPower 0 + Reg.fieldPower.ptGait, 2 <<< 4)] { pE with coolSince := [(0, 5)] })).hw.pw.thermUp = [0] ∧
    (after (.fuseShort 0) (pow [] pE)).hw.regN (pgFieldPower 0 + Reg.fieldPower.ptFuse) = 11 ∧ (after (.fuseOverload 0) (pow [] pE)).hw.regN (pgFieldPower 0 + Reg.fieldPower.ptFuse) = 5 ∧ after (.fuseOverload 0) (pow [(pgFieldPower 0 + Reg.fieldPower.ptFuse, 1)] pE) = pow [(pgFieldPower 0 + Reg.fieldPower.ptFuse, 1)] pE := by
  refine ⟨?_, ?_, ?_, ?_, ?_, ?_, ?_, ?_, ?_, ?_⟩ <;> decide +kernel

set_option maxRecDepth 100000 in
/-- PowerHeatGaitsAndTheLatch: the governor, wakes, ramps, rings at rest. -/
theorem test_gaits :
    (after .govSlot (pow [] { pE with charged := 7 })).hw.pw.charged = 0 ∧ (after .govSlot (pow [] { pE with gov := [want2] })).hw.fld (pgPower + Reg.powerGlobal.ptGov) 16 16 = 1 ∧
    (pow [gait2 3] pE).hw.govEval want2 = (0, (pow [gait2 3] pE).hw.govEval want2 |>.2.1, true) ∧ ((pow [gait2 3] pE).hw.govEval want2).2.1 ≤ (pow [] pE).hw.fld (pgPower + Reg.powerGlobal.ptGovLimit) 0 16 ∧
    (after .govAdmit (pow [gait2 3] { pE with gov := [want2] })).hw.pw.wakes = [(2, ⟨0, false, 0⟩)] ∧ (after .govAdmit (pow [gait2 4] { pE with gov := [want2] })).hw.pw.wakes = [(2, ⟨0, true, 0⟩)] ∧
    (after .govAdmit (pow [gait2 3] { pE with gov := [want2], lastWake := [(0, 0)] })).hw.pw.gov.length = 1 ∧ (after .govAdmit (pow [gait2 3] { pE with gov := [want2], charged := 2000 })).hw.pw.gov.length = 1 ∧
    (after .govAdmit (pow [gait2 1] { pE with gov := [⟨0, none, 0, 0, false⟩] })).hw.pw.ramps = [(0, (0, 0))] ∧
    after (.restWakeDone l2) (pow [gait2 4] pE) = pow [gait2 4] pE ∧ (after (.restWakeDone l2) (pow [gait2 4] { pE with wakes := [(2, ⟨0, true, 5⟩)] })).hw.clusterGait l2 = 3 ∧ (after (.restWakeDone l2) (pow [gait2 4] { pE with wakes := [(2, ⟨3, true, 5⟩)] })).hw.pw.wakes = [] ∧
    after (.restWakeDone l2) (pow [] { pE with wakes := [(2, ⟨0, false, 5⟩)] }) = pow [] { pE with wakes := [(2, ⟨0, false, 5⟩)] } ∧ after (.walkWakeDone l2) (pow [] { pE with wakes := [(2, ⟨0, true, 5⟩)] }) = pow [] { pE with wakes := [(2, ⟨0, true, 5⟩)] } ∧
    (pow [gait2 3] pE).hw.runningClusters 0 = [] ∧ (after (.walkWakeDone l2) (pow [gait2 3] { pE with wakes := [(2, ⟨1, false, 5⟩)] })).hw.clusterGait l2 = 1 ∧ (after (.walkWakeDone ⟨0, 3⟩) (pow [gait2 2] { pE with wakes := [(3, ⟨1, false, 5⟩)] })).hw.clusterGait ⟨0, 3⟩ = 2 ∧
    after (.railRampDone 0) (pow [] pE) = pow [] pE ∧ (after (.railRampDone 0) (pow [gait2 2] { pE with ramps := [(0, (1, 0))] })).hw.clusterGait l2 = 1 ∧ (after (.railRampDone 0) (pow [gait2 3] { pE with ramps := [(0, (1, 0))] })).hw.clusterGait l2 = 3 ∧
    WriteOpen (pow [] pE) .rm pgPower Reg.powerGlobal.ptRingRest ∧ (pow [] pE).hw.paddockOfField 0 = none ∧ (pow [rings] pE).hw.paddockOfField 0 = some 0 ∧ (ringOf 0).val = 0 ∧
    (after (.ptRingRestWrite .rm 1) (pow [] pE)).hw.clusterGait l0 = 4 ∧ (after (.ptRingRestWrite .rm 1) (pow [rings] pE)).hw.clusterGait l0 = 0 ∧
    CmdOpen (pow [] pE) .rm (pgFieldPower 0) [2] ∧ (after (.ptClearCounters .rm 0) (pow [(pgFieldPower 0 + Reg.fieldPower.ptPower, 5 + 5 <<< 16)] pE)).hw.regN (pgFieldPower 0 + Reg.fieldPower.ptPower) = 5 := by
  unfold WriteOpen CmdOpen; refine ⟨?_, ?_, ?_, ?_, ?_, ?_, ?_, ?_, ?_, ?_, ?_, ?_⟩ <;> decide +kernel

set_option maxRecDepth 100000 in
/-- PowerHeatGaitsAndTheLatch: power on and off, the latch. -/
theorem test_the_power_latch :
    after .estopAssert z = z ∧ (live []).hw.latched = false ∧ (live [latch1]).hw.latched = true ∧ (after .estopAssert (live [latch1])).hw.regN (pgPower + Reg.powerGlobal.ptLatch) = 2 ∧
    (after .estopAssert (live [])).hw.fld (pgPower + Reg.powerGlobal.ptLatch) 1 3 = 3 ∧
    (after (.inputFault true) (live [])).hw.fld (pgPower + Reg.powerGlobal.ptLatch) 1 3 = 7 ∧ after (.inputFault true) (live [latch1]) = live [latch1] ∧
    (after .pwrEnDeassert (live [])).hw.boot.pwrEn = false ∧ (after .hbPowerLoss (live [])).hw.boot.pwrEn = true ∧
    (after (.pwrEnAssert 7200) z).hw.boot.on = true ∧ (after (.pwrEnAssert 7199) z).hw.boot.on = false ∧ (after (.pwrEnAssert 8601) z).hw.boot.pwrEn = true ∧
    after (.inputReturn 8000) z = z ∧ (after (.inputReturn 8000) (onPower (fun b => { b with pwrEn := true }) z)).hw.boot.on = true ∧
    (live []).hw.deadFor .h0 pgPower = false ∧ (live []).hw.fencedPage pgPower = false ∧ (live []).hw.stateCode pgPower = 0 ∧ (live []).hw.holds 0 4 = false ∧ (live [(leaseReg 4, 1)]).hw.holds 0 4 = true ∧
    (after (.estopClear .h0) (live [latch1])).hw.reg (pgPower + 0x020) = resultWord .h0 1 .badArg ∧ (after (.estopClear .h0) (live [(leaseReg 4, 1)])).hw.reg (pgPower + 0x020) = resultWord .h0 1 .illegal ∧
    (after (.estopClear .h0) (live [latch1, (leaseReg 4, 1), (pgPower + Reg.powerGlobal.ptInputV, 8000)])).hw.latched = false := by
  refine ⟨?_, ?_, ?_, ?_, ?_, ?_, ?_, ?_, ?_⟩ <;> decide +kernel

/-- Bring-up is at stage n. -/
def boots (n : Nat) (ws : List (Nat × Nat)) : State := onPower (fun b => { b with on := true }) (put z ((pgSecurity + Reg.security.secBoot, n) :: ws))
def rep : StageReport := ⟨true, [], [], [], [], []⟩
def noBase : StageReport := { rep with base := false }
def stageOf (c : Instr) (s : State) : Nat := (after c s).hw.stage
/-- Flash changed. -/
def withFlash (f : Flash → Flash) (s : State) : State := s.onHw fun h => { h with flash := f h.flash }
/-- The module is READY; the security engine with its arguments. -/
def sec (ws : List (Nat × Nat)) (x : SecState) : State := (boots 10 ([(pgSecurity + 0x00C, 1), (pgModule + Reg.module.glbStatus, 1)] ++ ws)).onHw fun h => { h with sec := x }
def sE : SecState := SecState.empty
def secRes (c : Instr) (s : State) : Word := (after c s).hw.reg (pgSecurity + 0x020)

set_option maxRecDepth 100000 in
/-- BringUpRunsAndSecurityCommandsAct: stages 1 to 6. -/
theorem test_bring_up :
    StageRuns (boots 1 []) 1 ∧ stageOf (.stageDone rep) (boots 1 []) = 2 ∧ (after (.stageDone noBase) (boots 1 [])).hw.boot.stopped = true ∧
    after (.stageDone rep) z = z ∧ after (.stageBudgetExpire rep) z = z ∧ after (.stageDone rep) (boots 10 []) = boots 10 [] ∧ (after (.stageBudgetExpire rep) (boots 2 [])).hw.clk.now = 500000000 ∧
    after (.stageDone rep) (onPower (fun b => { b with waiting := true }) (boots 4 [])) = onPower (fun b => { b with waiting := true }) (boots 4 []) ∧ after (.stageDone rep) (boots 8 [(pgSecurity + Reg.security.secCtrl, 1)]) = boots 8 [(pgSecurity + Reg.security.secCtrl, 1)] ∧
    StageRuns (boots 2 []) 2 ∧ Tab.sorted (boots 2 []).hw.flash.config = true ∧ (after (.stageDone noBase) (boots 2 [])).hw.boot.stopped = true ∧
    (after (.stageDone rep) (withFlash (fun f => { f with config := [(pgOptGlobal + Reg.optGlobal.opNodeId, 7)] }) (boots 2 []))).hw.nodeId = 7 ∧ (withFlash (fun f => { f with config := [(pgOptGlobal + Reg.optGlobal.opNodeId, 7)] }) (boots 2 [])).hw.flash.config.all (fun x => x.1 = pgOptGlobal + Reg.optGlobal.opNodeId) = true ∧
    (after (.stageDone rep) (boots 2 [])).fuses.buckets = [0] ∧ (after (.stageDone rep) (boots 2 [])).hw.sec.tree = 0 ∧
    (after (.stageDone rep) { withFlash (fun f => { f with sigTree := some 4100 }) (boots 2 []) with fuses := { z.fuses with buckets := [0, 1] } }).hw.sec.tree = 4101 ∧
    (after (.stageDone rep) { withFlash (fun f => { f with sigTree := some 4095 }) (boots 2 []) with fuses := { z.fuses with buckets := [0, 1] } }).hw.sec.tree = 8192 ∧
    StageRuns (boots 3 []) 3 ∧ (boots 3 []).fwOk 0 = false ∧ (boots 3 []).fwOk 1 = false ∧ (after (.stageDone rep) (boots 3 [])).hw.blkState pgSecurity = 3 ∧ (after (.stageDone rep) (boots 3 [])).hw.bit (pgSecurity + Reg.security.secBoot) 9 = true ∧
    StageRuns (boots 4 [(pgFieldPower 0 + 0x00C, 1)]) 4 ∧ stageOf (.stageDone rep) (boots 4 [(pgFieldPower 0 + 0x00C, 1)]) = 5 ∧ (after (.stageDone rep) (boots 4 [(pgFieldPower 0 + 0x00C, 1)])).hw.blkState (pgFieldPower 0) = 2 ∧
    (after (.stageDone { rep with fields := [3] }) (boots 4 [])).hw.outFields = [3] ∧ (boots 4 []).hw.outFields = [] ∧
    StageRuns (boots 5 []) 5 ∧ StageRuns (boots 6 []) 6 ∧ Tab.sorted (boots 6 []).hw.flash.calUser = true ∧
    (after (.stageDone rep) (withFlash (fun f => { f with calUser := [(calKey 1 0, 5)] }) (boots 6 []))).hw.calEff 1 0 = 755 := by
  unfold StageRuns; refine ⟨?_, ?_, ?_, ?_, ?_, ?_, ?_, ?_, ?_, ?_, ?_, ?_, ?_⟩ <;> decide +kernel

set_option maxRecDepth 100000 in
/-- BringUpRunsAndSecurityCommandsAct: stages 7 to 9, HOLD_LOCK. -/
theorem test_bring_up_ends :
    StageRuns (boots 7 [(sitePage 3, 0), (sitePage 3 + 0x00C, 2)]) 7 ∧ stageOf (.stageDone rep) (boots 7 []) = 8 ∧ stageOf (.stageDone rep) (onPower (fun b => { b with locked := true }) (boots 7 [])) = 9 ∧
    (after (.stageDone rep) (boots 7 [(sitePage 3 + 0x00C, 2)])).hw.blkState (sitePage 3) = 3 ∧
    StageRuns (boots 8 []) 8 ∧ (boots 8 []).hw.inService 0 = true ∧ (boots 8 []).hw.blkState (pgFieldPower 0) ≠ 4 ∧ ((boots 8 []).onHw fun h => { h with outFields := List.range 48 }).hw.inService 47 = false ∧
    (after (.stageDone rep) ((boots 8 []).onHw fun h => { h with outFields := List.range 48 })).hw.boot.stopped = true ∧
    (after (.stageDone rep) (boots 8 [])).hw.boot.locked = true ∧ (after (.stageDone rep) (boots 8 [])).hw.tb.electing = true ∧
    StageRuns (boots 9 []) 9 ∧ (after (.stageDone rep) (boots 9 [])).hw.ready = true ∧ (after (.stageDone rep) (boots 9 [])).hw.blkState pgSecurity = 1 ∧
    WriteOpen (boots 8 []) .rm pgSecurity Reg.security.secCtrl ∧ (after (.holdLockWrite .rm 3) (boots 8 [])).hw.regN (pgSecurity + Reg.security.secCtrl) = 1 := by
  unfold StageRuns WriteOpen; refine ⟨?_, ?_, ?_, ?_, ?_, ?_, ?_⟩ <;> decide +kernel

set_option maxRecDepth 100000 in
/-- BringUpRunsAndSecurityCommandsAct: the security engine's commands. -/
theorem test_security_commands :
    SecOpen (sec [] sE) .rm [1] ∧ SecOpen (sec [] sE) .rm [0, 1] ∧ SecOpen (sec [(leaseReg 4, 1)] sE) .h0 [1] ∧ secCommand (.attest .rm) = some (.rm, 1, [1]) ∧
    (sec [] { sE with cmd := some (2, .rm) }).hw.mayCommand .rm pgSecurity none = true ∧ (sec [] sE).hw.fencedPage pgSecurity = false ∧ secRes (.attest .rm) (sec [] { sE with cmd := some (2, .rm) }) = resultWord .rm 1 .busy ∧
    (sec [(pgSecurity + 0x00C, 0)] sE).hw.stateCode pgSecurity = 0 ∧ secRes (.advanceSvn .rm) (sec [(pgSecurity + 0x00C, 0)] sE) = resultWord .rm 2 .illegal ∧ (sec [] sE).hw.deadFor .rm pgSecurity = false ∧
    CmdOpen (sec [(leaseReg 4, 1), (pgModule + Reg.module.glbStatus, 0)] sE) .h0 pgSecurity [1] ∧ secRes (.setBootSlot .h0) (sec [(leaseReg 4, 1), (pgModule + Reg.module.glbStatus, 0)] sE) = resultWord .h0 10 .illegal ∧
    after .cmdDone (sec [] sE) = sec [] sE ∧ secRes .cmdDone (sec [(pgSecurity + 0x00C, 2)] { sE with cmd := some (2, .rm) }) = resultWord .rm 2 .ok ∧ (after .cmdDone (sec [(pgSecurity + 0x00C, 2)] { sE with cmd := some (2, .rm) })).hw.blkState pgSecurity = 1 ∧
    after .challengeExpire (sec [] sE) = sec [] sE ∧ (after .challengeExpire (sec [] { sE with challenge := some ([], 5) })).hw.clk.now = 60000000005 ∧
    (sec [] sE).hw.scopes = 0 ∧ (sec [] sE).hw.sigNext = 0 ∧ (sec [] { sE with tree := 2 ^ 20 }).hw.sigNext = 2 ^ 30 ∧ secRes (.attest .rm) (sec [(pgSecurity + Reg.security.secDebug, 1)] sE) = resultWord .rm 1 .illegal ∧
    secRes (.attest .rm) (sec [] { sE with tree := 2 ^ 20 }) = resultWord .rm 1 .limit ∧
    (after (.advanceSvn .rm) (onPower (fun b => { b with fwHead := [0, 0, 0, 0, 0, 0, 9] }) (sec [] sE))).fuses.svn = 9 ∧
    (after (.ownerEnroll .rm) (sec [] sE)).fuses.owners = [(0, 0)] ∧ secRes (.ownerEnroll .rm) { sec [] sE with fuses := { z.fuses with owners := [(0, 0), (1, 0), (2, 0), (3, 0)] } } = resultWord .rm 3 .badArg ∧
    secRes (.ownerRevoke .rm) (sec [] sE) = resultWord .rm 4 .badArg ∧
    (after (.setBootSlot .rm) (sec [(pgSecurity + Reg.security.secArg, 1)] sE)).hw.flash.bootSlot = true ∧
    (sec [] sE).responseOk = false ∧ secRes (.debugResponse .rm) (sec [] sE) = resultWord .rm 6 .badArg ∧
    (after (.debugChallenge .rm) (sec [] sE)).hw.freeCtr = (sec [] sE).hw.freeCtr + 32 ∧
    Tab.find (after (.saveConfig .rm) (sec [(pgOptGlobal + Reg.optGlobal.opNodeId, 7)] sE)).hw.flash.config (pgOptGlobal + Reg.optGlobal.opNodeId) = some 7 ∧
    CmdOpen (sec [(pgSecurity + 0x00C, 3)] sE) .rm pgSecurity [3] ∧ CmdOpen (sec [(pgSecurity + 0x00C, 3)] sE) .rm pgSecurity [0, 1, 3] ∧ secRes (.fwWrite .rm) (sec [(pgSecurity + 0x00C, 3)] sE) = resultWord .rm 7 .busy ∧
    (after (.readCert .rm) (sec [] sE)).hw.regN pgSecBuf = 0x54524543 := by
  unfold SecOpen CmdOpen; refine ⟨?_, ?_, ?_, ?_, ?_, ?_, ?_, ?_, ?_, ?_, ?_, ?_, ?_, ?_, ?_, ?_, ?_⟩ <;> decide +kernel

/-- Powered on, ADMIN held by host 0, with registers. -/
def adm (ws : List (Nat × Nat)) : State := onPower (fun b => { b with on := true }) (put lit ((leaseReg 4, 1) :: ws))
def calRes (c : Instr) (s : State) : Word := (after c s).hw.reg (pgCalib + 0x020)
/-- CAL_SEL names instance 2 of parameter 1; CAL_USER −3. -/
def pick (ws : List (Nat × Nat)) : State := adm ([(pgCalib + Reg.calib.calSel, 0x201), (pgCalib + Reg.calib.calUser, 2 ^ 32 - 3)] ++ ws)

/-- CalibrationRingsLogAndSmbusAct: the calibration page. -/
theorem test_calibration :
    WriteOpen (adm []) .rm pgCalib Reg.calib.calSel ∧ (after (.calSelWrite .rm 0xFFF00201) ((adm []).onHw fun h => { h with flash := { h.flash with calUser := [(calKey 1 2, 7)] } })).hw.regN (pgCalib + Reg.calib.calUser) = 7 ∧
    CmdOpen (pick []) .rm pgCalib [0] ∧ (pick []).hw.blkState pgCalib = 0 ∧ calOk 1 2 = true ∧ calOk 1 48 = false ∧ (pick []).hw.mayCommand .rm pgCalib none = true ∧
    calRes (.writeUser .rm) (pick []) = resultWord .rm 1 .ok ∧ (after (.writeUser .rm) (pick [])).hw.calPending 1 2 = 747 ∧ (after (.writeUser .rm) (pick [])).hw.calEff 1 2 = 750 ∧
    (after (.clearUser .rm) ((pick []).onHw fun h => { h with flash := { h.flash with calUser := [(calKey 1 2, 7)] } })).hw.calPending 1 2 = 750 ∧
    calRes (.writeUser .rm) (pick [(pgCalib + 0x00C, 1)]) = resultWord .rm 1 .busy ∧ calRes (.clearUser .rm) (pick [(pgCalib + Reg.calib.calSel, 48 * 256 + 1)]) = resultWord .rm 2 .badArg ∧
    (pick [(pgCalib + 0x00C, 2)]).hw.stateCode pgCalib ≠ 0 ∧ (pick [(pgCalib + 0x00C, 2)]).hw.deadFor .rm pgCalib = false ∧ (pick []).hw.fencedPage pgCalib = false ∧ calRes (.clearUser .rm) (pick [(pgCalib + 0x00C, 2)]) = resultWord .rm 2 .illegal ∧
    after .calFlashDone (pick []) = pick [] ∧ (after .calFlashDone (after (.writeUser .rm) (pick []))).hw.blkState pgCalib = 0 ∧ (after (.writeUser .rm) (pick [])).hw.sec.calBusy = some (calKey 1 2, 0) := by
  unfold WriteOpen CmdOpen; refine ⟨?_, ?_, ?_, ?_, ?_, ?_, ?_⟩ <;> decide +kernel

set_option maxRecDepth 100000 in
/-- CalibrationRingsLogAndSmbusAct: PADDOCK_RINGS, EVLOG_SEL, SMBus; writes refused. -/
theorem test_rings_log_and_smbus :
    (adm []).hw.deadFor .h1 pgCalib = false ∧ (adm []).hw.mayWrite .h1 pgCalib Reg.calib.calSel = false ∧ (adm []).hw.mayWrite .h1 pgModule Reg.module.paddockRings = false ∧ Path.h1.host = some 1 ∧
    (after (.calSelWrite .h1 5) (adm [])).hw.regN (pgHostPort 1 + Reg.hostPort.hpDenied) = 1 ∧ (after (.paddockRingsWrite .h1 5) (adm [])).hw.regN (pgHostPort 1 + Reg.hostPort.hpDenied) = 1 ∧
    (adm []).hw.mayWrite .h1 pgEvlog Reg.evlog.evlogSel = false ∧ (after (.evlogSelWrite .h1 5) (adm [])).hw.regN (pgHostPort 1 + Reg.hostPort.hpDenied) = 1 ∧
    WriteOpen (adm []) .rm pgEvlog Reg.evlog.evlogSel ∧ ((after (.evlogSelWrite .rm 0) (after (.farrierFence .rm) (far 48 [] fE))).hw.argOf .rm (pgEvlog + Reg.evlog.evlogData0)).toNat = 0 ∧
    WriteOpen (adm []) .rm pgModule Reg.module.paddockRings ∧ (adm []).hw.usedSpans = [] ∧ (adm [slot0 3, rings]).hw.slotState 0 = 3 ∧ ringOwner 8 0 = some 0 ∧ ringOwner 0 0 = none ∧
    (after (.paddockRingsWrite .rm 0xFFFF0008) (adm [])).hw.regN (pgModule + Reg.module.paddockRings) = 8 ∧ (after (.paddockRingsWrite .rm 8) (adm [])).hw.bit (pgModule + 0x010) 11 = true ∧
    (after (.paddockRingsWrite .rm 0) (adm [slot0 3, rings])).hw.regN (pgModule + Reg.module.paddockRings) = 8 ∧ (after (.paddockRingsWrite .rm 0) (adm [slot0 3, rings])).hw.bit (pgModule + 0x010) 0 = true ∧
    (after (.paddockRingsWrite .rm 0) (adm [rings])).hw.fills ≠ [] ∧ (after (.paddockRingsWrite .rm 0) (adm [rings, (pgPower + Reg.powerGlobal.ptRingRest, 1)])).hw.gaitFld 0 0 = 4 ∧
    (smbusReg 1).isSome = true ∧ smbusReg 0xFF = none ∧ after (.smbusBlockRead 0x5B 1) (adm []) = adm [] ∧ (after (.smbusBlockRead 0x5A 1) (adm [])).hw.out.length = 1 ∧ (adm []).hw.boot.on = true := by
  unfold WriteOpen; refine ⟨?_, ?_, ?_, ?_, ?_, ?_, ?_, ?_, ?_⟩ <;> decide +kernel

/-- The signed header of an image without a body, SVN 3; a signature of the vendor's shape; the rest of the 8 KiB. -/
def fwHdr : List Byte := leBytes 4 0x57524D52 ++ leBytes 2 1 ++ leBytes 1 3 ++ leBytes 9 0 ++ sha256Bytes []
def fwSig : List Byte := beBytes 4 0 ++ (beBytes 4 3 ++ (List.replicate 2176 0 ++ (beBytes 4 7 ++ List.replicate 480 0)))
def fwKey : List Byte := vendorKeyFor fwHdr fwSig
def fwImage : List Byte := fwHdr ++ (fwKey ++ (fwSig ++ List.replicate 5420 0))
/-- Flash slot A holds the image, the fuses the hash of its key. -/
def signed : State := z.onHw fun h => { h with flash := { h.flash with fw := [(0, fwImage)] }, fac := { h.fac with vendorKeys := [sha256 fwKey] } }
theorem fwImage_length : fwImage.length = 8192 := by
  simp only [fwImage, fwHdr, fwKey, fwSig, List.length_append, List.length_replicate, leBytes_length, beBytes_length, sha256Bytes_length, vendorKeyFor_length]
theorem signed_head : ∃ r, signed.hw.fwHead 0 = fwHdr ++ (fwKey ++ (fwSig ++ r)) := by
  have h : signed.hw.fwChunk 0 0 = fwImage := by
    have := sliceD_middle [] fwImage [] 0 8192 (255 : Byte) rfl fwImage_length
    simpa [Hw.fwChunk, signed, State.onHw, Tab.find] using this
  exact ⟨List.replicate 5420 0 ++ signed.hw.fwChunk 0 1, by rw [Hw.fwHead, h, fwImage, List.append_assoc, List.append_assoc, List.append_assoc]⟩
theorem fwHdr_length : fwHdr.length = 48 := by simp [fwHdr, leBytes_length, sha256Bytes_length]
theorem fwSig_ok : fwSig.length = 2668 ∧ beAt fwSig 0 4 < 2 ^ 15 ∧ beAt fwSig 4 4 = 3 ∧ beAt fwSig 2184 4 = 7 := by
  have h0 : sliceD fwSig 0 4 0 = beBytes 4 0 := sliceD_middle [] (beBytes 4 0) _ 0 4 0 rfl (beBytes_length _ _)
  have h4 : sliceD fwSig 4 4 0 = beBytes 4 3 := sliceD_middle (beBytes 4 0) (beBytes 4 3) _ 4 4 0 (beBytes_length _ _) (beBytes_length _ _)
  have h7 : sliceD fwSig 2184 4 0 = beBytes 4 7 := by
    unfold fwSig
    rw [← List.append_assoc, ← List.append_assoc]
    exact sliceD_middle _ _ _ _ _ _ (by simp only [List.length_append, List.length_replicate, beBytes_length]) (beBytes_length _ _)
  refine ⟨by simp only [fwSig, List.length_append, List.length_replicate, beBytes_length], ?_, ?_, ?_⟩
  · rw [beAt, h0]; decide
  · rw [beAt, h4]; decide
  · rw [beAt, h7]; decide
/-- BringUpRunsAndSecurityCommandsAct: an image that the boot ROM accepts, in slot A. -/
theorem test_firmware_verifies : signed.fwOk 0 = true := by
  obtain ⟨r, hr⟩ := signed_head
  have hk : sliceD (signed.hw.fwHead 0) 0x30 56 0 = fwKey := by rw [hr]; exact sliceD_middle _ _ _ _ _ _ fwHdr_length (vendorKeyFor_length _ _)
  have hs : sliceD (signed.hw.fwHead 0) 0x68 2668 0 = fwSig := by
    rw [hr, ← List.append_assoc]
    exact sliceD_middle _ _ _ _ _ _ (by simp only [List.length_append, fwHdr_length, fwKey, vendorKeyFor_length]) fwSig_ok.1
  have hm : (signed.hw.fwHead 0).take 0x30 = fwHdr := by rw [hr, ← fwHdr_length]; exact List.take_left' rfl
  have hl : ∀ i n, i + n ≤ 48 → leAt (signed.hw.fwHead 0) i n = leAt fwHdr i n := by
    intro i n h; rw [hr, leAt, sliceD_left _ _ _ _ _ (by rw [fwHdr_length]; exact h)]; rfl
  have hd : sliceD (signed.hw.fwHead 0) 0x10 32 0 = sliceD fwHdr 0x10 32 0 := by rw [hr, sliceD_left _ _ _ _ _ (by rw [fwHdr_length] <;> decide)]
  have hf : signed.fuses = z.fuses := rfl
  have hp : signed.hw.bit (pgSecurity + Reg.security.secPolicy) 1 = z.hw.bit (pgSecurity + Reg.security.secPolicy) 1 := rfl
  have hv : signed.hw.fac.vendorKeys = [sha256 fwKey] := rfl
  have ht : lmsTypes fwKey = (7, 3) := vendorKeyFor_types _ _
  have hg : lmsVerify fwKey fwHdr fwSig = true := lmsVerify_vendorKeyFor _ _ fwSig_ok.1 fwSig_ok.2.1 fwSig_ok.2.2.1 fwSig_ok.2.2.2
  unfold State.fwOk
  simp only [hk, hs, hm, hd, hl _ _ (show 0 + 4 ≤ 48 by decide), hl _ _ (show 4 + 2 ≤ 48 by decide), hl _ _ (show 6 + 1 ≤ 48 by decide), hl _ _ (show 7 + 1 ≤ 48 by decide), hl _ _ (show 8 + 4 ≤ 48 by decide), hf, hp, hv, ht, hg]
  have h8 : leAt fwHdr 8 4 = 0 := by decide +kernel
  rw [h8]
  simp only [List.contains_cons, BEq.rfl, Bool.true_or]
  decide +kernel
/-- SEC_BUF holds some bytes, a key and its signature of a message; owner slot 0 and the vendor's debug key hash are that key's; a challenge of zeros is open. -/
def secState (pre msg : List Byte) : State :=
  { (z.onHw fun h => { h.secPut (pre ++ (vendorKeyFor msg fwSig ++ (fwSig ++ List.replicate (13660 - pre.length) 0))) with fac := { h.fac with debugKey := sha256 (vendorKeyFor msg fwSig) }, sec := { h.sec with challenge := some (List.replicate 32 0, 0) } }) with
    fuses := { z.fuses with owners := [(0, sha256 (vendorKeyFor msg fwSig))] } }
theorem secBuf_length (pre msg : List Byte) (h : pre.length ≤ 13660) : (pre ++ (vendorKeyFor msg fwSig ++ (fwSig ++ List.replicate (13660 - pre.length) 0))).length = 16384 := by
  simp only [List.length_append, List.length_replicate, vendorKeyFor_length, fwSig_ok.1]
  omega
theorem secState_bytes (pre msg : List Byte) (off n : Nat) (ho : off % 4 = 0) (hp : pre.length ≤ 13660) (hn : off + n ≤ 16384) :
    (secState pre msg).hw.secBytes off n = sliceD (pre ++ (vendorKeyFor msg fwSig ++ (fwSig ++ List.replicate (13660 - pre.length) 0))) off n 0 :=
  Hw.secBytes_secPut z.hw _ off n ho (by rw [secBuf_length _ _ hp]) (by rw [secBuf_length _ _ hp]; exact hn)
theorem secState_key (pre msg : List Byte) (h4 : pre.length % 4 = 0) (hp : pre.length ≤ 13660) : (secState pre msg).hw.secBytes pre.length 56 = vendorKeyFor msg fwSig := by
  rw [secState_bytes _ _ _ _ h4 hp (by omega)]
  exact sliceD_middle _ _ _ _ _ _ rfl (vendorKeyFor_length _ _)
theorem secState_sig (pre msg : List Byte) (h4 : pre.length % 4 = 0) (hp : pre.length ≤ 13660) :
    ((secState pre msg).hw.secBytes (pre.length + 56) (16384 - (pre.length + 56))).take (lmsSigBytes (vendorKeyFor msg fwSig)) = fwSig := by
  have hs : lmsSigBytes (vendorKeyFor msg fwSig) = fwSig.length := by
    simp only [lmsSigBytes, vendorKeyFor_types, lmsHeight, lmotsParam, fwSig_ok.1]
  rw [secState_bytes _ _ _ _ (by omega) hp (by omega), ← List.append_assoc, ← List.append_nil (fwSig ++ _), hs]
  rw [sliceD_middle (pre ++ vendorKeyFor msg fwSig) (fwSig ++ List.replicate (13660 - pre.length) 0) [] _ _ _
    (by simp only [List.length_append, vendorKeyFor_length]) (by simp only [List.length_append, List.length_replicate, fwSig_ok.1]; omega)]
  exact List.take_left' rfl
theorem vendorKey_verifies (msg : List Byte) : lmsVerify (vendorKeyFor msg fwSig) msg fwSig = true :=
  lmsVerify_vendorKeyFor _ _ fwSig_ok.1 fwSig_ok.2.1 fwSig_ok.2.2.1 fwSig_ok.2.2.2
theorem secState_owner (pre msg : List Byte) : (secState pre msg).fuses.ownerOk 0 (vendorKeyFor msg fwSig) = true := by
  simp [secState, Fuses.ownerOk, Tab.find, z, State.reset, Fuses.empty]
theorem owner_signs (pre msg : List Byte) (h : pre.length = 32) : (secState pre msg).ownerSigned msg = true := by
  have hk := secState_key pre msg (by rw [h]) (by rw [h]; decide)
  have hs := secState_sig pre msg (by rw [h]) (by rw [h]; decide)
  rw [h] at hk hs
  unfold State.ownerSigned
  simp only [hk, hs, vendorKey_verifies, Bool.and_true]
  simp [List.any_eq_true]
  exact ⟨0, by decide, secState_owner _ _⟩
/-- BringUpRunsAndSecurityCommandsAct: an owner's signature for OWNER_ENROLL of a hash of zeros, and for OWNER_REVOKE of slot 0; the owner's slot is unrevoked. -/
theorem test_owner_signs :
    (secState (List.replicate 32 0) (List.replicate 32 0 ++ z.hw.serialBytes)).ownerSigned (List.replicate 32 0 ++ z.hw.serialBytes) = true ∧
    (secState (List.replicate 32 0) (leBytes 4 0 ++ z.hw.serialBytes)).ownerSigned (leBytes 4 0 ++ z.hw.serialBytes) = true ∧ 0 ∉ z.fuses.revoked :=
  ⟨owner_signs _ _ (List.length_replicate ..), owner_signs _ _ (List.length_replicate ..), by decide⟩
/-- The message of a debug response, and the buffer's start: scope and key class. -/
def debugMsg (scope : Nat) : List Byte := List.replicate 32 0 ++ leBytes 8 0 ++ leBytes 4 scope ++ leBytes 8 z.hw.flash.bootCount
def debugPre (scope cls : Nat) : List Byte := leBytes 4 scope ++ (leBytes 4 cls ++ [])
theorem secPut_bootCount (h : Hw) (b : List Byte) : (h.secPut b).flash.bootCount = h.flash.bootCount := by
  unfold Hw.secPut
  exact List.foldlRecOn (motive := fun g : Hw => g.flash.bootCount = h.flash.bootCount) _ _ rfl fun _ e _ _ => e
theorem secState_serial (pre msg : List Byte) : (secState pre msg).hw.serialBytes = leBytes 8 0 :=
  congrArg (leBytes 8) (show (secState pre msg).hw.fac.serial = 0 from rfl)
theorem secState_debugKey (pre msg : List Byte) : (secState pre msg).hw.fac.debugKey = sha256 (vendorKeyFor msg fwSig) := by
  simp only [secState, State.onHw]
theorem secState_challenge (pre msg : List Byte) : (secState pre msg).hw.sec.challenge = some (List.replicate 32 0, 0) := by
  simp only [secState, State.onHw]
theorem secState_bootCount (pre msg : List Byte) : (secState pre msg).hw.flash.bootCount = z.hw.flash.bootCount := by
  simp only [secState, State.onHw]
  rw [secPut_bootCount]
theorem response_good (scope cls : Nat) (h : cls = 0 ∧ scope < 16 ∨ cls = 1 ∧ scope &&& 6 = scope ∧ scope < 16) : (secState (debugPre scope cls) (debugMsg scope)).responseOk = true := by
  have hl : (debugPre scope cls).length = 8 := by simp only [debugPre, List.length_append, leBytes_length, List.length_nil]
  have hk := secState_key (debugPre scope cls) (debugMsg scope) (by rw [hl]) (by rw [hl] <;> decide)
  have hs := secState_sig (debugPre scope cls) (debugMsg scope) (by rw [hl]) (by rw [hl] <;> decide)
  have h0 : leAt ((secState (debugPre scope cls) (debugMsg scope)).hw.secBytes 0 4) 0 4 = scope := by
    rw [secState_bytes _ _ _ _ rfl (by rw [hl] <;> decide) (by decide), sliceD_left _ _ _ _ _ (by rw [hl] <;> decide), leAt, sliceD_sliceD _ _ _ _ _ (Nat.le_refl _), debugPre]
    rw [show sliceD (leBytes 4 scope ++ (leBytes 4 cls ++ [])) 0 4 0 = leBytes 4 scope from sliceD_middle [] (leBytes 4 scope) _ 0 4 0 rfl (leBytes_length _ _)]
    exact ofLeBytes_leBytes 4 scope (by omega)
  have h4 : leAt ((secState (debugPre scope cls) (debugMsg scope)).hw.secBytes 4 4) 0 4 = cls := by
    rw [secState_bytes _ _ _ _ rfl (by rw [hl] <;> decide) (by decide), sliceD_left _ _ _ _ _ (by rw [hl] <;> decide), leAt, sliceD_sliceD _ _ _ _ _ (Nat.le_refl _), debugPre]
    rw [sliceD_middle (leBytes 4 scope) (leBytes 4 cls) [] 4 4 0 (leBytes_length _ _) (leBytes_length _ _)]
    exact ofLeBytes_leBytes 4 cls (by omega)
  rw [hl] at hk hs
  have hc := secState_challenge (debugPre scope cls) (debugMsg scope)
  have hd := secState_debugKey (debugPre scope cls) (debugMsg scope)
  have hser := secState_serial (debugPre scope cls) (debugMsg scope)
  have hb : (secState (debugPre scope cls) (debugMsg scope)).hw.flash.bootCount = z.hw.flash.bootCount := secState_bootCount _ _
  unfold State.responseOk
  simp only [h0, h4, hk, hs, hc, hd, hser, hb]
  have hv : lmsVerify (vendorKeyFor (debugMsg scope) fwSig) (List.replicate 32 0 ++ leBytes 8 0 ++ leBytes 4 scope ++ leBytes 8 z.hw.flash.bootCount) fwSig = true := vendorKey_verifies (debugMsg scope)
  rw [hv]
  rcases h with ⟨rfl, h⟩ | ⟨rfl, h, _⟩
  · simp [h]
  · simp [secState_owner, h]
/-- BringUpRunsAndSecurityCommandsAct: an owner's response for scope 2, and the vendor's for all scopes. -/
theorem test_debug_response : (secState (debugPre 2 1) (debugMsg 2)).responseOk = true ∧ (secState (debugPre 15 0) (debugMsg 15)).responseOk = true :=
  ⟨response_good 2 1 (by decide), response_good 15 0 (by decide)⟩

end Sys2Proof.Tests
end

/-! Register reads: what reading one word of a page gives a path and does to its HI latch (R12, R14). -/
namespace Sys2Proof.Machine

section Tables

theorem Tab.find_set {α : Type} (t : Tab α) (k j : Nat) (v : α) :
    Tab.find (Tab.set t k v) j = if j = k then some v else Tab.find t j := by
  split
  case isTrue h => rw [h, Tab.find_set_same]
  case isFalse h => exact Tab.find_set_other t k j v h

theorem Tab.find_erase {α : Type} (t : Tab α) (k j : Nat) :
    Tab.find (Tab.erase t k) j = if j = k then none else Tab.find t j := by
  split
  case isTrue h => rw [h, Tab.find_erase_same]
  case isFalse h => exact Tab.find_erase_other t k j h

theorem Tab.erase_eq_self {α : Type} {t : Tab α} {k : Nat} (h : Tab.find t k = none) : Tab.erase t k = t := by
  induction t with
  | nil => rfl
  | cons e r ih =>
    obtain ⟨j, u⟩ := e
    by_cases hj : j = k
    · simp [Tab.find, hj] at h
    · have hr : Tab.erase r k = r := ih (by simpa [Tab.find, hj] using h)
      simpa [Tab.erase, hj] using hr

end Tables

section Reads

/-- The state in which a path's HI latch of a pair, by its key, holds the pair's HI word: what a read of LO leaves (R14). -/
def State.latchHi (s : State) (key : Nat) (w : Word) : State :=
  s.onHw fun h => { h with rf := { h.rf with hiLatch := Tab.set h.rf.hiLatch key w } }

/-- The state in which a path's HI latch of a pair is dropped: what a read of HI leaves (R14). -/
def State.dropHi (s : State) (key : Nat) : State :=
  s.onHw fun h => { h with rf := { h.rf with hiLatch := Tab.erase h.rf.hiLatch key } }

variable {s t u : State} {p : Path} {a : RegAddr} {n page off key : Nat} {k : PageKind × Nat} {v w : Word}

@[simp] theorem State.find_hiLatch_latchHi_same : Tab.find (s.latchHi key w).hw.rf.hiLatch key = some w := Tab.find_set_same ..

theorem State.dropHi_eq_self (h : Tab.find s.hw.rf.hiLatch key = none) : s.dropHi key = s := by
  rw [State.dropHi, State.onHw, Tab.erase_eq_self h]

theorem State.readWord_dead (hd : s.hw.deadFor p page = true) : s.readWord p (.reg page off) = (BitVec.allOnes 32, s) := by
  simp [State.readWord, hd]

theorem State.readWord_single (hd : s.hw.deadFor p page = false) (hb : blockAt page = some k)
    (hlo : off ∉ regPairs k.1) (hhi : off < 4 ∨ off - 4 ∉ regPairs k.1) :
    s.readWord p (.reg page off) = (s.word p page off, s) := by
  have hne : ¬ (4 ≤ off ∧ off - 4 ∈ regPairs k.1) := fun h => hhi.elim (by omega) (fun hn => hn h.2)
  simp [State.readWord, hd, hb, hlo, hne]

theorem State.readWord_lo (hd : s.hw.deadFor p page = false) (hb : blockAt page = some k) (hlo : off ∈ regPairs k.1) :
    s.readWord p (.reg page off) = (s.word p page off, s.latchHi (pathKey p (page + off)) (s.word p page (off + 4))) := by
  simp [State.readWord, hd, hb, hlo, State.latchHi]

theorem State.readWord_hi (hd : s.hw.deadFor p page = false) (hb : blockAt page = some k)
    (h4 : 4 ≤ off) (hhi : off - 4 ∈ regPairs k.1) (hlo : off ∉ regPairs k.1) :
    s.readWord p (.reg page off) =
      ((Tab.find s.hw.rf.hiLatch (pathKey p (page + off - 4))).getD (s.word p page off), s.dropHi (pathKey p (page + off - 4))) := by
  cases hf : Tab.find s.hw.rf.hiLatch (pathKey p (page + off - 4)) with
  | some w => simp [State.readWord, hd, hb, hlo, h4, hhi, hf, State.dropHi]
  | none => simp [State.readWord, hd, hb, hlo, h4, hhi, hf, State.dropHi_eq_self]

/-- A read that stays within one word reads that word alone and returns the addressed bytes of it (R12). -/
theorem State.readOut_within_word (hn : 1 ≤ n) (hw : regAddrNat a % 4 + n ≤ 4)
    (hr : s.readWord p (s.hw.target p a (4 * (regAddrNat a / 4))) = (w, t)) :
    s.readOut p a n = t.onHw fun h => h.emit (.readData p (((leBytes 4 w.toNat).drop (regAddrNat a % 4)).take n)) := by
  have h0 : n ≠ 0 := by omega
  have h1 : (regAddrNat a + n - 1) / 4 - regAddrNat a / 4 + 1 = 1 := by omega
  simp [State.readOut, State.readBytes, times, h0, h1, hr]

theorem State.readOut_word (ha : regAddrNat a % 4 = 0) (hr : s.readWord p (s.hw.target p a (regAddrNat a)) = (w, t)) :
    s.readOut p a 4 = t.onHw fun h => h.emit (.readData p (leBytes 4 w.toNat)) := by
  have h4 : 4 * (regAddrNat a / 4) = regAddrNat a := by omega
  rw [State.readOut_within_word (w := w) (t := t) (by omega) (by omega) (by rw [h4, hr]), ha, List.drop_zero,
    List.take_of_length_le (Nat.le_of_eq (leBytes_length 4 _))]

/-- An aligned read of eight bytes reads LO's word, then HI's, each with its effects (R12). -/
theorem State.readOut_two_words (ha : regAddrNat a % 4 = 0) (hr : s.readWord p (s.hw.target p a (regAddrNat a)) = (v, t))
    (hq : t.readWord p (t.hw.target p a (regAddrNat a + 4)) = (w, u)) :
    s.readOut p a 8 = u.onHw fun h => h.emit (.readData p (leBytes 4 v.toNat ++ leBytes 4 w.toNat)) := by
  have h1 : (regAddrNat a + 8 - 1) / 4 - regAddrNat a / 4 + 1 = 2 := by omega
  have h8 : ¬ 8 = 0 := by decide
  have hrange : List.range 2 = [0, 1] := rfl
  have h2 : 4 * (regAddrNat a / 4) = regAddrNat a := by omega
  have h3 : 4 * (regAddrNat a / 4 + 1) = regAddrNat a + 4 := by omega
  have hl : (leBytes 4 v.toNat ++ leBytes 4 w.toNat).length = 8 := by simp [leBytes_length]
  simp only [State.readOut, State.readBytes, times, h1, hrange, h8, if_false, List.foldl_cons, List.foldl_nil,
    Nat.add_zero, h2, h3, hr, hq, ha, List.nil_append, List.drop_zero, List.take_of_length_le (Nat.le_of_eq hl)]

theorem leBytes_allOnes_part {i : Nat} (h : i + n ≤ 4) :
    ((leBytes 4 (BitVec.allOnes 32).toNat).drop i).take n = List.replicate n (255 : Byte) := by
  have hr : leBytes 4 (BitVec.allOnes 32).toNat = List.replicate 4 (255 : Byte) := by decide
  rw [hr, List.drop_replicate, List.take_replicate, Nat.min_eq_left (by omega)]

theorem exec_subwordRead_of_readOut (h : s.readOut p a n = t) : exec (.subwordRead p a n) s = .next t := congrArg Host.Outcome.next h
theorem exec_loRead_of_readOut (h : s.readOut p a 4 = t) : exec (.loRead p a) s = .next t := congrArg Host.Outcome.next h
theorem exec_hiRead_of_readOut (h : s.readOut p a 4 = t) : exec (.hiRead p a) s = .next t := congrArg Host.Outcome.next h

end Reads

end Sys2Proof.Machine

section
open Sys2Proof Sys2Proof.Machine

/-- Settles O9: each clause is one word read (`readWord_single`, `readWord_lo`, `readWord_hi`, `readWord_dead`), and the 8-byte read is a LO read whose latch the HI read returns and drops. -/
theorem registerReadReturnsWords : Obligations.RegisterReadReturnsWords := by
  unfold Obligations.RegisterReadReturnsWords
  refine ⟨?_, ?_, ?_, ?_, ?_⟩
  · intro p a n page off k s hn hw ht hd hb hlo hhi
    have hr := State.readWord_single (p := p) hd hb hlo hhi
    rw [← ht] at hr
    exact ⟨_, exec_subwordRead_of_readOut (State.readOut_within_word hn hw hr), ⟨rfl, rfl, rfl⟩, rfl⟩
  · intro p a page off k s ha ht hd hb hlo
    have hr := State.readWord_lo (p := p) hd hb hlo
    rw [← ht] at hr
    exact ⟨_, exec_loRead_of_readOut (State.readOut_word ha hr), ⟨rfl, rfl, rfl⟩, rfl, fun j => Tab.find_set .., rfl⟩
  · intro p a page off k s ha ht hd hb h4 hhi hlo
    have hr := State.readWord_hi (p := p) hd hb h4 hhi hlo
    rw [← ht] at hr
    exact ⟨_, exec_hiRead_of_readOut (State.readOut_word ha hr), ⟨rfl, rfl, rfl⟩, rfl, fun j => Tab.find_erase .., rfl⟩
  · intro p a n page off s hn hw ht hd
    have hr := State.readWord_dead (p := p) (off := off) hd
    rw [← ht] at hr
    refine ⟨_, exec_subwordRead_of_readOut (State.readOut_within_word hn hw hr), ⟨rfl, rfl, rfl⟩, ?_⟩
    rw [leBytes_allOnes_part hw]
    rfl
  · intro p a page off k s ha ht ht4 hd hb hlo hhi
    have ha4 : regAddrNat a % 4 = 0 := by omega
    have hr := State.readWord_lo (p := p) hd hb hlo
    rw [← ht] at hr
    have hq := State.readWord_hi (s := s.latchHi (pathKey p (page + off)) (s.word p page (off + 4))) (p := p) (off := off + 4)
      hd hb (by omega) (by simpa using hlo) hhi
    have hk : page + (off + 4) - 4 = page + off := by omega
    rw [hk, State.find_hiLatch_latchHi_same, Option.getD_some, ← ht4] at hq
    exact ⟨_, exec_subwordRead_of_readOut (State.readOut_two_words ha4 hr hq), ⟨rfl, rfl, rfl⟩, rfl, Tab.find_erase_same ..⟩

end

/-! Register writes: what writing one word of a page does, and the staged LO word of a pair (R9, R15). -/
namespace Sys2Proof.Machine

section Writes

/-- The hardware with the words of LO that the paths have staged replaced (R15). -/
def Hw.withLoStage (h : Hw) (t : Tab Word) : Hw := { h with rf := { h.rf with loStage := t } }

@[simp] theorem Hw.withLoStage_loStage (h : Hw) (t : Tab Word) : (h.withLoStage t).rf.loStage = t := rfl
@[simp] theorem Hw.withLoStage_reg (h : Hw) (t : Tab Word) (k : Nat) : (h.withLoStage t).reg k = h.reg k := rfl
@[simp] theorem Hw.setReg_loStage (h : Hw) (k : Nat) (v : Word) : (h.setReg k v).rf.loStage = h.rf.loStage := rfl

/-- LO of a pair takes the word a path has staged for it, which is then no longer staged; with none staged nothing changes (R15). -/
def Hw.commitLo (h : Hw) (p : Path) (k mask : Nat) : Hw :=
  match Tab.find h.rf.loStage (pathKey p k) with
  | some w => (h.withLoStage (Tab.erase h.rf.loStage (pathKey p k))).setReg k (w &&& BitVec.ofNat 32 mask)
  | none => h

variable {s t : State} {h : Hw} {p : Path} {a : RegAddr} {kind : PageKind} {inst page off mask k j : Nat} {v w : Word} {q r : RegRow}

theorem Hw.commitLo_staged (hs : Tab.find h.rf.loStage (pathKey p k) = some w) :
    h.commitLo p k mask = (h.withLoStage (Tab.erase h.rf.loStage (pathKey p k))).setReg k (w &&& BitVec.ofNat 32 mask) := by
  simp [Hw.commitLo, hs]
theorem Hw.commitLo_unstaged (hs : Tab.find h.rf.loStage (pathKey p k) = none) : h.commitLo p k mask = h := by
  simp [Hw.commitLo, hs]

theorem Hw.commitLo_reg_same : (h.commitLo p k mask).reg k =
    (match Tab.find h.rf.loStage (pathKey p k) with | some w => w &&& BitVec.ofNat 32 mask | none => h.reg k) := by
  cases hs : Tab.find h.rf.loStage (pathKey p k) with
  | some w => simp [Hw.commitLo_staged hs]
  | none => simp [Hw.commitLo_unstaged hs]
theorem Hw.commitLo_reg_other (hj : j ≠ k) : (h.commitLo p k mask).reg j = h.reg j := by
  cases hs : Tab.find h.rf.loStage (pathKey p k) with
  | some w => rw [Hw.commitLo_staged hs, Hw.reg_setReg_other _ _ _ _ hj, Hw.withLoStage_reg]
  | none => rw [Hw.commitLo_unstaged hs]
theorem Hw.commitLo_loStage : (h.commitLo p k mask).rf.loStage = Tab.erase h.rf.loStage (pathKey p k) := by
  cases hs : Tab.find h.rf.loStage (pathKey p k) with
  | some w => simp [Hw.commitLo_staged hs]
  | none => rw [Hw.commitLo_unstaged hs, Tab.erase_eq_self hs]
theorem Hw.commitLo_rest :
    h.commitLo p k mask = { h with rf := { h.rf with words := (h.commitLo p k mask).rf.words, loStage := (h.commitLo p k mask).rf.loStage } } := by
  cases hs : Tab.find h.rf.loStage (pathKey p k) with
  | some w => rw [Hw.commitLo_staged hs]; rfl
  | none => rw [Hw.commitLo_unstaged hs]

theorem Hw.pathWrite_open (f : Hw → Hw) (ho : WriteOpen s p page off) : s.hw.pathWrite p page off f = f s.hw := by
  simp [Hw.pathWrite, ho.1, ho.2]

/-- An aligned 32-bit write reaches the word its address names (R12). -/
theorem State.write_word (ha : regAddrNat a % 4 = 0) (ht : s.hw.target p a (regAddrNat a) = .reg page off) :
    s.write p a 4 v = s.writeReg p page off v := by
  simp [State.write, ha, ht, State.writeTarget]

/-- A write that its path may do, to a register past the header whose row has no meaning of its own. -/
theorem State.writeReg_block (hb : blockAt page = some (kind, inst)) (h100 : 0x100 ≤ off) (hown : ownWrite p kind inst page off v = none)
    (ho : WriteOpen s p page off) : s.writeReg p page off v = s.onHw fun h => h.blockWrite p kind inst page off v := by
  have hcmd : off ≠ 0x01C := by omega
  have hhead : ¬ off < 0x100 := by omega
  simp [State.writeReg, hb, hcmd, hhead, hown, ho.1, State.onHw, Hw.pathWrite_open _ ho]

theorem rowAt_off (hr : rowAt kind off = some r) : r.off = off := by
  simpa using List.find?_some hr

/-- On the pages whose registers are stored as written, a RW register takes the written bits that it implements (R9). -/
theorem Hw.rowWrite_stored (hk : kind ∉ [.monitor, .powerGlobal, .hostGlobal, .hostPort, .calliope, .calib]) (ht : r.typ = .rw)
    (hp : perPath kind (daOff (page + r.off)) = false) :
    h.rowWrite p kind inst page r v = h.setReg (page + r.off) (v &&& BitVec.ofNat 32 r.mask) := by
  have hs : h.storeReg kind p (page + r.off) r.mask v = h.setReg (page + r.off) (v &&& BitVec.ofNat 32 r.mask) := by
    simp [Hw.storeReg, hp]
  rw [← hs]
  unfold Hw.rowWrite
  rw [ht]
  cases kind
  case monitor | powerGlobal | hostGlobal | hostPort | calliope | calib => simp at hk
  all_goals rfl

theorem Hw.blockWrite_lo (hr : rowAt kind off = some r) (ht : r.typ = .rw) (hlo : off ∈ regPairs kind) :
    h.blockWrite p kind inst page off v = h.withLoStage (Tab.set h.rf.loStage (pathKey p (page + off)) v) := by
  simp [Hw.blockWrite, hr, ht, hlo, Hw.withLoStage]

theorem Hw.blockWrite_hi (hk : kind ∉ [.monitor, .powerGlobal, .hostGlobal, .hostPort, .calliope, .calib])
    (hq : rowAt kind off = some q) (hr : rowAt kind (off + 4) = some r) (hqt : q.typ = .rw) (hrt : r.typ = .rw)
    (hlo : off ∈ regPairs kind) (hhi : off + 4 ∉ regPairs kind)
    (hpl : perPath kind (daOff (page + off)) = false) (hph : perPath kind (daOff (page + (off + 4))) = false) :
    h.blockWrite p kind inst page (off + 4) v =
      (h.commitLo p (page + off) q.mask).setReg (page + (off + 4)) (v &&& BitVec.ofNat 32 r.mask) := by
  have hqo := rowAt_off hq
  have hro := rowAt_off hr
  have hsub : page + (off + 4) - 4 = page + off := by omega
  have hw : ∀ g : Hw, g.rowWrite p kind inst page r v = g.setReg (page + (off + 4)) (v &&& BitVec.ofNat 32 r.mask) := fun g => by
    rw [Hw.rowWrite_stored hk hrt (by rw [hro, hph]), hro]
  have hc : ∀ (g : Hw) (w : Word), g.rowWrite p kind inst page q w = g.setReg (page + off) (w &&& BitVec.ofNat 32 q.mask) := fun g w => by
    rw [Hw.rowWrite_stored hk hqt (by rw [hqo, hpl]), hqo]
  cases hs : Tab.find h.rf.loStage (pathKey p (page + off)) with
  | some w => simp [Hw.blockWrite, hr, hrt, hhi, hlo, hsub, hq, hs, hw, hc, Hw.commitLo_staged hs, Hw.withLoStage]
  | none => simp [Hw.blockWrite, hr, hrt, hhi, hlo, hsub, hq, hs, hw, Hw.commitLo_unstaged hs]

theorem exec_loWrite_of_write (h : s.write p a 4 v = t) : exec (.loWrite p a v) s = .next t := congrArg Host.Outcome.next h
theorem exec_hiWrite_of_write (h : s.write p a 4 v = t) : exec (.hiWrite p a v) s = .next t := congrArg Host.Outcome.next h

end Writes

end Sys2Proof.Machine

section
open Sys2Proof Sys2Proof.Machine

/-- Settles O10: a write of LO is a change of the path's staged word alone (`blockWrite_lo`); a write of HI commits LO and stores HI (`blockWrite_hi`). -/
theorem pairWriteStagesThenCommits : Obligations.PairWriteStagesThenCommits := by
  unfold Obligations.PairWriteStagesThenCommits
  refine ⟨?_, ?_⟩
  · intro p a v s page off inst kind r ha ht hb h100 hown hr hrt hlo ho
    have hw := (State.write_word (v := v) ha ht).trans (State.writeReg_block hb h100 hown ho)
    simp only [Hw.blockWrite_lo hr hrt hlo] at hw
    exact ⟨_, exec_loWrite_of_write hw, ⟨rfl, rfl, rfl⟩, fun _ _ => rfl, fun j => Tab.find_set .., rfl⟩
  · intro p a v s page off inst kind r q ha ht hb h100 hown hk hq hr hrt hqt hlo hhi hpl hph ho
    have hw := (State.write_word (v := v) ha ht).trans (State.writeReg_block hb (by omega) hown ho)
    simp only [Hw.blockWrite_hi hk hq hr hqt hrt hlo hhi hpl hph] at hw
    have hne : page + off ≠ page + (off + 4) := by omega
    refine ⟨_, exec_hiWrite_of_write hw, ⟨rfl, rfl, rfl⟩, ?_, Hw.reg_setReg_same .., ?_, ?_, ?_⟩
    · intro k hk
      obtain ⟨hklo, hkhi⟩ : k ≠ page + off ∧ k ≠ page + (off + 4) := by simpa using hk
      exact (Hw.reg_setReg_other _ _ _ _ hkhi).trans (Hw.commitLo_reg_other hklo)
    · exact (Hw.reg_setReg_other _ _ _ _ hne).trans Hw.commitLo_reg_same
    · intro j
      rw [State.onHw_hw, Hw.setReg_loStage, Hw.commitLo_loStage, Tab.find_erase]
    · exact congrArg (fun g : Hw => g.setReg _ _) Hw.commitLo_rest

end

/-! BLK_EVENT: the bits that a clear, a force and hardware leave, and what else they change (R10, R414, R417). -/
namespace Sys2Proof.Machine

section Bits

theorem times_zero {σ : Type} (s : σ) (f : Nat → σ → σ) : times 0 s f = s := rfl
theorem times_succ {σ : Type} (n : Nat) (s : σ) (f : Nat → σ → σ) : times (n + 1) s f = f n (times n s f) := by
  simp [times, List.range_succ]

/-- A step done for each set bit of a word, where every step sets its own bit of a register, sets all of the word's bits below n. -/
theorem Hw.getLsbD_reg_times_bits {f : Nat → Hw → Hw} {k : Nat} (v : Word)
    (hf : ∀ (i : Nat) (h : Hw), (f i h).reg k = h.reg k ||| BitVec.ofNat 32 (1 <<< i)) (h : Hw) (n j : Nat) (hj : j < 32) :
    ((times n h fun i g => if wbit v i then f i g else g).reg k).getLsbD j = ((h.reg k).getLsbD j || (decide (j < n) && wbit v j)) := by
  induction n with
  | zero => simp [times_zero]
  | succ n ih =>
    have hbit : (BitVec.ofNat 32 (1 <<< n)).getLsbD j = decide (n = j) := by
      rw [BitVec.getLsbD_ofNat, Nat.one_shiftLeft, Nat.testBit_two_pow, decide_eq_true hj, Bool.true_and]
    have hlt : decide (j < n + 1) = (decide (j < n) || decide (n = j)) := by
      rw [← Bool.decide_or]
      exact decide_eq_decide.2 (by omega)
    rw [times_succ]
    by_cases hv : wbit v n = true
    · rw [if_pos hv, hf, BitVec.getLsbD_or, ih, hbit, hlt]
      by_cases hnj : n = j
      · simp [hnj ▸ hv, hnj]
      · simp [hnj]
    · rw [if_neg hv, ih, hlt]
      by_cases hnj : n = j
      · subst hnj
        simp [hv]
      · simp [hnj]

theorem Hw.reg_times_bits {f : Nat → Hw → Hw} {k : Nat} (v : Word)
    (hf : ∀ (i : Nat) (h : Hw), (f i h).reg k = h.reg k ||| BitVec.ofNat 32 (1 <<< i)) (h : Hw) :
    (times 32 h fun i g => if wbit v i then f i g else g).reg k = h.reg k ||| v := by
  refine BitVec.eq_of_getLsbD_eq fun j hj => ?_
  rw [Hw.getLsbD_reg_times_bits v hf h 32 j hj, BitVec.getLsbD_or, decide_eq_true hj, Bool.true_and]
  rfl

theorem times_bits_zero (h : Hw) (f : Nat → Hw → Hw) (n : Nat) : (times n h fun i g => if wbit 0 i then f i g else g) = h := by
  induction n with
  | zero => rfl
  | succ n ih => rw [times_succ, ih]; simp [wbit]

end Bits

section Events

/-- From a to b only reports have happened, and free values may have been drawn: their counter may differ too. -/
def Hw.ReportsFree (a b : Hw) (ks : List Nat) : Prop := ({ a with freeCtr := b.freeCtr } : Hw).Reports b ks

theorem Hw.ReportsFree.refl (h : Hw) (ks : List Nat) : h.ReportsFree h ks := Hw.Reports.refl h ks
theorem Hw.ReportsFree.trans {a b c : Hw} {ks : List Nat} (x : a.ReportsFree b ks) (y : b.ReportsFree c ks) : a.ReportsFree c ks := by
  refine ⟨?_, fun k hk => (y.2 k hk).trans (x.2 k hk)⟩
  rw [y.1, x.1]
theorem Hw.Reports.reportsFree {a b : Hw} {ks : List Nat} (x : a.Reports b ks) : a.ReportsFree b ks := by
  refine ⟨?_, x.2⟩
  rw [x.1]
theorem Hw.free_reportsFree (h : Hw) (w : Nat) (ks : List Nat) : h.ReportsFree (h.free w).2 ks := ⟨rfl, fun _ _ => rfl⟩
theorem Hw.ReportsFree.times_bits {f : Nat → Hw → Hw} {ks : List Nat} (hf : ∀ (i : Nat) (h : Hw), h.ReportsFree (f i h) ks)
    (v : Word) (h : Hw) (n : Nat) : h.ReportsFree (times n h fun i g => if wbit v i then f i g else g) ks := by
  induction n with
  | zero => exact .refl h ks
  | succ n ih =>
    rw [times_succ]
    split
    · exact ih.trans (hf ..)
    · exact ih

/-- The error bit is set whether the log was armed or the error counts as missed (R417). -/
theorem Hw.logError_reg_event (h : Hw) (page addr info : Nat) (hp : page % 4096 = 0) :
    (h.logError page addr info).reg (page + 0x010) = h.reg (page + 0x010) ||| BitVec.ofNat 32 (1 <<< 1) := by
  have hseq : page + 0x010 ≠ pgEvlog + Reg.evlog.evlogSeq := by
    have : (pgEvlog + Reg.evlog.evlogSeq) % 4096 = 0x100 := by decide
    omega
  have hlog : ∀ (n : Option Paddock), (h.logEntry 1 0xFF page info n).reg (page + 0x010) = h.reg (page + 0x010) := fun n =>
    (Hw.logEntry_reports ..).reg (by simpa using hseq)
  unfold Hw.logError
  dsimp only
  split
  case isTrue hbit =>
    have hset : (h.reg (page + 0x010)).getLsbD 1 = true := by rwa [Hw.bit, hlog] at hbit
    rw [Hw.reg_count, if_neg (by omega), hlog]
    refine BitVec.eq_of_getLsbD_eq fun j hj => ?_
    rw [BitVec.getLsbD_or, BitVec.getLsbD_ofNat, Nat.one_shiftLeft, Nat.testBit_two_pow]
    by_cases h1 : 1 = j
    · simp [← h1, hset]
    · simp [h1]
  case isFalse =>
    rw [Hw.raise_reg_event _ _ _ hp, Hw.reg_setFld, if_neg (by omega), Hw.reg_setReg64_other _ _ _ _ (by omega) (by omega), hlog]

/-- Hardware sets a bit of BLK_EVENT: an error is logged, with free address and information (R417, notes/assumptions/1.md); any other event is raised. -/
def Hw.hwEvent (h : Hw) (page i : Nat) : Hw :=
  if i = 1 then ((h.free 64).2.free 16).2.logError page (h.free 64).1 ((h.free 64).2.free 16).1 else h.raise page i

theorem Hw.hwEvent_reg_event (h : Hw) (page i : Nat) (hp : page % 4096 = 0) :
    (h.hwEvent page i).reg (page + 0x010) = h.reg (page + 0x010) ||| BitVec.ofNat 32 (1 <<< i) := by
  unfold Hw.hwEvent
  split
  case isTrue hi => rw [hi]; exact Hw.logError_reg_event _ _ _ _ hp
  case isFalse => exact Hw.raise_reg_event _ _ _ hp
theorem Hw.hwEvent_reportsFree (h : Hw) (page i : Nat) : h.ReportsFree (h.hwEvent page i) (errorRegs page) := by
  unfold Hw.hwEvent
  split
  · exact ((Hw.free_reportsFree ..).trans (Hw.free_reportsFree ..)).trans (Hw.logError_reports ..).reportsFree
  · exact ((Hw.raise_reports ..).mono fun k hk => List.mem_append_right _ hk).reportsFree

theorem Hw.eventClear_eq_times_hwEvent (h : Hw) (page : Nat) (v hw : Word) : h.eventClear page v hw =
    times 32 (h.setReg (page + 0x010) (h.reg (page + 0x010) &&& ~~~v)) fun i g => if wbit hw i then g.hwEvent page i else g := by
  unfold Hw.eventClear
  dsimp only
  congr 1
  funext i g
  cases wbit hw i <;> rfl

theorem Hw.eventClear_reg_event (h : Hw) (page : Nat) (v hw : Word) (hp : page % 4096 = 0) :
    (h.eventClear page v hw).reg (page + 0x010) = (h.reg (page + 0x010) &&& ~~~v) ||| hw := by
  rw [Hw.eventClear_eq_times_hwEvent, Hw.reg_times_bits hw fun i g => g.hwEvent_reg_event page i hp, Hw.reg_setReg_same]
theorem Hw.eventClear_reportsFree (h : Hw) (page : Nat) (v hw : Word) : h.ReportsFree (h.eventClear page v hw) (errorRegs page) := by
  have hset := ((Hw.Reports.setReg h (page + 0x010) (h.reg (page + 0x010) &&& ~~~v)).mono (js := errorRegs page)
    (by simp [errorRegs, eventRegs])).reportsFree
  rw [Hw.eventClear_eq_times_hwEvent]
  exact hset.trans (.times_bits (fun i g => g.hwEvent_reportsFree page i) hw _ 32)
theorem Hw.eventClear_without_hardware (h : Hw) (page : Nat) (v : Word) :
    h.eventClear page v 0 = h.setReg (page + 0x010) (h.reg (page + 0x010) &&& ~~~v) := by
  rw [Hw.eventClear_eq_times_hwEvent, times_bits_zero]

theorem Hw.eventForce_reg_event (h : Hw) (page : Nat) (v : Word) (hp : page % 4096 = 0) :
    (h.eventForce page v).reg (page + 0x010) = h.reg (page + 0x010) ||| v :=
  Hw.reg_times_bits v (fun i g => g.raise_reg_event page i hp) h
theorem Hw.eventForce_reports (h : Hw) (page : Nat) (v : Word) : h.Reports (h.eventForce page v) (eventRegs page) :=
  Hw.Reports.foldl (List.range 32) (fun g i => if wbit v i then g.raise page i else g) (eventRegs page) (fun g i => by
    split
    · exact g.raise_reports page i
    · exact .refl g _) h

variable {s : State} {p : Path} {a : RegAddr} {k : PageKind × Nat} {page off : Nat}

/-- A write that its path may do, to the header register it is meant for. -/
theorem State.atHeader_open (f : PageKind → Nat → Nat → Hw → Hw) (ht : s.hw.target p a (regAddrNat a) = .reg page off)
    (hb : blockAt page = some k) (ho : WriteOpen s p page off) : s.atHeader p a off f = s.onHw (f k.1 k.2 page) := by
  simp [State.atHeader, ht, hb, State.onHw, Hw.pathWrite_open _ ho]

theorem exec_blkEventClear_open (v hw : Word) (ht : s.hw.target p a (regAddrNat a) = .reg page 0x010) (hb : blockAt page = some k)
    (ho : WriteOpen s p page 0x010) : exec (.blkEventClear p a v hw) s = .next (s.onHw fun h => h.eventClear page v hw) :=
  congrArg Host.Outcome.next (State.atHeader_open (fun _ _ page h => h.eventClear page v hw) ht hb ho)
theorem exec_blkEventForce_open (v : Word) (ht : s.hw.target p a (regAddrNat a) = .reg page 0x018) (hb : blockAt page = some k)
    (ho : WriteOpen s p page 0x018) : exec (.blkEventForce p a v) s = .next (s.onHw fun h => h.eventForce page v) :=
  congrArg Host.Outcome.next (State.atHeader_open (fun _ _ page h => h.eventForce page v) ht hb ho)

end Events

end Sys2Proof.Machine

section
open Sys2Proof Sys2Proof.Machine

/-- Settles O11: the bits are set one by one, each by an event raised or an error logged (`reg_times_bits`), and each of these only reports (`eventClear_reportsFree`, `eventForce_reports`). -/
theorem eventBitsClearAndForce : Obligations.EventBitsClearAndForce := by
  unfold Obligations.EventBitsClearAndForce
  refine ⟨?_, ?_⟩
  · intro p a v hw s page k ht hb hp ho
    obtain ⟨hrest, hregs⟩ := s.hw.eventClear_reportsFree page v hw
    refine ⟨_, exec_blkEventClear_open v hw ht hb ho, ⟨rfl, rfl, rfl⟩, s.hw.eventClear_reg_event page v hw hp, hregs, hrest, ?_⟩
    rintro rfl
    exact s.hw.eventClear_without_hardware page v
  · intro p a v s page k ht hb hp ho
    exact ⟨_, exec_blkEventForce_open v ht hb ho, ⟨rfl, rfl, rfl⟩, s.hw.eventForce_reg_event page v hp, s.hw.eventForce_reports page v⟩

end
